-- ==== Sys2Proof/Word.lean ====
section
/-! DEFINITION. The word and byte types of the SN2400 model (R6, R8). -/
namespace Sys2Proof

/-- A 64-bit register or packet word (R8: registers are 64 bits wide). -/
abbrev Word := BitVec 64

/-- One byte. -/
abbrev Byte := BitVec 8

/-- A word from a natural number, modulo 2^64. -/
abbrev word (n : Nat) : Word := BitVec.ofNat 64 n

/-- A byte from a natural number, modulo 256. -/
abbrev byte (n : Nat) : Byte := BitVec.ofNat 8 n

end Sys2Proof
end

