-- ==== Sys2Proof/Machine/Tables.lean ====
section
/-! DEFINITION. Sparse tables: lists of (key, value) with keys strictly rising, the one form used for every
register file, frame table and record table of the State. -/
namespace Sys2Proof.Machine

/-- A sparse table keyed by a number. -/
abbrev NTable (α : Type) := List (Nat × α)

/-- The value at a key. -/
def tget {α : Type} : NTable α → Nat → Option α
  | [], _ => none
  | (k, v) :: t, n => if n = k then some v else tget t n

/-- The value at a key, or a default. -/
def tgetD {α : Type} (t : NTable α) (n : Nat) (d : α) : α := (tget t n).getD d

/-- Put a value at a key, keeping keys rising. -/
def tput {α : Type} : NTable α → Nat → α → NTable α
  | [], n, v => [(n, v)]
  | (k, w) :: t, n, v =>
    if n < k then (n, v) :: (k, w) :: t
    else if n = k then (n, v) :: t
    else (k, w) :: tput t n v

/-- Remove a key. -/
def tdel {α : Type} : NTable α → Nat → NTable α
  | [], _ => []
  | (k, w) :: t, n => if n = k then t else (k, w) :: tdel t n

/-- Change the value at a key, when there is one. -/
def tmod {α : Type} (t : NTable α) (n : Nat) (f : α → α) : NTable α :=
  t.map fun (k, v) => if k = n then (k, f v) else (k, v)

/-- Whether a key is present. -/
def thas {α : Type} (t : NTable α) (n : Nat) : Bool := (tget t n).isSome

/-- Keys whose value satisfies a test, rising. -/
def tkeys {α : Type} (t : NTable α) (p : α → Bool) : List Nat :=
  (t.filter fun kv => p kv.2).map (·.1)

/-- Number of entries whose value satisfies a test. -/
def tcount {α : Type} (t : NTable α) (p : α → Bool) : Nat :=
  (t.filter fun kv => p kv.2).length

/-- Keys strictly rising: the canonical form. -/
def tsorted {α : Type} : NTable α → Bool
  | [] => true
  | [_] => true
  | (a, _) :: (b, w) :: t => decide (a < b) && tsorted ((b, w) :: t)

/-- Lowest key from lo, below hi, that is absent. -/
def tfree {α : Type} (t : NTable α) (lo : Nat) : Nat → Option Nat
  | 0 => none
  | fuel + 1 => if thas t lo then tfree t (lo + 1) fuel else some lo

/-- Remove the first list element that satisfies a test. -/
def delFirst {α : Type} (p : α → Bool) : List α → List α
  | [] => []
  | x :: xs => if p x then xs else x :: delFirst p xs

/-- Insert by a total preorder test (stable): used to keep queues in a stated order. -/
def insertBy {α : Type} (le : α → α → Bool) (x : α) : List α → List α
  | [] => [x]
  | y :: ys => if le x y then x :: y :: ys else y :: insertBy le x ys

/-- Insertion sort by a test. -/
def sortBy {α : Type} (le : α → α → Bool) (l : List α) : List α :=
  l.foldr (insertBy le) []

end Sys2Proof.Machine
end

