-- ==== Sys2Proof/Machine/RecPages.lean ====
section
/-! DEFINITION. Records of page frames, trailers, sequences, tier-2 slots and summaries (files 03 and 07). -/
namespace Sys2Proof.Machine

/-- State of a frame (R42, R64). SPILLED is a state of a tier-2 slot. -/
inductive FState where
  | free | reserved | opened | sealed | freePending | system
deriving DecidableEq, Repr

/-- What a system frame holds (R42, R151). -/
inductive SysUse where
  | none | descriptor | blockTable | stripeTable | tokenLog | stats | index | choice | latch | region | image | adapter
  | grammar | summary | plan | quadDir
deriving DecidableEq, Repr

/-- A frame record (R42–R44): state, generation, reference and lease counts, grace count, context charged, use of a
system frame and the object (sequence, image, slot) it belongs to. -/
structure Frame where
  st : FState
  gen : Nat
  refs : Nat
  leases : Nat
  grace : Nat
  ctx : Nat
  use : SysUse
  owner : Nat
deriving DecidableEq, Repr

/-- A page trailer (R39). -/
structure Trailer where
  seq : Nat
  layer : Nat
  hg : Nat
  format : Nat
  state : Nat
  tokenBase : Nat
  fill : Nat
  committed : Nat
  gen : Nat
  ptCode : Nat
  headsM1 : Nat
  headDim : Nat
  scaleOff : Nat
  statsRef : Nat
  payloadCrc : Nat
  headerCrc : Nat
  sealTime : Nat
  producer : Nat
  context : Nat
deriving DecidableEq, Repr

/-- Geometry of a sequence (R33–R35). ptCode: 0 16 rows, 1 32, 2 64. -/
structure Geometry where
  layers : Nat
  kvHeads : Nat
  hpp : Nat
  headDim : Nat
  format : Nat
  ptCode : Nat
deriving DecidableEq, Repr

/-- One page of a sequence's working copy: the block-table entry (R49), TOKEN_BASE and rows (R48, R62). -/
structure PageRef where
  layer : Nat
  hg : Nat
  entry : Word
  base : Nat
  fill : Nat
  opened : Bool
deriving DecidableEq, Repr

/-- Sequence states (R46). -/
inductive SState where
  | admitting | runnable | starved | pausing | paused | resuming | cancelled | ended | lostState | offered
deriving DecidableEq, Repr

/-- Choice state kept with a sequence (R128). made is false until the first step that runs the sequence. -/
structure Choice where
  made : Bool
  grammarId : Nat
  grammarValid : Bool
  grammarState : Nat
  draftLen : Nat
  reject : Nat
  accept : Nat
  probe : Nat
deriving DecidableEq, Repr

/-- A frame held in reserve for one (layer, head group) (R51). -/
structure Reserve where
  layer : Nat
  hg : Nat
  frame : Nat
deriving DecidableEq, Repr

/-- A sequence this controller holds a descriptor of (R45), with the owner's working copies. before is the state to
return to after OFFERED; pauseAsk that a host pause waits for its boundary; hintAsk that a hint waits for the end of a pause; cancelAsk the SEQ_CANCEL commands held by an
offer (R16); unstriped the sealed pages not yet in a stripe as (layer, head group, base), in sealing order (R289); dropNext local copies to drop at
the next boundary (R50 step 5). -/
structure Seq where
  ctx : Nat
  st : SState
  priority : Nat
  endStatus : Nat
  length : Nat
  kvLength : Nat
  pauseCause : Nat
  imageId : Nat
  adapterId : Nat
  adapterVer : Nat
  hasImage : Bool
  hasAdapter : Bool
  degradable : Bool
  noSpill : Bool
  draft : Bool
  geo : Geometry
  btRoot : Nat
  logRep : List Nat
  latchRef : Nat
  epoch : Nat
  home : Nat
  ttl : Nat
  expiry : Nat
  stripeRef : Nat
  partner : Nat
  created : Nat
  log : List Nat
  pages : List PageRef
  reserve : List Reserve
  choice : Choice
  lossy : Bool
  summarised : Nat
  mirror : Nat
  holders : List Nat
  group : Nat
  admitNo : Nat
  before : SState
  ttlAsked : Nat
  pauseAsk : Bool
  hintAsk : Bool
  cancelAsk : List Nat
  nextStripe : Nat
  unstriped : List (Nat × Nat × Nat)
  dropNext : List Nat
  prefill : Bool
  early : Bool
deriving DecidableEq, Repr

/-- A tier-2 slot (R49, R155–R159). state: 0 being written, 1 valid, 2 releasing (grace), 3 lost. -/
structure Slot where
  state : Nat
  refs : Nat
  ctx : Nat
  seq : Nat
  grace : Nat
  trailer : Trailer
deriving DecidableEq, Repr

/-- A spill in progress (R158): page's frame, slot and sequence. leased is false while it waits for a lease on the frame (R43). -/
structure Spill where
  frame : Nat
  slot : Nat
  seq : Nat
  leased : Bool
deriving DecidableEq, Repr

/-- A prefetch in progress (R159). -/
structure Prefetch where
  slot : Nat
  frame : Nat
  seq : Nat
deriving DecidableEq, Repr

/-- A summary-index entry (R172), with the page's trailer, former entry and place in its stripe. -/
structure SumEntry where
  seq : Nat
  layer : Nat
  hg : Nat
  tokenBase : Nat
  fill : Nat
  frame : Nat
  index : Nat
  trailer : Trailer
  entry : Word
  stripe : Nat
  shard : Nat
  owner : Nat
  hint : Nat
deriving DecidableEq, Repr

/-- Reports a pause or resume of an owned sequence waits for (R166, R168, R170): holders still to report, spilled and
kept (or left) counts so far, time the requests were sent, and whether all summaries are usable. kind: 0 pause,
1 resume, 2 hint. -/
structure Reports where
  kind : Nat
  waiting : List Nat
  done : Nat
  kept : Nat
  sent : Nat
  usable : Bool
deriving DecidableEq, Repr

/-- A holding-index entry (R102): what this controller holds of a sequence's pages: entry, position range, role in its
stripe. hint is the sequence's priority class, plus 8 for PLACE PIN or 16 for SPILL_EARLY (R160), as its owner sent it. -/
structure Holding where
  seq : Nat
  layer : Nat
  hg : Nat
  entry : Word
  base : Nat
  fill : Nat
  parity : Bool
  stripe : Nat
  shard : Nat
  owner : Nat
  ctx : Nat
  hint : Nat
deriving DecidableEq, Repr

/-- A holder's answer to SPILL_REQ or PREFETCH_REQ in progress (R166, R168, R173): pages done and kept so far. kind 0 spill,
1 prefetch. -/
structure HoldJob where
  kind : Nat
  seq : Nat
  owner : Nat
  req : Nat
  done : Nat
  kept : Nat
deriving DecidableEq, Repr

/-- Frames, trailers, sequences, tier-2 slots and summaries. firmware lists the runs (first, count) of frames reserved for firmware
(R310). -/
structure PagesS where
  tableBuilt : Bool
  firmware : List (Nat × Nat)
  frames : NTable Frame
  trailers : NTable Trailer
  seqs : NTable Seq
  admitCtr : Nat
  poison : List Nat
  slots : NTable Slot
  spills : List Spill
  prefetches : List Prefetch
  sums : List SumEntry
  reports : NTable Reports
  index : List Holding
  holdJobs : List HoldJob
  bgSpill : Bool
  lastTick : Nat
deriving DecidableEq, Repr

end Sys2Proof.Machine
end

