-- ==== Sys2Proof/Machine/RecHome.lean ====
section
/-! DEFINITION. What controllers of a cell tell each other: Latch and cell messages (R275, R276), Latch records with the
tables their homes keep (R268, R291), stripe groups (R288), the admission ledger (R287), and the firmware's own messages,
which carry the writes of R272 and R287 and whose wire form the manual leaves to the firmware. -/
namespace Sys2Proof.Machine

/-- An object a Latch guards: a sequence by its ID, or a region by its fabric address. -/
structure Obj where
  region : Bool
  id : Nat
deriving DecidableEq, Repr

/-- A Latch message's fields (R275). -/
structure LMsg where
  sub : Nat
  status : Nat
  obj : Obj
  epoch : Nat
  owner : Nat
  st : Nat
  accepted : Bool
  offerer : Nat
  receiver : Nat
  hingeId : Nat
  body : List Byte
deriving DecidableEq, Repr

/-- A cell, page or rebuild message's fields (R276): the words at 0x10, 0x18 and 0x20. -/
structure CMsg where
  sub : Nat
  status : Nat
  req : Nat
  obj : Nat
  a : Nat
  b : Nat
  c : Nat
deriving DecidableEq, Repr

/-- Trailer fields of a data shard in a stripe-table entry (R291). -/
structure ShardInfo where
  base : Nat
  fill : Nat
  layer : Nat
  hg : Nat
  crc : Nat
  sealTime : Nat
deriving DecidableEq, Repr

/-- A stripe-table entry (R291). health lists the readable shards. -/
structure StripeE where
  count : Nat
  health : List Nat
  short : Bool
  former : Nat
  ctx : Nat
  k : Nat
  group : Nat
  slots : List Nat
  data : List ShardInfo
deriving DecidableEq, Repr

/-- A Latch record with what its home keeps beside it (R268, R269): descriptor and choice copies, block-table entries
keyed by layer × 2^32 + index, and the stripe table. done is the HINGE_ID and acceptor of the last completed transfer;
expired that an offerer's lease ran out while OFFERED; lost that the home set LOST_STATE; notices the parties that
have not acknowledged an EPOCH_NOTICE. frame is the system frame of the record. -/
structure Home where
  ctx : Nat
  owner : Nat
  st : Nat
  prefill : Bool
  epoch : Nat
  offeredTo : Nat
  assigning : Bool
  offerTime : Nat
  hingeId : Nat
  mirror : Nat
  reps : List Nat
  logs : List Nat
  group : Nat
  done : Nat × Nat
  expired : Bool
  lost : Bool
  desc : List Byte
  bt : NTable Nat
  stripes : NTable StripeE
  notices : List Nat
  noticeFrom : Nat
  noticeAt : Nat
  asked : Nat
  frame : Nat
deriving DecidableEq, Repr

/-- An admission-ledger entry (R287). state 0 live, 1 retiring; left counts reclamation points to go (R276); logs
the token-log holders the manager named. -/
structure LedgerE where
  ctx : Nat
  home : Nat
  group : Nat
  state : Nat
  left : Nat
  logs : List Nat
deriving DecidableEq, Repr

/-- A stripe group (R288): position → member endpoint, failed and rebuilding positions, targets (endpoint, position),
spares. -/
structure Group where
  k : Nat
  members : List Nat
  failed : List Nat
  rebuilding : List Nat
  targets : List (Nat × Nat)
  spares : List Nat
deriving DecidableEq, Repr

/-- A copy of a sealed page or parity page: trailer fields and the used payload bytes (R290). shard and stripe are its
place in its stripe; parity pages are shards k and k + 1; hint as a Holding keeps it. -/
structure PageCopy where
  seq : Nat
  group : Nat
  stripe : Nat
  shard : Nat
  parity : Bool
  trailer : Trailer
  bytes : List Byte
  hint : Nat
deriving DecidableEq, Repr

/-- One row of one head written to a mirror: region 0 K or 1 V, head, row, element and scale bytes (R35, R55). -/
structure RowW where
  region : Nat
  head : Nat
  row : Nat
  elems : List Byte
  scales : List Byte
deriving DecidableEq, Repr

/-- A write of an OPEN page to the mirror partner (R55): place, fills, seal time when it is sealed, and rows. -/
structure MirrorW where
  seq : Nat
  ctx : Nat
  geo : Geometry
  layer : Nat
  hg : Nat
  base : Nat
  fill : Nat
  committed : Nat
  sealTime : Nat
  rows : List RowW
deriving DecidableEq, Repr

/-- A write to a sequence's tables at its home (R269): block-table entries as (layer, index, entry); a stripe entry with
the matching block-table entries; the descriptor and choice copies with the log holders; a HEALTH bit cleared by a reader
(R292); a handle or locator replaced wherever the tables name it (R158, R159). -/
inductive HomeW where
  | entries (es : List (Nat × Nat × Nat))
  | stripe (n : Nat) (e : StripeE) (es : List (Nat × Nat × Nat))
  | desc (b : List Byte) (logs : List Nat)
  | health (stripe shard : Nat)
  | repoint (old new : Nat)
deriving DecidableEq, Repr

/-- A change of the cell manager's records (R287). -/
inductive LedgerW where
  | seq (id : Nat) (e : Option LedgerE)
  | region (addr : Nat) (e : Option (Nat × Nat))
  | group (id : Nat) (g : Group)
deriving DecidableEq, Repr

/-- The firmware's own messages. req is the sender's request number, to be answered. -/
inductive XMsg where
  | answer (req status : Nat) (vals : List Nat)
  | shard (req epoch : Nat) (p : PageCopy)
  | mirror (req epoch : Nat) (w : MirrorW)
  | mirrorDrop (seq layer hg base : Nat)
  | unmirror (seq : Nat)
  | log (req seq epoch ctx pos : Nat) (entries : List Nat)
  | logFree (seq : Nat)
  | home (req seq epoch : Nat) (w : HomeW)
  | copy (req seq : Nat) (h : Home)
  | uncopy (seq : Nat)
  | moved (seq : Nat)
  | ledger (req : Nat) (w : LedgerW)
  | lost (seq ctx : Nat)
  | create (req seq ctx group : Nat) (prefill : Bool) (logs : List Nat) (desc : List Byte)
  | retire (req seq : Nat)
  | group (id : Nat) (g : Group)
  | regionMod (req addr ctx epoch : Nat) (destroy : Bool) (mode : Nat)
  | regionDir (req addr ctx created : Nat) (gone : Bool)
  | regionOwner (addr ctx epoch : Nat)
  | rebuild (group pos : Nat) (seqs : List (Nat × Nat))
  | rebuilt (group pos : Nat)
  | repoint (seq old new : Nat)
  | lossy (seq : Nat)
deriving DecidableEq, Repr

/-- What a firmware message says: a Latch message, a cell message, one of the firmware's own, a pane request or
pane, or a FLUSH. -/
inductive Ctl where
  | latch (m : LMsg)
  | cell (m : CMsg)
  | own (m : XMsg)
  | pane
  | flush
deriving DecidableEq, Repr

end Sys2Proof.Machine
end

