-- ==== Sys2Proof/Machine/RecFabric.lean ====
section
/-! DEFINITION. Records of the fabric: packets, paths, queue pairs, windows, message tracking, rack accesses, the
coherent quad and device time (files 08, 09 and 10). -/
namespace Sys2Proof.Machine

/-- A packet's header fields (R182) and payload. -/
structure Pkt where
  type : Nat
  tc : Nat
  colour : Nat
  hopTtl : Nat
  retx : Bool
  src : Nat
  dst : Nat
  qp : Nat
  msn : Nat
  entropy : Nat
  offset : Nat
  length : Nat
  winIdx : Nat
  winGen : Nat
  sendTs : Nat
  opWord : Nat
  payload : List Byte
deriving DecidableEq, Repr

/-- A path of a destination (R191–R194). oneSince is when its weight last became 1 with no sample at or below target
since. -/
structure Path where
  wnd : Nat
  weight : Nat
  inflight : Nat
  sent : Nat
  lastDec : Nat
  lastInc : Nat
  rerolls : Nat
  oneSince : Nat
deriving DecidableEq, Repr

/-- Spraying state of a destination (R192): its paths, round-trip samples (time, ns), and when it was last used. -/
structure Dest where
  paths : NTable Path
  samples : List (Nat × Nat)
  lastUsed : Nat
deriving DecidableEq, Repr

/-- A packet that has been built and is not yet acknowledged or answered. qp is the local queue pair, or none for rack
traffic; st is 0 waiting for a path's window, 1 in a port's egress queue, 2 sent; busyAt is when a busy NAK lets it be
resent. -/
structure TxPkt where
  id : Nat
  pkt : Pkt
  qp : Option Nat
  ctx : Nat
  path : Nat
  bytes : Nat
  st : Nat
  sentAt : Nat
  tries : Nat
  busy : Bool
  busyAt : Nat
deriving DecidableEq, Repr

/-- A work request's fields (R240). -/
structure WorkReq where
  opcode : Nat
  signaled : Bool
  fence : Bool
  armed : Bool
  hasDeadline : Bool
  ctrOnDone : Bool
  armCtr : Nat
  doneCtr : Nat
  aop : Nat
  rsvd : Nat
  imm : Nat
  wrId : Nat
  localAddr : Nat
  localHi : Nat
  length : Nat
  threshold : Nat
  key : Nat
  offset : Nat
  operand : Nat
  swap : Nat
  deadline : Nat
deriving DecidableEq, Repr

/-- A work request made available and not yet completed in the ring's order (R243). st: 0 posted, 1 running, 2 done.
msgs lists its outstanding messages; nextMsg counts messages already cut. -/
structure WrRun where
  wr : WorkReq
  st : Nat
  msgs : List Nat
  nextMsg : Nat
  status : Nat
  detail : Nat
  old : Nat
  held : Bool
  bytes : Nat
deriving DecidableEq, Repr

/-- A completion entry (R242), PHASE aside. -/
structure QCqe where
  wrId : Nat
  status : Nat
  detail : Nat
  opcode : Nat
  recv : Bool
  immValid : Bool
  bytes : Nat
  imm : Nat
  time : Nat
deriving DecidableEq, Repr

/-- What firmware sent a message for: a pane request of a pane, a pane, with the context of its request, or the FLUSH of a sequence's
stripes (R12). -/
inductive FwUse where
  | plain
  | paneRequest (pane : Nat)
  | pane (ctx : Nat)
  | flush (seq : Nat)
deriving DecidableEq, Repr

/-- A firmware message outstanding on a firmware QP (R263), or waiting for its CONNECT (qp none). -/
structure FwMsg where
  id : Nat
  dst : Nat
  tc : Nat
  qp : Option Nat
  msn : Nat
  at_ : Nat
  type : Nat
  key : Nat
  winOff : Nat
  deadline : Option Nat
  payload : List Byte
  ctl : Ctl
  use : FwUse
deriving DecidableEq, Repr

/-- An outstanding message as sender (R245): the work request it belongs to (index from the oldest in wrs is not
stable, so WR_ID order is kept by number), its type and first send time. kind 0 data, 1 read, 2 atomic, 3 flush,
4 read response. -/
structure TxMsg where
  qp : Nat
  msn : Nat
  wrNo : Nat
  kind : Nat
  type : Nat
  base : Nat
  length : Nat
  firstAt : Nat
  left : Nat
  lastBusy : Bool
deriving DecidableEq, Repr

/-- A queue pair (R235–R239). addresses are (kind, address): kind 0 host, 1 local. done and gone list MSNs from
rxBase upward that are done, and abandoned; seen gives first arrival times of MSNs not done; held the READ_REQ,
ATOMIC_REQ and FLUSH_REQ packets that wait for rxBase (R257). -/
structure Qp where
  ctx : Nat
  xe : Nat
  st : Nat
  sq : Nat × Nat
  cq : Nat × Nat
  rx : Nat × Nat
  sqLog : Nat
  cqLog : Nat
  rxLog : Nat
  slotLog : Nat
  rxCtr : Option Nat
  remoteEp : Nat
  remoteQp : Nat
  tc : Nat
  timeoutUs : Nat
  retry : Nat
  maxOut : Nat
  lastPkt : Option Nat
  pi : Nat
  ci : Nat
  wrNo : Nat
  wrs : List (Nat × WrRun)
  drainTo : Nat
  txMsn : Nat
  cqTail : Nat
  cqCi : Nat
  cqWait : List QCqe
  rxNext : Nat
  rxCi : Nat
  rxBase : Nat
  done : List Nat
  gone : List Nat
  seen : NTable Nat
  held : List Pkt
  flushBad : Bool
  badFlushes : List Nat
  reads : List Nat
  connect : Option Nat
  connArgs : Nat × Nat × Nat
  connSet : Nat × Nat × Nat
deriving DecidableEq, Repr

/-- A window entry (R249, R250). live false keeps the generation's history. left gives, for each group of 32
generations, when it was last left. sink names a pane whose buffer the window exposes. pend lists invalidations
waiting for the guard as (command, destroy). -/
structure Win where
  live : Bool
  ctx : Nat
  base : Nat
  len : Nat
  wr : Bool
  rd : Bool
  at_ : Bool
  bound : Option Nat
  ctr : Option Nat
  gen : Nat
  left : NTable Nat
  sink : Option Nat
  pend : List (Option Nat × Bool)
deriving DecidableEq, Repr

/-- A message tracking entry (R253, R259). target is the address of the message's first byte; win its window. -/
structure Track where
  src : Nat
  qp : Nat
  msn : Nat
  type : Nat
  length : Nat
  count : Nat
  grains : List Nat
  imm : Option Nat
  firstAt : Nat
  target : Nat
  win : Nat
  slot : Nat
  bytes : List (Nat × List Byte)
deriving DecidableEq, Repr

/-- Who issued a rack access: an access item of a step's stage, a coherence message (its line, the
quad position it names beside its sender and receiver, whether it answers LOST_STATE), or firmware. -/
inductive AccFrom where
  | item (step stage index addr : Nat)
  | quad (line req : Nat) (lost : Bool)
  | firmware
deriving DecidableEq, Repr

/-- An outstanding rack access (R219–R222): 0 load, 1 store, 2 atomic, 3 coherence message. -/
structure RackAcc where
  msn : Nat
  kind : Nat
  size : Nat
  addr : Nat
  ctx : Nat
  from_ : AccFrom
  pkt : Pkt
  firstAt : Nat
  sentAt : Nat
  sends : Nat
  pendAt : Option Nat
deriving DecidableEq, Repr

/-- The access sequence toward one destination (R219) and the end of its dead hold (R223). -/
structure AccSeq where
  next : Nat
  out : List RackAcc
  wait : List RackAcc
  deadTo : Nat
deriving DecidableEq, Repr

/-- The access window of one source (R220): the next MSN, held accesses, and the last 256 loads and stores with their
responses. -/
structure AccWin where
  expect : Nat
  held : List Pkt
  log : List (Nat × Pkt)
deriving DecidableEq, Repr

/-- An atomic result (R225). -/
structure AtomicRes where
  src : Nat
  rack : Bool
  qp : Nat
  msn : Nat
  status : Nat
  result : List Byte
  at_ : Nat
deriving DecidableEq, Repr

/-- A region's record at its home (R208). advances lists the times of epoch advances within 4 ms (R211); orphanOf the
former owner; destroy and mode changes waiting for a recall carry the command. pendAcc is a HINGE_ACCEPT (acceptor,
HINGE_ID) that waits for R211. -/
structure RegionR where
  owner : Nat
  latch : Nat
  mode : Nat
  ctx : Nat
  epoch : Nat
  offeredTo : Nat
  offeredAt : Nat
  assigning : Bool
  advances : List Nat
  recallOp : Option (Nat × Bool × Nat)
  renewed : Bool
  createdAt : Nat
  hingeId : Nat
  done : Nat × Nat
  expired : Bool
  pendAcc : Option (Nat × Nat)
deriving DecidableEq, Repr

/-- A directory entry (R228) with the request in progress on the line: requester, kind (1 GET_S, 2 GET_M, 0 recall),
ACKs still to come, whether the data was forwarded, and the requests that wait. -/
structure DirE where
  st : Nat
  sharers : List Nat
  owner : Nat
  busy : Option (Nat × Nat)
  acks : List Nat
  wait : List Pkt
deriving DecidableEq, Repr

/-- A line in the quad cache (R228): 0 I, 1 S, 2 E, 3 O, 4 M; and the local accesses that wait for it. -/
structure QLine where
  st : Nat
  data : List Byte
  wait : List RackAcc
deriving DecidableEq, Repr

/-- A port's training and stream state (R179–R181, R195): attempts made, lanes of the best attempt, whether it holds
its place in the word stream, encryption counters of the two phases, packets resent since the last penalty of R302. -/
structure PortS where
  tries : Nat
  best : List Nat
  started : Nat
  synced : Bool
  counter : List Nat
  resent : Nat
deriving DecidableEq, Repr

/-- Link keys (R196): key of each phase, the phase staged last, the newest phase a packet has used and when it was first seen, while
the previous phase's key is kept. -/
structure KeyS where
  keys : NTable Nat
  newest : Option Nat
  newSeen : Option Nat
  seenPhase : Option Nat
deriving DecidableEq, Repr

/-- Device-time state (R197–R201). rate is the clock-rate correction in ppm, exchAt the device time of the last exchange. -/
structure TimeS where
  rate : Int
  exchAt : Option Nat
  t1 : Nat
  t2 : Nat
  t3 : Nat
  waiting : Bool
  delays : List Int
  good : Nat
  locked : Bool
  lastSample : Nat
  holdAt : Nat
  refLoss : Bool
deriving DecidableEq, Repr

/-- A frame a port has sent (newest first in wire): port (24 internal), packet, encrypted, key phase, counter, and the frame's bytes
from its start word (R181). -/
structure WireOut where
  bytes : List Byte
  port : Nat
  pkt : Pkt
  enc : Bool
  phase : Nat
  counter : Nat
deriving DecidableEq, Repr

/-- Fabric state. fwFail holds firmware messages that were undelivered, with a status,
inbox the panes whose messages completed, recalled the changes of regions whose recall has ended, dead the endpoints just declared dead: the end of the same command acts on
them. -/
structure FabS where
  ports : NTable PortS
  keys : KeyS
  time : TimeS
  dests : NTable Dest
  txCtr : Nat
  txs : List TxPkt
  wire : List WireOut
  qps : NTable Qp
  qpLast : NTable Nat
  msgs : List TxMsg
  wins : NTable Win
  tracks : List Track
  fw : List FwMsg
  fwCtr : Nat
  fwFail : List (FwMsg × Nat)
  inbox : List (Nat × List Byte)
  recalled : List Nat
  accs : NTable AccSeq
  accWins : NTable AccWin
  atomics : List AtomicRes
  regions : NTable RegionR
  dir : NTable DirE
  lines : NTable QLine
  probes : List Nat
  dead : List Nat
deriving DecidableEq, Repr

end Sys2Proof.Machine
end

