-- ==== Sys2Proof/Machine/RecCell.lean ====
section
/-! DEFINITION. Records of ownership, homes, the cell manager, token-log and mirror holders, stripes, rebuild, the
journal and health (file 11), and of messages waiting for an answer. -/
namespace Sys2Proof.Machine

/-- A message ready to be sent. -/
structure OutMsg where
  dst : Nat
  type : Nat
  tc : Nat
  ctl : Ctl
  payload : List Byte
deriving DecidableEq, Repr

/-- What a request was sent for; its answer or its going unanswered acts on this. -/
inductive ReqUse where
  | plain
  | admission (seqJob : Nat)
  | createLatch (seqJob : Nat)
  | createLog (seqJob which : Nat)
  | retire (seq : Nat)
  | joined
  | leaving
  | unreachable (home : Nat)
  | logNew (seq which : Nat)
  | logCopy (seq which : Nat)
  | mirrorNew (seq : Nat)
  | mirrorCopy (seq : Nat)
  | lookup (obj : Nat)
  | spill (seq : Nat)
  | prefetch (seq : Nat)
  | refInc (seqJob : Nat)
  | refDec
  | refDrop (seq : Nat) (word : Nat)
  | replace
  | shard (job pos : Nat)
  | stripeTable (job : Nat)
  | table (seq : Nat)
  | mirror (seq : Nat)
  | log (job which : Nat)
  | gate (id : Nat)
  | regionDir (addr cmd : Nat)
  | regionMod (cmd : Nat)
  | query (obj : Obj)
  | assign (cmd : Nat)
  | release (obj : Obj)
  | closing
deriving DecidableEq, Repr

/-- A request not yet answered (R276): the firmware message that carries it. -/
structure Req where
  dst : Nat
  sub : Nat
  obj : Nat
  a : Nat
  fw : Nat
  sentAt : Nat
  use : ReqUse
deriving DecidableEq, Repr

/-- A message held until every named request is answered (placing on replicas, R269, R287). -/
structure Gate where
  waiting : List Nat
  out : OutMsg
deriving DecidableEq, Repr

/-- What the Latch of a sequence and of a region have in common (R268, R208). -/
structure Lv where
  ctx : Nat
  owner : Nat
  st : Nat
  prefill : Bool
  epoch : Nat
  offeredTo : Nat
  assigning : Bool
  offerTime : Nat
  hingeId : Nat
  done : Nat × Nat
  expired : Bool
deriving DecidableEq, Repr

/-- A home's record of an owner's lease (R273). -/
structure Lease where
  last : Nat
  expired : Bool
deriving DecidableEq, Repr

/-- An owner's own lease at one home (R274): send times of renewals not acknowledged, oldest first; send time of the
last acknowledged one, none before the first; whether it has lapsed. -/
structure OwnLease where
  sent : List Nat
  acked : Option Nat
  lapsed : Bool
deriving DecidableEq, Repr

/-- A region this controller owns, keyed by its fabric address: st 0 HELD, 1 OFFERED. -/
structure OwnReg where
  ctx : Nat
  epoch : Nat
  st : Nat
deriving DecidableEq, Repr

/-- A party of a handoff (R277–R281). phase: 0 preparing, 1 offer sent, 2 accept sent, 3 gained, reading the tables, 5 assigned, reading
the tables. flushed tells that the FLUSHes of R12 are sent. -/
structure Hinge where
  obj : Obj
  offerer : Bool
  cmd : Option Nat
  phase : Nat
  hingeId : Nat
  home : Nat
  peer : Nat
  epoch : Nat
  ctx : Nat
  sentAt : Nat
  queryAt : Nat
  askedAt : Option Nat
  before : SState
  assigning : Bool
  gainedAt : Nat
  dead : Bool
  warned : Bool
  flushed : Bool
deriving DecidableEq, Repr

/-- A member of the cell as its manager knows it (R478). -/
structure Member where
  role : Nat
  lastAck : Nat
  silent : Bool
deriving DecidableEq, Repr

/-- A token-log replica held here (R47): its entries with the PROMPT bit at bit 18, and its frames. -/
structure LogRep where
  ctx : Nat
  entries : List Nat
  frames : List Nat
deriving DecidableEq, Repr

/-- A mirrored tail page held here (R295). -/
structure MirrorE where
  seq : Nat
  layer : Nat
  hg : Nat
  base : Nat
  frame : Nat
deriving DecidableEq, Repr

/-- A stripe being formed (R289, R290, R477): its data pages as (layer, head group, base) and their shard infos, handles
learned so far by shard, shards that failed, and the requests it waits for. st 0 writing, 1 table write, 2 unformed,
3 formed with the owner's own copies still named. restore marks a stripe of a restored summary (R173). -/
structure StripeJob where
  seq : Nat
  stripe : Nat
  group : Nat
  pages : List (Nat × Nat × Nat)
  data : List ShardInfo
  slots : NTable Nat
  bad : List Nat
  waiting : List Nat
  st : Nat
  restore : Bool
deriving DecidableEq, Repr

/-- A write to the token-log replicas (R15, R47): entries from a position, replicas still to answer, and the
SEQ_APPEND command or the step and slot that waits. -/
structure LogJob where
  seq : Nat
  pos : Nat
  entries : List Nat
  waiting : List Nat
  cmd : Option Nat
  step : Option (Nat × Nat)
deriving DecidableEq, Repr

/-- An admission in progress (R53, R61): the command, reserve frames taken, and answers awaited. kind 0 SEQ_CREATE,
1 SEQ_FORK. -/
structure AdmitJob where
  kind : Nat
  cmd : Nat
  seq : Nat
  seqRec : Seq
  frames : List Reserve
  waiting : List Nat
  parent : Nat
  upTo : Nat
  holders : List Nat
  acked : List Nat
  latch : Nat
deriving DecidableEq, Repr

/-- A rebuild this controller runs as a spare (R294): sequences to walk as (sequence, home), sequences finished, the next
stripe, the page waiting for STRIPE_REPLY, and the journal's OP_ID (0 before its start). -/
structure Rebuild where
  group : Nat
  pos : Nat
  k : Nat
  seqs : List (Nat × Nat)
  done : Nat
  stripe : Nat
  pend : Option Holding
  op : Nat
deriving DecidableEq, Repr

/-- An operation of the journal (R297–R301): its newest record. finished is when it ended. -/
structure JrRec where
  kind : Nat
  phase : Nat
  obj : Nat
  progress : Nat
  aux : Nat
  start : Nat
  update : Nat
  status : Nat
  live : Bool
  finished : Nat
deriving DecidableEq, Repr

/-- What waits for a free journal slot (R297). -/
inductive JrWait where
  | migrate (seq : Nat) (resume : Bool)
  | image (id : Nat)
  | txn (id : Nat)
  | rebuild
deriving DecidableEq, Repr

/-- Cell state. homes holds the records homed here, copies those of which this controller is a replica with the home's
endpoint; seen the highest epoch seen of each sequence; former the home of sequences no longer owned here, with the owner and epoch last learned; unreach when a
home was found unreachable, held the table writes that wait for it; padded the sequences whose slots are padded until a
log holder or mirror partner is replaced. decayAt is when the health penalties last decayed (R303). -/
structure CellS where
  reqCtr : Nat
  reqs : NTable Req
  jobCtr : Nat
  gates : NTable Gate
  homes : NTable Home
  copies : NTable (Nat × Home)
  seen : NTable Nat
  leases : NTable Lease
  own : NTable OwnLease
  regs : NTable OwnReg
  former : NTable (Nat × Nat)
  hinges : List Hinge
  hingeCtr : Nat
  ledger : NTable LedgerE
  regionDir : NTable (Nat × Nat)
  groups : NTable Group
  members : NTable Member
  logs : NTable LogRep
  mirrors : List MirrorE
  stripes : NTable StripeJob
  logJobs : NTable LogJob
  admits : NTable AdmitJob
  rebuilds : List Rebuild
  unreach : NTable Nat
  probeAt : Nat
  renewAt : Nat
  held : List (Nat × OutMsg)
  padded : List Nat
  jr : NTable JrRec
  jrOps : NTable JrWait
  jrWaits : List JrWait
  boot : Nat
  nextOp : Nat
  penalty : NTable Nat
  decayAt : Nat
  progress : List (Nat × Nat)
  useful : Nat
  coldAt : Nat
deriving DecidableEq, Repr

end Sys2Proof.Machine
end

