-- ==== Sys2Proof/Machine/RecOperand.lean ====
section
/-! DEFINITION. Records of operands: what a command of the table carries in from outside beside its fields: messages, readings
and what reads of other endpoints return. -/
namespace Sys2Proof.Machine

/-- What a coherence message tells beside its packet. -/
structure CohArg where
  req : Nat
  excl : Bool
  lost : Bool
deriving DecidableEq, Repr

/-- What THERMAL_EVAL measures: the twelve die readings in °C, package power, the larger SE die's share of VDD_SE power
and both filtered with τ, in mW; 1 ms averages of package power in W and VDD_SE current in A; whether some rail's 2 ms
average is above its rating. -/
structure Thermal where
  temps : List Nat
  p : Nat
  pf : Nat
  pse : Nat
  psef : Nat
  pkgW : Nat
  seA : Nat
  railOver : Bool
deriving DecidableEq, Repr

/-- What a poll of a regulator reads: readings in mV, A, W, °C, STATUS_WORD's fault, READ_VCAP in mV. -/
structure Poll where
  vout : Nat
  iout : Nat
  pout : Nat
  temp : Nat
  fault : Bool
  vcap : Nat
deriving DecidableEq, Repr

/-- A stripe of a restored summary as its owner reads it: its number, its table entry and its data pages. -/
structure StripeRead where
  stripe : Nat
  entry : StripeE
  data : List (List Byte)
deriving DecidableEq, Repr

/-- What a new owner reads of a sequence: the block-table entries as (layer, index, entry) and the stripe table, with the stripe group and
mirror partner, from the home; the trailers, by table entry, that it reads at the holders of pages no stripe names (R48); and the token
log. -/
structure TableRead where
  entries : List (Nat × Nat × Word)
  stripes : NTable StripeE
  trailers : List (Word × Trailer)
  group : Nat
  mirror : Nat
  log : List Nat
deriving DecidableEq, Repr

/-- A tail page as the mirror partner gives it. -/
structure MirrorPage where
  trailer : Trailer
  opened : Bool
  bytes : List Byte
deriving DecidableEq, Repr

/-- What an assigned owner reads to recover a sequence (R283): the log replicas that answered, the mirror's tail, the
tables; none for what was not answered. -/
structure Recovery where
  logs : List (Option (List Nat))
  mirror : Option (List MirrorPage)
  tables : Option TableRead
deriving DecidableEq, Repr

/-- An error a read of a stack or of SRAM finds: its address, the stack row, whether the code corrected it (R150), and if not whether
what the frame holds is restored from where the manual says (R151, R286), or the record of which region it struck (R208, R286). -/
structure EccHit where
  addr : Nat
  row : Nat
  restored : Bool
  corrected : Bool
  region : Option Nat
deriving DecidableEq, Repr

/-- What a unit's quantum tells beside the clock: for transfer engines and codec units the context and the time run, which the
manual gives no figures for; a parity error (0 none, 1 cleared by the re-run, 2 not); a fault found; uncorrectable errors;
pages reconstructed; a codec unit's operation (R145). -/
structure Quantum where
  ctx : Nat
  ns : Nat
  op : Nat
  parity : Nat
  fault : Option (Nat × Nat)
  ecc : List EccHit
  copies : List PageCopy
deriving DecidableEq, Repr

/-- What a holder knows or finds beside a pane request's bytes: the sequence's geometry, the division S (0 short), INT8 scales, pages
it reconstructed, whether a page cannot be read or reconstructed, whether tier-2 reads failed. -/
structure PaneArg where
  geo : Geometry
  split : Nat
  scales : List Nat
  copies : List PageCopy
  lost : Bool
  tierBad : Bool
deriving DecidableEq, Repr

/-- What a stage takes in by slot: the distributions q of the draft sequence for the positions it drafts (R121), and pages of other
controllers that appends copy on write. -/
structure StageArg where
  drafts : NTable (List (List (Nat × Nat)))
  remote : NTable (List PageCopy)
deriving DecidableEq, Repr

/-- What a spare reads of a stripe: its table entry, the sequence's geometry, owner and placement hint, and the payloads of the shards read,
in shard order (R292, R294). -/
structure RebuildRead where
  entry : StripeE
  geo : Geometry
  owner : Nat
  shards : List (Option (List Byte))
  hint : Nat
deriving DecidableEq, Repr

/-- How a stack's training ends (R148, R154, R153): 0 both points pass, 1 the sprint point fails, 2 both fail; the times in µs,
the spare lanes in use, and the spare rows the stack reports before repairs. -/
structure StackTrain where
  result : Nat
  nomUs : Nat
  sprUs : Nat
  lanes : Nat
  spares : Nat
deriving DecidableEq, Repr

/-- A core's claim (R368): which core, and whether it executes WFI when it finds no source (R370). -/
structure ClaimArg where
  core : Nat
  wfi : Bool
deriving DecidableEq, Repr

/-- A host's write of the mask bit of an MSI-X vector (R374): the vector and the bit. -/
structure MaskArg where
  vec : Nat
  mask : Bool
deriving DecidableEq, Repr

/-- A voltage step (R411): its time, and whether the on-die timing monitors ask for more voltage or less (R28). -/
structure VoltageArg where
  at_ : Nat
  mon : Option Bool
deriving DecidableEq, Repr

/-- The sensor of a die that reached 115 °C, and its reading (R32). -/
structure TripArg where
  sensor : Nat
  temp : Nat
deriving DecidableEq, Repr

/-- How late tier-2 reads ended (R162): in error, and whether the page could be had another way. -/
structure LateArg where
  err : Bool
  solved : Bool
deriving DecidableEq, Repr

/-- A CXL read given up (R456): what the port corrected meanwhile, and whether the page could be had another way. -/
structure ReadEnd where
  corr : Nat
  solved : Bool
deriving DecidableEq, Repr

/-- An image slot of the SPI NOR as the boot ROM finds it (R394): whether its signature verifies, whether it is a manufacturing
image (R391), its security version and its bump flag. -/
structure BootSlot where
  signed : Bool
  manufacturing : Bool
  version : Nat
  bumps : Bool
deriving DecidableEq, Repr

/-- What a bring-up or a warm reset finds (R423, R429): modules up on each die-to-die link, the training of each stack; after a
warm reset whether the Sill's header checks; and at cold bring-up the image slots A and B of the SPI NOR,
the grants of the secure-access policy or that its signature fails, the PM_VR entries, the VDD_SE rating in A, the base of the
descriptor table, the runs (first frame, count) of frames reserved for firmware (R310), and the bytes that arrived on UART_RX
(R461). -/
structure BringUp where
  d2d : List Nat
  trained : List StackTrain
  sillOk : Bool
  imageA : Option BootSlot
  imageB : Option BootSlot
  policy : Option (List Nat)
  policyBad : Bool
  vr : List Nat
  seRated : Nat
  descBase : Nat
  firmware : List (Nat × Nat)
  uartRx : List Byte
deriving DecidableEq, Repr

end Sys2Proof.Machine
end

