-- ==== Sys2Proof/Syntax.lean ====
section
/-! DEFINITION. The commands the SN2400 takes: one constructor per row of the opcode table, with the row's operands,
and the records the operands are made of. -/
namespace Sys2Proof

/-- A 64 B command entry (R340) of a ring, with what its reads of host or fabric buffers returned.
buf, buf2: bytes of the first and second buffer the opcode reads outside local memory; none when the read failed. -/
structure Cmd where
  ring : Nat
  w0 : Word
  w1 : Word
  w2 : Word
  w3 : Word
  w4 : Word
  w5 : Word
  w6 : Word
  w7 : Word
  buf : Option (List Byte)
  buf2 : Option (List Byte)
deriving DecidableEq, Repr

/-- A 64 B command entry as COMMAND_TAKE reads it from host memory, with what its reads of host or fabric buffers returned. -/
structure CmdEntry where
  bytes : List Byte
  buf : Option (List Byte)
  buf2 : Option (List Byte)
deriving DecidableEq, Repr

open Sys2Proof.Machine

/-- The commands, one constructor per row of the opcode table, in its order. t is device time in ns at the command; commands
without it happen at the time of the last one that had it. Other operands are what the row's event tells: indexes of rings,
queue pairs, ports, units and stacks, the bytes of a frame or a message, readings, and what reads of other parties return. -/
inductive Instr where
  /-- IDENTIFY (R355). -/
  | identify (c : Cmd)
  /-- SET_ROLE (R4). -/
  | setRole (c : Cmd)
  /-- SET_MODE (R354). -/
  | setMode (c : Cmd)
  /-- TXN_BEGIN (R356). -/
  | txnBegin (c : Cmd)
  /-- TXN_COMMIT (R357). -/
  | txnCommit (c : Cmd)
  /-- TXN_ABORT (R358). -/
  | txnAbort (c : Cmd)
  /-- SHUTTER_CLOSE (R434). -/
  | shutterClose (c : Cmd)
  /-- SHUTTER_OPEN (R438). -/
  | shutterOpen (c : Cmd)
  /-- WARM_RESET (R423). -/
  | warmReset (c : Cmd)
  /-- COLD_RESET (R429). -/
  | coldReset (c : Cmd)
  /-- SEQ_CREATE (R354). -/
  | seqCreate (c : Cmd)
  /-- SEQ_APPEND (R47). -/
  | seqAppend (c : Cmd)
  /-- SEQ_FORK (R61). -/
  | seqFork (c : Cmd)
  /-- SEQ_PAUSE (R166). -/
  | seqPause (c : Cmd)
  /-- SEQ_RESUME (R168). -/
  | seqResume (c : Cmd)
  /-- RESUME_HINT (R169). -/
  | resumeHint (c : Cmd)
  /-- SEQ_CANCEL (R16). -/
  | seqCancel (c : Cmd)
  /-- SEQ_FREE (R354). -/
  | seqFree (c : Cmd)
  /-- SEQ_QUERY (R354). -/
  | seqQuery (c : Cmd)
  /-- PLAN_LOAD (R351). -/
  | planLoad (c : Cmd)
  /-- PLAN_UNLOAD (R354). -/
  | planUnload (c : Cmd)
  /-- STEP_SUBMIT (R352). -/
  | stepSubmit (c : Cmd)
  /-- IMG_LOAD (R136). -/
  | imgLoad (c : Cmd)
  /-- IMG_UNLOAD (R139). -/
  | imgUnload (c : Cmd)
  /-- ADP_LOAD (R140). -/
  | adpLoad (c : Cmd)
  /-- ADP_REPLACE (R141). -/
  | adpReplace (c : Cmd)
  /-- ADP_UNLOAD (R142). -/
  | adpUnload (c : Cmd)
  /-- GRAMMAR_LOAD (R125). -/
  | grammarLoad (c : Cmd)
  /-- QP_CREATE (R235). -/
  | qpCreate (c : Cmd)
  /-- QP_CONNECT (R237). -/
  | qpConnect (c : Cmd)
  /-- QP_DRAIN (R236). -/
  | qpDrain (c : Cmd)
  /-- QP_MODIFY_ERROR (R238). -/
  | qpModifyError (c : Cmd)
  /-- QP_MODIFY_RESET (R236). -/
  | qpModifyReset (c : Cmd)
  /-- QP_DESTROY (R236). -/
  | qpDestroy (c : Cmd)
  /-- WINDOW_CREATE (R249). -/
  | windowCreate (c : Cmd)
  /-- WINDOW_INVALIDATE (R250). -/
  | windowInvalidate (c : Cmd)
  /-- WINDOW_DESTROY (R250). -/
  | windowDestroy (c : Cmd)
  /-- REGION_CREATE (R207). -/
  | regionCreate (c : Cmd)
  /-- REGION_MODIFY (R209). -/
  | regionModify (c : Cmd)
  /-- REGION_DESTROY (R213). -/
  | regionDestroy (c : Cmd)
  /-- LATCH_QUERY (R354). -/
  | latchQuery (c : Cmd)
  /-- LATCH_ASSIGN (R282). -/
  | latchAssign (c : Cmd)
  /-- HINGE_OFFER (R277). -/
  | hingeOffer (c : Cmd)
  /-- SET_SHAPER (R326). -/
  | setShaper (c : Cmd)
  /-- SET_POLICER (R328). -/
  | setPolicer (c : Cmd)
  /-- SET_SHARE (R319). -/
  | setShare (c : Cmd)
  /-- SET_TIER_POLICY (R161). -/
  | setTierPolicy (c : Cmd)
  /-- CTX_CREATE (R308). -/
  | ctxCreate (c : Cmd)
  /-- CTX_DESTROY (R313). -/
  | ctxDestroy (c : Cmd)
  /-- SPRINT_REQUEST (R410). -/
  | sprintRequest (c : Cmd)
  /-- SPRINT_RELEASE (R413). -/
  | sprintRelease (c : Cmd)
  /-- SET_POWER_CAP (R408). -/
  | setPowerCap (c : Cmd)
  /-- DIAG_ECHO (R354). -/
  | diagEcho (c : Cmd)
  /-- DIAG_FRAME_READ (R354). -/
  | diagFrameRead (c : Cmd)
  /-- SQ_TAIL (R338). -/
  | sqTail (t q v : Nat)
  /-- CQ_HEAD (R339). -/
  | cqHead (t q v : Nat)
  /-- COMMAND_TAKE (R339). -/
  | commandTake (t q : Nat) (e : Option CmdEntry)
  /-- CQ_ENABLE (R364). -/
  | cqEnable (t q : Nat) (w : Word)
  /-- EQ_ENABLE (R364). -/
  | eqEnable (t e : Nat) (w : Word)
  /-- EQ_HEAD (R363). -/
  | eqHead (t e v : Nat)
  /-- SQ_PI (R239). -/
  | sqPi (t n v : Nat) (reqs : List (List Byte))
  /-- CQ_CI (R239). -/
  | cqCi (t n v : Nat)
  /-- RX_CI (R260). -/
  | rxCi (t n v : Nat)
  /-- WRITE (R244). -/
  | write (t n : Nat)
  /-- WRITE_IMM (R244). -/
  | writeImm (t n : Nat)
  /-- READ (R259). -/
  | read (t n : Nat)
  /-- ATOMIC (R226). -/
  | atomic (t n : Nat)
  /-- FLUSH (R258). -/
  | flush (t n : Nat)
  /-- SEND (R260). -/
  | send (t n : Nat)
  /-- ARMED_RELEASE (R262). -/
  | armedRelease (t n : Nat)
  /-- WR_DEADLINE (R247). -/
  | wrDeadline (t n k : Nat)
  /-- RETX_TIMEOUT (R246). -/
  | retxTimeout (t n msn off : Nat)
  /-- MESSAGE_LIFE_EXPIRY (R246). -/
  | messageLifeExpiry (t n msn : Nat)
  /-- NAK_PENDING_RESEND (R248). -/
  | nakPendingResend (t n msn off : Nat)
  /-- CONNECT_GUARD_EXPIRY (R237). -/
  | connectGuardExpiry (t n : Nat)
  /-- WINDOW_GUARD_EXPIRY (R250). -/
  | windowGuardExpiry (t i : Nat)
  /-- MSN_ABANDON (R256). -/
  | msnAbandon (t n msn : Nat)
  /-- MESSAGE_COMPLETE (R253). -/
  | messageComplete (t n msn : Nat) (x : Option (Nat × XMsg))
  /-- RX_WRITE (R251). -/
  | rxWrite (t port : Nat) (fr : List Byte)
  /-- RX_WRITE_IMM (R251). -/
  | rxWriteImm (t port : Nat) (fr : List Byte)
  /-- RX_SEND (R260). -/
  | rxSend (t port : Nat) (fr : List Byte) (c : Nat)
  /-- RX_READ_REQ (R257). -/
  | rxReadReq (t port : Nat) (fr : List Byte)
  /-- READ_RESP (R259). -/
  | readResp (t port : Nat) (fr : List Byte)
  /-- ATOMIC_REQ (R225). -/
  | atomicReq (t port : Nat) (fr : List Byte)
  /-- ATOMIC_RESP (R226). -/
  | atomicResp (t port : Nat) (fr : List Byte)
  /-- FLUSH_REQ (R258). -/
  | flushReq (t port : Nat) (fr : List Byte)
  /-- FLUSH_RESP (R243). -/
  | flushResp (t port : Nat) (fr : List Byte)
  /-- ACK (R193). -/
  | ack (t port : Nat) (fr : List Byte)
  /-- NAK (R248). -/
  | nak (t port : Nat) (fr : List Byte)
  /-- LOAD_REQ (R220). -/
  | loadReq (t port : Nat) (fr : List Byte)
  /-- LOAD_RESP (R216). -/
  | loadResp (t port : Nat) (fr : List Byte)
  /-- STORE (R220). -/
  | store (t port : Nat) (fr : List Byte)
  /-- STORE_RESP (R218). -/
  | storeResp (t port : Nat) (fr : List Byte)
  /-- GET_S (R230). -/
  | getS (t port : Nat) (fr : List Byte) (arg : CohArg)
  /-- GET_M (R230). -/
  | getM (t port : Nat) (fr : List Byte) (arg : CohArg)
  /-- PUT_M (R230). -/
  | putM (t port : Nat) (fr : List Byte) (arg : CohArg)
  /-- PUT_CLEAN (R230). -/
  | putClean (t port : Nat) (fr : List Byte) (arg : CohArg)
  /-- INV (R230). -/
  | inv (t port : Nat) (fr : List Byte) (arg : CohArg)
  /-- FWD_S (R230). -/
  | fwdS (t port : Nat) (fr : List Byte) (arg : CohArg)
  /-- FWD_M (R230). -/
  | fwdM (t port : Nat) (fr : List Byte) (arg : CohArg)
  /-- COHERENCE_DATA (R230). -/
  | coherenceData (t port : Nat) (fr : List Byte) (arg : CohArg)
  /-- COHERENCE_ACK (R230). -/
  | coherenceAck (t port : Nat) (fr : List Byte) (arg : CohArg)
  /-- PANE_REQUEST (R101). -/
  | paneRequest (t src : Nat) (req : List Byte) (x : PaneArg)
  /-- PANE_COMPUTED (R104): job id, whose merge engine te ran. -/
  | paneComputed (t id te : Nat)
  /-- RELAY_FORWARD (R190). -/
  | relayForward (t port : Nat) (fr : List Byte)
  /-- EGRESS_NEXT_FRAME (R326). -/
  | egressNextFrame (t port : Nat)
  /-- TIME_SYNC (R197). -/
  | timeSync (t port : Nat) (fr : List Byte)
  /-- TIME_DELAY_REQ (R197). -/
  | timeDelayReq (t port : Nat) (fr : List Byte)
  /-- TIME_DELAY_RESP (R197). -/
  | timeDelayResp (t port : Nat) (fr : List Byte)
  /-- TIME_EXCHANGE_TIMER (R197). -/
  | timeExchangeTimer (t : Nat)
  /-- HOLDOVER_ENTRY (R198). -/
  | holdoverEntry (t : Nat)
  /-- HOLDOVER_LIMIT (R198). -/
  | holdoverLimit (t : Nat)
  /-- PPS_IN_EDGE (R462). -/
  | ppsInEdge (t : Nat)
  /-- HINGE_OFFER_MSG (R277). -/
  | hingeOfferMsg (t src : Nat) (b : List Byte)
  /-- HINGE_FORWARD (R13). -/
  | hingeForward (t src : Nat) (b : List Byte) (ctx : Nat) (r : Recovery)
  /-- HINGE_ACCEPT (R279). -/
  | hingeAccept (t src : Nat) (b : List Byte)
  /-- HINGE_DONE (R281). -/
  | hingeDone (t src : Nat) (b : List Byte) (x : Option TableRead)
  /-- HINGE_REVERTED (R281). -/
  | hingeReverted (t src : Nat) (b : List Byte)
  /-- HINGE_DECLINE (R283). -/
  | hingeDecline (t src : Nat) (b : List Byte)
  /-- EPOCH_NOTICE (R272). -/
  | epochNotice (t src : Nat) (b : List Byte)
  /-- EPOCH_ACK (R272). -/
  | epochAck (t src : Nat) (b : List Byte)
  /-- LEASE_RENEW (R273). -/
  | leaseRenew (t src : Nat) (b : List Byte)
  /-- LEASE_ACK (R274). -/
  | leaseAck (t src : Nat) (b : List Byte)
  /-- LATCH_QUERY_MSG (R275). -/
  | latchQueryMsg (t src : Nat) (b : List Byte)
  /-- LATCH_REPLY (R281). -/
  | latchReply (t src : Nat) (b : List Byte) (x : Option TableRead)
  /-- ORPHAN_NOTICE (R273). -/
  | orphanNotice (t src : Nat) (b : List Byte)
  /-- LATCH_ASSIGN_MSG (R282). -/
  | latchAssignMsg (t src : Nat) (b : List Byte)
  /-- HOME_MOVED (R285). -/
  | homeMoved (t src : Nat) (b : List Byte)
  /-- LATCH_RELEASE (R436). -/
  | latchRelease (t src : Nat) (b : List Byte)
  /-- ADMIT_REQ (R276). -/
  | admitReq (t src : Nat) (b : List Byte)
  /-- ADMIT_REPLY (R276). -/
  | admitReply (t src : Nat) (b : List Byte)
  /-- SEQ_RETIRE (R276). -/
  | seqRetire (t src : Nat) (b : List Byte)
  /-- JOINED (R276). -/
  | joined (t src : Nat) (b : List Byte)
  /-- LEAVING (R478). -/
  | leaving (t src : Nat) (b : List Byte)
  /-- HOME_UNREACHABLE (R285). -/
  | homeUnreachable (t src : Nat) (b : List Byte)
  /-- MGR_ACK (R276). -/
  | mgrAck (t src : Nat) (b : List Byte)
  /-- PROMOTE (R285). -/
  | promote (t src : Nat) (b : List Byte)
  /-- LOG_REPLICA_REQ (R276). -/
  | logReplicaReq (t src : Nat) (b : List Byte)
  /-- LOG_REPLICA_REPLY (R15). -/
  | logReplicaReply (t src : Nat) (b : List Byte)
  /-- MIRROR_REQ (R295). -/
  | mirrorReq (t src : Nat) (b : List Byte)
  /-- MIRROR_REPLY (R295). -/
  | mirrorReply (t src : Nat) (b : List Byte)
  /-- HOME_LOOKUP (R276). -/
  | homeLookup (t src : Nat) (b : List Byte)
  /-- HOME_LOOKUP_REPLY (R354). -/
  | homeLookupReply (t src : Nat) (b : List Byte)
  /-- PROBE (R478). -/
  | probe (t src : Nat) (b : List Byte)
  /-- PROBE_ACK (R478). -/
  | probeAck (t src : Nat) (b : List Byte)
  /-- SPILL_REQ (R166). -/
  | spillReq (t src : Nat) (b : List Byte)
  /-- SPILL_REPORT (R170). -/
  | spillReport (t src : Nat) (b : List Byte)
  /-- PREFETCH_REQ (R168). -/
  | prefetchReq (t src : Nat) (b : List Byte)
  /-- PREFETCH_REPORT (R170). -/
  | prefetchReport (t src : Nat) (b : List Byte) (rs : List StripeRead)
  /-- REF_INC (R61). -/
  | refInc (t src : Nat) (b : List Byte)
  /-- REF_DEC (R276). -/
  | refDec (t src : Nat) (b : List Byte)
  /-- REF_ACK (R61). -/
  | refAck (t src : Nat) (b : List Byte)
  /-- REF_DROP (R63). -/
  | refDrop (t src : Nat) (b : List Byte)
  /-- STRIPE_REPLACE (R294). -/
  | stripeReplace (t src : Nat) (b : List Byte)
  /-- STRIPE_REPLY (R294). -/
  | stripeReply (t src : Nat) (b : List Byte)
  /-- OFFER_TIMEOUT (R280). -/
  | offerTimeout (t : Nat) (o : Obj)
  /-- HOME_LEASE_EXPIRY (R273). -/
  | homeLeaseExpiry (t : Nat) (owner : Nat)
  /-- OWNER_LEASE_EXPIRY (R274). -/
  | ownerLeaseExpiry (t : Nat) (home : Nat)
  /-- LEASE_RENEW_TIMER (R273). -/
  | leaseRenewTimer (t : Nat)
  /-- HINGE_QUERY_TIMER (R281). -/
  | hingeQueryTimer (t : Nat) (o : Obj) (x : Option TableRead)
  /-- EPOCH_NOTICE_RESEND (R272). -/
  | epochNoticeResend (t : Nat) (q : Nat)
  /-- REQUEST_UNANSWERED (R276). -/
  | requestUnanswered (t : Nat) (req : Nat)
  /-- PROBE_TIMER (R478). -/
  | probeTimer (t : Nat)
  /-- MEMBER_SILENT (R478). -/
  | memberSilent (t : Nat) (ep : Nat)
  /-- HOME_OUTAGE_TIMEOUT (R285). -/
  | homeOutageTimeout (t : Nat) (home : Nat)
  /-- REGION_RENEW_TIMEOUT (R274). -/
  | regionRenewTimeout (t : Nat) (a : Nat)
  /-- STEP_DISPATCH (R344). -/
  | stepDispatch (t id : Nat) (x : StageArg)
  /-- STAGE_BOUNDARY (R322). -/
  | stageBoundary (t id : Nat) (x : StageArg)
  /-- WAIT_STAGE_RELEASE (R348). -/
  | waitStageRelease (t id : Nat) (x : StageArg)
  /-- STEP_BOUNDARY (R344). -/
  | stepBoundary (t id : Nat)
  /-- STEP_BUDGET_EXPIRY (R321). -/
  | stepBudgetExpiry (t id : Nat)
  /-- PANE_DEADLINE (R110). -/
  | paneDeadline (t n : Nat)
  /-- TIER_READ_LATE (R162). -/
  | tierReadLate (t id i : Nat) (job : Option Nat) (n : Nat) (x : LateArg)
  /-- TIER_DEADLINE (R163). -/
  | tierDeadline (t id i : Nat) (job : Option Nat)
  /-- UNIT_DISPATCH (R317). -/
  | unitDispatch (t cls n : Nat) (q : Quantum)
  /-- RECLAMATION_TICK (R44). -/
  | reclamationTick (t : Nat)
  /-- RESERVE_REFILL (R57). -/
  | reserveRefill (t : Nat)
  /-- BACKGROUND_SPILL (R57). -/
  | backgroundSpill (t : Nat)
  /-- SPACE_RESUME (R58). -/
  | spaceResume (t : Nat)
  /-- TAIL_MIGRATION (R50). -/
  | tailMigration (t q layer : Nat)
  /-- PAUSE_EXPIRY (R167). -/
  | pauseExpiry (t q : Nat)
  /-- SPILL_WRITE_DONE (R158). -/
  | spillWriteDone (t slot : Nat) (ok : Bool)
  /-- PREFETCH_READ_DONE (R159). -/
  | prefetchReadDone (t slot : Nat) (ok : Bool)
  /-- REPORT_TIMEOUT (R170). -/
  | reportTimeout (t q : Nat)
  /-- REBUILD_STRIPE (R294). -/
  | rebuildStripe (t : Nat) (x : Option RebuildRead)
  /-- IMG_COPY_DONE (R137). -/
  | imgCopyDone (t i : Nat) (body : Option (List Byte))
  /-- UNIT_IDLE_GATE (R402). -/
  | unitIdleGate (t cls n : Nat)
  /-- UNIT_WAKE_DONE (R403). -/
  | unitWakeDone (t cls n : Nat)
  /-- PLL_STOP (R401). -/
  | pllStop (t die : Nat)
  /-- PLL_RESTART_DONE (R401). -/
  | pllRestartDone (t die : Nat)
  /-- STACK_SELF_REFRESH (R404). -/
  | stackSelfRefresh (t k : Nat)
  /-- SRAM_RETENTION (R382). -/
  | sramRetention (t b : Nat)
  /-- SRAM_BANK_WAKE (R382). -/
  | sramBankWake (t b : Nat)
  /-- PATROL_SCRUB (R152). -/
  | patrolScrub (t f : Nat) (corrected : NTable Nat) (hits : List EccHit)
  /-- STACK_CALIBRATION (R149). -/
  | stackCalibration (t k : Nat)
  /-- STACK_TEMP_REPORT (R31). -/
  | stackTempReport (t k temp : Nat)
  /-- UNIT_RESET (R89). -/
  | unitReset (t cls n : Nat)
  /-- OFFLINE_CLR (R89). -/
  | offlineClr (t cls n : Nat)
  /-- UNIT_ENABLE (R235). -/
  | unitEnable (t cls n : Nat) (on : Bool)
  /-- RETRAIN (R180). -/
  | retrain (t n : Nat)
  /-- EP_SELF_LOCK (R204). -/
  | epSelfLock (t : Nat)
  /-- EP_TIME_SET (R204). -/
  | epTimeSet (t ns : Nat)
  /-- GO (R393). -/
  | go (t : Nat)
  /-- TAMPER_LATCH_CLEAR (R390). -/
  | tamperLatchClear (t w : Nat)
  /-- APERTURE_ENABLE (R383). -/
  | apertureEnable (t a w : Nat)
  /-- HOLDUP_CONFIG_WRITE (R419). -/
  | holdupConfigWrite (t : Nat) (cfg : Bool) (w : Word)
  /-- ARM_COUNTER_WRITE (R261). -/
  | armCounterWrite (t i : Nat) (w : Word)
  /-- REGISTER_WRITE (R9); v none is a read of BAR0 (R8, R451; log entry 85). -/
  | registerWrite (t a n : Nat) (v : Option Nat) (core : Bool)
  /-- SOURCE_PENDING (R366). -/
  | sourcePending (t n : Nat) (on : Bool)
  /-- CLAIM (R368), and the WFI that may follow one which found no source (R370). -/
  | claim (t : Nat) (x : ClaimArg)
  /-- CORE_EOI (R369). -/
  | coreEoi (t k n : Nat)
  /-- HOST_EOI (R373). -/
  | hostEoi (t v : Nat)
  /-- HP_IDLE_HINT (R372). -/
  | hpIdleHint (t g : Nat) (w : Word)
  /-- MSIX_SEND (R371). -/
  | msixSend (t : Nat)
  /-- MODERATION_TIMER (R372). -/
  | moderationTimer (t v : Nat)
  /-- MSIX_UNMASK (R374): a vector's mask bit cleared, or set. -/
  | msixUnmask (t : Nat) (x : MaskArg)
  /-- BAR2_REQUEST (R384). -/
  | bar2Request (t off : Nat) (data : Option (List Byte)) (n : Nat) (poisoned : Bool)
  /-- MB_SET_OFFSET (R457). -/
  | mbSetOffset (t off : Nat)
  /-- MB_READ_REGISTER (R457). -/
  | mbReadRegister (t : Nat)
  /-- PMB_ALERT (R458). -/
  | pmbAlert (t : Nat) (faults : List Nat)
  /-- PMBUS_POLL (R406). -/
  | pmbusPoll (t i : Nat) (r : Option Poll)
  /-- POWER_ESTIMATE_TICK (R407). -/
  | powerEstimateTick (t seA uj sense : Nat)
  /-- PACING_TICK (R408). -/
  | pacingTick (t p now : Nat)
  /-- THERMAL_EVAL (R412). -/
  | thermalEval (t : Nat) (x : Thermal)
  /-- SPRINT_VOLTAGE_STEP (R411). -/
  | sprintVoltageStep (x : VoltageArg)
  /-- WEAR_SLOT_CHANGE (R415). -/
  | wearSlotChange (t : Nat)
  /-- HEALTH_DECAY (R303). -/
  | healthDecay (t : Nat)
  /-- THERMAL_TRIP (R32). -/
  | thermalTrip (t die : Nat) (x : TripArg)
  /-- PORT_TRAIN_DONE (R179). -/
  | portTrainDone (t n : Nat) (pass : List Nat)
  /-- UNCORRECTABLE_BURST (R180). -/
  | uncorrectableBurst (t n uncorr corr : Nat)
  /-- BLOCK_LOCK_LOSS (R180). -/
  | blockLockLoss (t n lane : Nat)
  /-- DEST_STATE_IDLE (R192). -/
  | destStateIdle (t d : Nat)
  /-- PATH_REROLL (R194). -/
  | pathReroll (t d p : Nat)
  /-- KEY_PHASE_RETIRE (R196). -/
  | keyPhaseRetire (t : Nat)
  /-- LOAD_STORE_RESEND (R221). -/
  | loadStoreResend (t d msn : Nat)
  /-- ATOMIC_RESEND (R221). -/
  | atomicResend (t d msn : Nat)
  /-- ATOMIC_PENDING_RESEND (R225). -/
  | atomicPendingResend (t d msn : Nat)
  /-- DEST_DEAD (R222). -/
  | destDead (t d : Nat)
  /-- DEAD_HOLD_END (R223). -/
  | deadHoldEnd (t d : Nat)
  /-- ATOMIC_CACHE_EVICT (R225). -/
  | atomicCacheEvict (t : Nat)
  /-- QUAD_PROBE (R227). -/
  | quadProbe (t peer rtt : Nat) (hopSame : Bool)
  /-- POWER_ON_RESET (R420). -/
  | powerOnReset (t : Nat)
  /-- PERST_ASSERT (R420). -/
  | perstAssert (t : Nat)
  /-- FATAL_INTERNAL_ERROR (R422). -/
  | fatalInternalError (t code : Nat)
  /-- WATCHDOG_TIMEOUT (R422). -/
  | watchdogTimeout (t : Nat)
  /-- D2D_LINK_STALL (R20). -/
  | d2dLinkStall (t n ns retried : Nat)
  /-- REF_CLOCK_LOSS (R400). -/
  | refClockLoss (t : Nat)
  /-- REF_CLOCK_RETURN (R400). -/
  | refClockReturn (t : Nat)
  /-- RAIL_FAULT (R428). -/
  | railFault (t rail : Nat)
  /-- TAMPER_TRIP (R390). -/
  | tamperTrip (t d : Nat)
  /-- READY (R423). -/
  | ready (t : Nat) (b : BringUp)
  /-- HP_HOT_RESET (R452). -/
  | hpHotReset (t kind : Nat)
  /-- HP_RETURN (R452). -/
  | hpReturn (t rate width : Nat)
  /-- HOST_LOSS (R442). -/
  | hostLoss (t : Nat)
  /-- CXL_LINK_UP (R155). -/
  | cxlLinkUp (t i : Nat) (devices : List Nat) (marker : Option Nat) (rate width : Nat)
  /-- CXL_LINK_DOWN (R157). -/
  | cxlLinkDown (t i : Nat)
  /-- CXL_DEVICE_REMOVED (R456). -/
  | cxlDeviceRemoved (t i d : Nat)
  /-- CXL_READ_TIMEOUT (R456). -/
  | cxlReadTimeout (t n : Nat) (reader : Option (Nat × Nat × Option Nat)) (x : ReadEnd)
  /-- AUX_PERST (R454). -/
  | auxPerst (t n : Nat)
  /-- SHUTTER_DRAIN_EXPIRY (R434). -/
  | shutterDrainExpiry (t : Nat)
  /-- SHUTTER_QP_DRAIN_TIMEOUT (R434). -/
  | shutterQpDrainTimeout (t : Nat)
  /-- SHUTTER_EGRESS_DRAINED (R434). -/
  | shutterEgressDrained (t : Nat)
  /-- TXN_EXPIRED (R358). -/
  | txnExpired (t n : Nat)
  /-- TAP_INSTRUCTION_EXIT (R460). -/
  | tapInstructionExit (t : Nat)
  /-- GET_VERSION (R395). -/
  | getVersion (t bus : Nat)
  /-- GET_CAPABILITIES (R395). -/
  | getCapabilities (t bus : Nat)
  /-- NEGOTIATE_ALGORITHMS (R395). -/
  | negotiateAlgorithms (t bus : Nat)
  /-- GET_DIGESTS (R395). -/
  | getDigests (t bus : Nat)
  /-- GET_CERTIFICATE (R395). -/
  | getCertificate (t bus : Nat)
  /-- CHALLENGE (R395). -/
  | challenge (t bus : Nat) (nonce : List Byte)
  /-- GET_MEASUREMENTS (R395). -/
  | getMeasurements (t bus block : Nat) (nonce : List Byte)
  /-- KEY_EXCHANGE (R395). -/
  | keyExchange (t bus : Nat) (owner : Bool) (share : List Byte)
  /-- FINISH (R395). -/
  | finish (t bus id : Nat)
  /-- KEY_UPDATE (R395). -/
  | keyUpdate (t bus id : Nat)
  /-- HEARTBEAT (R395). -/
  | heartbeat (t bus id : Nat)
  /-- END_SESSION (R395). -/
  | endSession (t bus id : Nat)
  /-- LINK_KEY_STAGE (R396). -/
  | linkKeyStage (t bus id group phase key : Nat)
  /-- LINK_KEY_INSTALL (R396). -/
  | linkKeyInstall (t bus id group : Nat)
  /-- STREAM_PLACE_LOST (R181). -/
  | streamPlaceLost (t n frames : Nat)
  /-- HP_PERST_DEASSERT (R430). -/
  | hpPerstDeassert (t : Nat) (railsGood : Bool)
  /-- D3HOT_ENTRY (R452). -/
  | d3hotEntry (t : Nat)
  /-- CXL_DEVICE_RETURN (R456). -/
  | cxlDeviceReturn (t i d mib : Nat)
  /-- EREFCLK_LOSS (R465). -/
  | erefclkLoss (t io : Nat)
  /-- ADP_COPY_DONE (R140). -/
  | adpCopyDone (t n : Nat) (body : Option (List Byte))
  /-- REPAIR_RECORD_RETRY (R417). -/
  | repairRecordRetry (t : Nat)
  /-- JOURNAL_RECORD_REUSE (R297). -/
  | journalRecordReuse (t : Nat)
  /-- TAMPER_CONDITION_CLEAR (R390). -/
  | tamperConditionClear (t d : Nat)
  /-- FLASH_WRITE_DONE (R418). -/
  | flashWriteDone (t : Nat)
deriving DecidableEq, Repr

end Sys2Proof
end

