-- ==== Sys2Proof/Machine/Codes.lean ====
section
/-! DEFINITION. Status codes (R359), event types (R362), interrupt sources (R365) and fabric message codes by name. -/
namespace Sys2Proof.Machine

def sOk : Nat := 0x0000
def sPending : Nat := 0x0001
def sInvalidOpcode : Nat := 0x0010
def sInvalidParam : Nat := 0x0011
def sInvalidFormat : Nat := 0x0012
def sInvalidContext : Nat := 0x0013
def sNoFit : Nat := 0x0020
def sNoPage : Nat := 0x0021
def sReserveStarved : Nat := 0x0022
def sLengthLimit : Nat := 0x0023
def sOwnershipFault : Nat := 0x0030
def sStaleEpoch : Nat := 0x0031
def sTargetDead : Nat := 0x0032
def sAtomicUnknown : Nat := 0x0033
def sPaneLost : Nat := 0x0034
def sLostState : Nat := 0x0035
def sFlushed : Nat := 0x0036
def sRetryExceeded : Nat := 0x0037
def sRemoteAccess : Nat := 0x0038
def sRemoteOp : Nat := 0x0039
def sDeadlinePassed : Nat := 0x003A
def sHingeReverted : Nat := 0x003B
def sRolledBack : Nat := 0x003C
def sTxnConflict : Nat := 0x0040
def sTxnAborted : Nat := 0x0041
def sTxnTimeout : Nat := 0x0042
def sTxnLimit : Nat := 0x0043
def sHoldup : Nat := 0x0050
def sShutterClosed : Nat := 0x0060
def sRoleLocked : Nat := 0x0061
def sContextFault : Nat := 0x0070
def sSlotDeferred : Nat := 0x0071
def sTierFailed : Nat := 0x0080
def sExpired : Nat := 0x0081
def sMaskEmpty : Nat := 0x0082
def sCancelled : Nat := 0x0083
def sSprintDenied : Nat := 0x0090

/-- Event types of R362. -/
def evPredictive : Nat := 0x0001
def evTimeUnlocked : Nat := 0x0002
def evTimeLocked : Nat := 0x0003
def evSprintEnd : Nat := 0x0004
def evRebuildDone : Nat := 0x0005
def evTxnExpired : Nat := 0x0006
def evShutterChanged : Nat := 0x0007
def evEventsLost : Nat := 0x0008
def evContextFaulted : Nat := 0x0010
def evStepOverrun : Nat := 0x0011
def evQpError : Nat := 0x0012
def evQpDrained : Nat := 0x0013
def evTargetDead : Nat := 0x0014
def evImgReady : Nat := 0x0015
def evImgFailed : Nat := 0x0016
def evRegionGained : Nat := 0x0017
def evRegionLost : Nat := 0x0018
def evRegionOrphaned : Nat := 0x0019
def evSeqEnd : Nat := 0x0020
def evSeqPaused : Nat := 0x0021
def evPauseDone : Nat := 0x0022
def evResumeReady : Nat := 0x0023
def evReserveStarved : Nat := 0x0024
def evLatchGained : Nat := 0x0025
def evLatchLost : Nat := 0x0026
def evLatchOrphaned : Nat := 0x0027
def evAdmitFailed : Nat := 0x0028
def evPaneDegraded : Nat := 0x0029
def evSeqLost : Nat := 0x002A

/-- Event source of the device as a whole (R361). -/
def srcDevice : Nat := 0
/-- Event source of context c's faults, queue pairs, steps, images and regions (R361). -/
def srcContext (c : Nat) : Nat := 0x100 + c
/-- Event source of the sequences of context c (R361). -/
def srcSequence (c : Nat) : Nat := 0x200 + c

/-- Interrupt sources of R365. -/
def irqReply (q : Nat) : Nat := q
def irqEvent (e : Nat) : Nat := 0x100 + e
def irqMc (n : Nat) : Nat := 0x1E8 + n
def irqPort (n : Nat) : Nat := 0x200 + n
def irqD2d (n : Nat) : Nat := 0x218 + n
def irqGlErr : Nat := 0x22D
def irqPgErr : Nat := 0x22E
def irqAttnErr : Nat := 0x22F
def irqTime : Nat := 0x230
def irqPps : Nat := 0x231
def irqHot : Nat := 0x232
def irqSprintEnd : Nat := 0x233
def irqHoldup : Nat := 0x234
/-- Link state of HP, T2P, AUX0 or AUX1 changed; p = 0 to 3. -/
def irqLink (p : Nat) : Nat := 0x235 + p
def irqHealth : Nat := 0x239

/-- Frames of the device (R1). -/
def numFrames : Nat := 25165824
/-- Bytes of a frame's payload (R1). -/
def frameBytes : Nat := 65536
/-- Tokens a sequence may hold (R1). -/
def maxLength : Nat := 4194304
/-- Bytes of a tier-2 slot (R49). -/
def slotBytes : Nat := 65792
/-- Slots of the 4 TiB tier-2 window (R49). -/
def maxSlots : Nat := 66847740
/-- Base of the tier-2 window (R22). -/
def tier2Base : Nat := 0x040000000000
/-- Base of the staging SRAM of an SE die (R22). -/
def sramBase (die : Nat) : Nat := if die = 0 then 0x020000000000 else 0x020008000000
/-- Bytes of staging SRAM per SE die (R1). -/
def sramBytes : Nat := 134217728

end Sys2Proof.Machine
end

