-- ==== Sys2Proof/Machine/Memory.lean ====
section
/-! DEFINITION. The controller's memory: the 44-bit local address space of R22 as a canonical list of (address, byte)
pairs, addresses strictly rising, no listed byte equal to what an unlisted address reads as. -/
namespace Sys2Proof.Machine

/-- What an address that nothing has written reads as (assumption log, entry 4: DESIGN CHOICE, unsafe). -/
def unlistedByte : Byte := 0

/-- The byte at an address. -/
def readByte : List Host.Cell → Nat → Byte
  | [], _ => unlistedByte
  | (k, v) :: t, a => if a = k then v else readByte t a

/-- Write a byte, keeping the canonical form: writing unlistedByte removes the entry. -/
def writeByte : List Host.Cell → Nat → Byte → List Host.Cell
  | [], a, b => if b = unlistedByte then [] else [(a, b)]
  | (k, v) :: t, a, b =>
    if a < k then (if b = unlistedByte then (k, v) :: t else (a, b) :: (k, v) :: t)
    else if a = k then (if b = unlistedByte then t else (a, b) :: t)
    else (k, v) :: writeByte t a b

/-- n bytes from an address. -/
def readBytes (m : List Host.Cell) (a : Nat) : Nat → List Byte
  | 0 => []
  | n + 1 => readByte m a :: readBytes m (a + 1) n

/-- Write bytes from an address upward. -/
def writeBytes (m : List Host.Cell) (a : Nat) : List Byte → List Host.Cell
  | [] => m
  | b :: bs => writeBytes (writeByte m a b) (a + 1) bs

/-- Zero n bytes from an address: drop every listed byte of the range. -/
def zeroBytes (m : List Host.Cell) (a n : Nat) : List Host.Cell :=
  m.filter fun c => c.1 < a || a + n ≤ c.1

/-- The listed bytes of a range, moved to another address: what a copy of n bytes writes. -/
def copyBytes (m : List Host.Cell) (src dst n : Nat) : List Host.Cell :=
  (m.filter fun c => src ≤ c.1 && c.1 < src + n).foldl (fun m c => writeByte m (dst + (c.1 - src)) c.2)
    (zeroBytes m dst n)

/-- Addresses strictly rising and no entry equal to unlistedByte. -/
def memWf : List Host.Cell → Bool
  | [] => true
  | [(_, v)] => v != unlistedByte
  | (a, v) :: (b, w) :: t => v != unlistedByte && decide (a < b) && memWf ((b, w) :: t)

/-- The parts of the local address space (R22). -/
inductive Region where
  | stack (s : Nat)
  | sram (die : Nat)
  | tier2
  | reserved
deriving DecidableEq, Repr

/-- Which part of the local address space an address lies in (R22). -/
def regionOf (a : Nat) : Region :=
  if a < 0x018000000000 then .stack (a / 0x1000000000)
  else if a < 0x020000000000 then .reserved
  else if a < 0x020000000000 + sramBytes then .sram 0
  else if a < 0x020008000000 + sramBytes then .sram 1
  else if a < tier2Base then .reserved
  else if a < tier2Base + 0x040000000000 then .tier2
  else .reserved

/-- Local address of a frame's payload (R23). -/
def frameAddr (f : Nat) : Nat := f * 0x10000

/-- The stack that holds a frame (R23). -/
def frameStack (f : Nat) : Nat := f / 0x100000

end Sys2Proof.Machine
end

