-- ==== Sys2Proof/Config.lean ====
section
/-! DEFINITION. What one part fixes (fuses, straps, identity) and the values the manual leaves open: constants with
no body, so that nothing proved in this model can rest on a value of theirs. -/
namespace Sys2Proof.Config

/-- Free values: where the manual states an effect but not the value, the step takes freeValue of a counter of the
State that it advances. See the assumption log, entry 3. -/
opaque freeValue : Nat → Word

/-- SC_DEVICE_ID, fused (R399, mark F of R470). -/
opaque deviceId : Word

/-- SC_LC at reset: lifecycle state and fuse fields (R391, mark F of R470). -/
opaque lifecycleFuses : Word

/-- PM_VSE at reset: the fused VDD_SE setpoints (R28, mark F of R470). -/
opaque vseFuses : Word

/-- FW_VERSION reported by IDENTIFY (R355) and fixed by the firmware image. -/
opaque fwVersion : Word

/-- GL_STRAP: the straps sampled at reset (R448, mark S of R470). -/
opaque straps : Word

/-- ECDSA P-384 verification (R392–R394): key, message, signature. -/
opaque ecdsaVerify : List Byte → List Byte → List Byte → Bool

/-- ECDSA P-384 signature by the identity key (R395). -/
opaque ecdsaSign : List Byte → List Byte

/-- SHA-384 (R394, R395). -/
opaque sha384 : List Byte → List Byte

/-- AES-256-GCM opening: key id, nonce, associated data, ciphertext with tag; none when the tag does not verify (R195). -/
opaque gcmOpen : Nat → Nat → List Byte → List Byte → Option (List Byte)

/-- AES-256-GCM sealing (R195). -/
opaque gcmSeal : Nat → Nat → List Byte → List Byte → List Byte

/-- Whether this controller takes the region at a fabric address, homed elsewhere, to be COHERENT: the manual does not
say how a quad member learns a remote region's mode (R228, R230). -/
opaque coherentKnown : Nat → Bool

/-- Whether the cell manager takes a member to have LT_CTRL.HOME_EN set: no message of R276 tells it. -/
opaque homeEnKnown : Nat → Bool

/-- Whether the cell manager takes a spare to have LT_CTRL.REBUILD_EN set. -/
opaque rebuildEnKnown : Nat → Bool

/-- The counter-based generator of stochastic rounding (R76): seed, output tensor number, step number, element index. -/
opaque srandom : Nat → Nat → Nat → Nat → Nat

/-- Certificate chain of the identity key in a lifecycle state (R391, R395). -/
opaque certChain : Nat → List Byte

/-- Measurement blocks 1 and 2: boot ROM version and firmware digest (R395). -/
opaque bootRomVersion : List Byte
opaque firmwareDigest : List Byte

/-- Measurement block 5 when a secure-access policy is loaded (R395). -/
opaque policyDigest : List Byte

/-- The fused vendor key hash, and the owner hash the fuses hold as the device is delivered (R392). -/
opaque vendorHash : List Byte
opaque ownerHash : List Byte

/-- The sine or cosine a ROPE tile uses for a base, a position and a pair of a head of hd elements: the manual gives no formula (log entry
47). -/
opaque ropeWave (sine : Bool) (theta pos i hd : Nat) : BitVec 32

end Sys2Proof.Config
end

