-- ==== Sys2Proof/Machine/RecGlobal.lean ====
section
/-! DEFINITION. Records of configuration flash and hold-up, power and sprint, reset and the Shutter, security, host and
tier-2 links and pins (files 02, 15, 16, 17 and 18). -/
namespace Sys2Proof.Machine

/-- A write to configuration flash (R417): a journal checkpoint (boot count, an operation's STARTED or end record, an
applied transaction's commands), the wear slots, a stack row, the security version, the trip record, the hold-up
registers, the lifecycle state with the token's OWNER_HASH. -/
inductive FlashItem where
  | boot (n : Nat)
  | started (op : Nat) (r : JrRec)
  | ended (op : Nat) (r : JrRec)
  | txn (op : Nat) (r : JrRec) (cmds : List (Nat × Cmd))
  | wear (slots : List Nat) (slot : Nat)
  | repair (stack row : Nat)
  | svn (n : Nat)
  | trip (die sensor temp : Nat)
  | holdup (req cfg : Word)
  | lifecycle (st : Nat) (owner : List Byte)
deriving DecidableEq, Repr

/-- Configuration flash and the hold-up bank: the write running and those waiting, what is stored, row repairs refused and
waiting for a retry, the latest HOLDUP_SENSE sample and READ_VCAP values in mV. -/
structure FlashS where
  busy : Option FlashItem
  queue : List FlashItem
  boot : Nat
  jr : NTable JrRec
  txns : List (Nat × List (Nat × Cmd))
  wear : List Nat × Nat
  repairs : List (Nat × Nat)
  trip : Option (Nat × Nat × Nat)
  holdup : Option (Word × Word)
  retry : List (Nat × Nat)
  retryAt : Nat
  sense : Nat
  vcap : NTable Nat
deriving DecidableEq, Repr

/-- Sprint and power (R405–R415). target is VDD_SE's setpoint in mV and stepAt when it last moved; asks the
SPRINT_REQUESTs waiting for their boundary, with MAX_MS; maxMs the MAX_MS in force (0 none) and maxFrom when it started
counting; cause the ending cause once reached; rearm that a thermal end still bars sprint; slots the residency in ns of
the 97 slots, slot the current one and slotAt its start, expired what slots that ended during sprint held; resAt when
residency was last added; excursions the times of R407; thermLimit the limit of R409 while it paces; overAt since when
VDD_SE is above its rating; polls the consecutive good polls of each regulator; hotSince since when a die is at or above
100 °C. -/
structure PowerS where
  target : Nat
  stepAt : Nat
  asks : List (Nat × Nat)
  maxMs : Nat
  maxFrom : Nat
  cause : Option Nat
  rearm : Bool
  slots : List Nat
  slot : Nat
  slotAt : Nat
  expired : Nat
  resAt : Nat
  excursions : List Nat
  thermLimit : Option Nat
  overAt : Option Nat
  polls : NTable Nat
  hotSince : NTable Nat
  pacedUs : Nat
  stopTiles : Bool
  energyUj : Nat
deriving DecidableEq, Repr

/-- Every unit, in the keys of SleepS: a reset leaves them power-gated (R89, R145, R266: STATUS.POWER is 0). -/
def unitKeys : List Nat :=
  List.range 64 ++ (List.range 64).map (· + 256) ++ (List.range 16).map (· + 512) ++ (List.range 24).map (· + 768)

/-- Sleep (R382, R401, R402): when each unit last had work and when each die's units were all gated, the gated units, what
is waking and when it is ready, and stopped engine PLLs. Units are keyed by class × 2^8 +
number (0 TE, 1 XE, 2 TU, 3 CU), PLLs by die, banks by number. -/
structure SleepS where
  lastWork : NTable Nat
  gated : List Nat
  waking : NTable Nat
  pllIdle : NTable Nat
  plls : List Nat
  pllWake : NTable Nat
  bankWake : NTable Nat
deriving DecidableEq, Repr

/-- A close in progress (R434): step 1 to 8, time DRAIN_MS passes, whether it has, the open SHUTTER_CLOSE commands, and the
times steps 5 and 7 began; Latches handed off and released. -/
structure CloseS where
  step : Nat
  drainAt : Nat
  drained : Bool
  cmds : List Nat
  step5At : Nat
  step7At : Nat
  offers : List Obj
  todo : List Obj
  promoting : List Nat
  handed : Nat
  released : Nat
deriving DecidableEq, Repr

/-- The host port's link and configuration state (R451, R452). -/
inductive LinkState where
  | down | training | l0 | d3hot | disabled
deriving DecidableEq, Repr

/-- A CXL port (R155, R157, R455, R456): the marker written at the base of its range, the MiB of its devices in enumeration
order, and the devices that are gone, by position. -/
structure CxlS where
  marker : Option Nat
  devices : List Nat
  gone : List Nat
deriving DecidableEq, Repr

/-- A session of the responder (R395): whether FINISH completed it, whether its requester authenticated with a
certificate chaining to the owner key (R396), and the keys it has gone through. -/
structure SpdmSess where
  finished : Bool
  owner : Bool
  keys : Nat
deriving DecidableEq, Repr

/-- Why the responder answers ERROR. -/
inductive SpdmErr where
  | busy | unexpectedRequest
deriving DecidableEq, Repr

/-- A response of the responder (R395, R396). -/
inductive SpdmOut where
  | version | capabilities | algorithms | digests (d : List Byte) | certificate (b : List Byte)
  | challengeAuth (sig : List Byte) | measurements (ms : List (Nat × List Byte)) (sig : List Byte)
  | keyExchangeRsp (session : Nat) (sig : List Byte) | finishRsp | keyUpdateAck | heartbeatAck | endSessionAck
  | vendorOk | error (e : SpdmErr)
deriving DecidableEq, Repr

/-- Security (R388–R399): tamper conditions that hold, whether the Deadbolt is in use, SPDM
sessions, responses sent (newest first, with the bus: 0 DOE, 1 MCTP), whether a lifecycle transition
waits for a cold reset, whether a policy is loaded, and the fused owner hash. -/
structure SecS where
  conditions : List Nat
  deadbolt : Bool
  sessions : NTable SpdmSess
  sessCtr : Nat
  out : List (Nat × SpdmOut)
  lcPending : Bool
  policy : Bool
  ownerHash : List Byte
deriving DecidableEq, Repr

/-- What UART_TX carried (R461): the reset-cause line of a reset (GL_RESET_CAUSE), boot progress (0 a reset begins, 1 warm, 2 cold
bring-up is over), and firmware console output, whose text the manual does not give: a free value. -/
inductive UartLine where
  | resetCause (w : Word)
  | progress (step : Nat)
  | console (w : Word)
deriving DecidableEq, Repr

/-- The console (R461): lines sent, newest first, and the input accepted, oldest first. -/
structure UartS where
  tx : List UartLine
  rx : List Byte
deriving DecidableEq, Repr

/-- Phases of the controller's life (R420–R431): 1 a reset and bring-up, 2 running, 3 stopped with its fast clocks down
(reference lost, thermal trip, reset storm, no image). warm tells whether the last reset was a warm one,
resetAt when it was triggered, fatals the times of warm resets nobody asked for (R422). hpOutAt is when HP left L0 and hpWiped
whether its configuration space went to defaults (R452). mbOffset and mbOut are the management bus: the offset written and what
reads answered, newest first (R457); predictAt the last PREDICTIVE event it has not read. pins lists contacts driven low: 0
THERM_TRIP_N. perst tells that HP_PERST_N is asserted. -/
structure GlobalS where
  close : CloseS
  hp : LinkState
  hpOutAt : Option Nat
  cxl : List CxlS
  flash : FlashS
  power : PowerS
  sleep : SleepS
  sec : SecS
  phase : Nat
  warm : Bool
  resetAt : Nat
  fatals : List Nat
  hpWiped : Bool
  mbOffset : Option Nat
  mbOut : List (Nat × Word)
  predictAt : Option Nat
  perst : Bool
  pins : List Nat
  scrubAt : NTable Nat
  rowErrs : NTable Nat
  uart : UartS
deriving DecidableEq, Repr

end Sys2Proof.Machine
end

