-- ==== Sys2Proof/Machine/RecHost.lean ====
section
/-! DEFINITION. Records of the host interface: rings, replies, events, transactions, deferred changes and the
interrupt controller (files 13 and 14 of the spec). -/
namespace Sys2Proof.Machine

/-- A reply entry's fields (R342), PHASE and SQ_HEAD aside. -/
structure Reply where
  tag : Nat
  status : Nat
  detail : Nat
  opcode : Nat
  result0 : Nat
  result1 : Nat
deriving DecidableEq, Repr

/-- An event entry's fields (R360), PHASE aside. -/
structure Event where
  source : Nat
  seqno : Nat
  type : Nat
  context : Nat
  status : Nat
  arg0 : Nat
  time : Nat
  arg1 : Nat
deriving DecidableEq, Repr

/-- What the controller wrote over HP: the 32 B of a reply or event entry at an index of its ring or queue, data at a host
address, an MSI-X message, or
the completion of a request to a BAR (none: Unsupported Request). -/
inductive HostOut where
  | reply (ring index : Nat) (bytes : List Byte)
  | event (eq index : Nat) (bytes : List Byte)
  | data (addr : Nat) (bytes : List Byte)
  | msix (vector : Nat)
  | completion (bytes : Option (List Byte))
deriving DecidableEq, Repr

/-- One ring pair (R337–R339). gen counts the times ENABLE was set: a reply of a command taken under an earlier gen is
discarded (R364). Indexes count modulo 2^32. -/
structure RingS where
  gen : Nat
  sqHead : Nat
  sqTail : Nat
  cqHead : Nat
  cqTail : Nat
  doorbell : Bool
  access : Bool
  stopped : Bool
deriving DecidableEq, Repr

/-- An event queue's indexes, held events and count of lost events (R363). -/
structure EqS where
  head : Nat
  tail : Nat
  held : List Event
  lost : Nat
  lostReport : Nat
deriving DecidableEq, Repr

/-- What a taken command that has not written its final reply is waiting for. -/
inductive Wait where
  | none
  | boundary
  | latchQuery (req : Nat)
  | admission (seq : Nat)
  | fork (seq : Nat)
  | pause (seq : Nat)
  | resume (seq : Nat)
  | step (id : Nat)
  | planIdle (plan : Nat)
  | image (id : Nat)
  | adapter (slot : Nat)
  | connect (qp : Nat)
  | windowGuard (win : Nat)
  | recallOp (region : Nat)
  | latch (req : Nat)
  | offer (obj : Nat)
  | teardown (ctx : Nat)
  | sprint
  | shutter
  | journal (op : Nat)
deriving DecidableEq, Repr

/-- A command taken from a ring that has not yet written its final reply (R339, R343). -/
structure OpenCmd where
  id : Nat
  gen : Nat
  opcode : Nat
  cmd : Cmd
  pended : Bool
  wait : Wait
deriving DecidableEq, Repr

/-- A configuration transaction (R356). status 0 open, 1 commit taken. beganAt is the value of the change counter at
TXN_BEGIN; commitId the open TXN_COMMIT. -/
structure Txn where
  ring : Nat
  opened : Nat
  beganAt : Nat
  staged : List (Nat × Cmd)
  committing : Bool
  commitId : Nat
deriving DecidableEq, Repr

/-- A transaction that ended without commit: 1 timed out, 2 aborted (R356, R358). -/
structure TxnEnd where
  ring : Nat
  how : Nat
deriving DecidableEq, Repr

/-- The steps a change concerns (R345). -/
inductive Scope where
  | sequence (id : Nat)
  | context (c : Nat)
  | device
deriving DecidableEq, Repr

/-- A change accepted and waiting for the next step boundary (R345). -/
inductive BAct where
  | setMode (mode : Nat)
  | setShare (c : Cmd)
  | setTierPolicy (c : Cmd)
  | setPowerCap (w : Nat)
  | commit (txn : Nat)
  | sprintBegin (id : Nat)
  | sprintEnd (cause : Nat)
  | fork (id : Nat)
  | pause (seq : Nat)
  | cancelSeq (seq : Nat)
  | endSeq (seq status : Nat)
  | adapterSwitch (id : Nat)
  | hingeOffer (id : Nat)
  | tailSwitch (stripe : Nat)
deriving DecidableEq, Repr

/-- A deferred change and the running steps it still waits for: it applies at the boundary of the first of them. -/
structure Deferred where
  scope : Scope
  act : BAct
deriving DecidableEq, Repr

/-- Rings, event queues, transactions and what was written to the host. -/
structure HostS where
  rings : NTable RingS
  eqs : NTable EqS
  seqnos : NTable Nat
  opens : List OpenCmd
  cmdCtr : Nat
  txns : NTable Txn
  txnEnds : NTable TxnEnd
  changes : NTable Nat
  changeCtr : Nat
  deferred : List Deferred
  out : List HostOut
deriving DecidableEq, Repr

/-- Per-vector MSI-X moderation (R372): requests counted, time of the first, hold time elapsed. -/
structure VecS where
  count : Nat
  firstAt : Nat
  timedOut : Bool
deriving DecidableEq, Repr

/-- The interrupt controller: pending bits of both routes (R366), asserted level conditions, active groups of each
core as (group, source) pairs with the top first (R368), cores in WFI (R370), moderation, unmasked MSI-X vectors and
the pending-bit array (R374), and the conditions of level sources that no register holds. -/
structure IntrS where
  hostPend : List Nat
  corePend : List Nat
  asserted : List Nat
  levels : List Nat
  active : NTable (List (Nat × Nat))
  wfi : List Nat
  vecs : NTable VecS
  unmasked : List Nat
  pba : List Nat
deriving DecidableEq, Repr

end Sys2Proof.Machine
end

