-- ==== Sys2Proof/Machine/RecShare.lean ====
section
/-! DEFINITION. Records of contexts, shares and Louvre (file 12). -/
namespace Sys2Proof.Machine

/-- A token bucket: content in bytes × 1,000 and the time it was last refilled (R326, R328). -/
structure Bucket where
  level : Nat
  at_ : Nat
deriving DecidableEq, Repr

/-- Work ready or running on a unit class for a context (R317): a tile, a message, token or codec work. -/
structure Work where
  cls : Nat
  die : Nat
  ctx : Nat
  step : Nat
  stage : Nat
  item : Nat
  ns : Nat
deriving DecidableEq, Repr

/-- Composition meters (R331). -/
structure CompMeter where
  heldNs : Nat
  engineNs : Nat
deriving DecidableEq, Repr

/-- A frame waiting in an egress queue (R326): class, context charged, frame bytes, packet, and the sender's record of
it when it is windowed. -/
structure EgFrame where
  cls : Nat
  ctx : Nat
  bytes : Nat
  pkt : Pkt
  tx : Option Nat
  transit : Option (List Byte)
deriving DecidableEq, Repr

/-- Deficit-round-robin state of one port (R326). -/
structure DrrS where
  queue : List EgFrame
  deficit : NTable Nat
  started : List Nat
  ring : Nat
deriving DecidableEq, Repr

/-- A context fault found during a command (R313): context, cause, unit, class, address. The end of the command starts
the teardown. -/
structure CtxFault where
  ctx : Nat
  cause : Nat
  unit : Nat
  cls : Nat
  addr : Nat
deriving DecidableEq, Repr

/-- Live accumulators of a tile engine (R86): the step whose they are, and the KiB its plan declares. -/
structure LiveAcc where
  step : Nat
  kib : Nat
deriving DecidableEq, Repr

/-- Work a unit has taken: when it ends, and its operation code (R89, R145). -/
structure UnitRun where
  ends : Nat
  op : Nat
deriving DecidableEq, Repr

/-- Virtual times, ready work, buckets and meters. vt is keyed by class × 2^12 + die × 2^8 + context. ppsOut is the whole second of the
PPS output's last rising edge (R200). teLive holds the accumulators live on each engine, teSaved those saved for a context, keyed by
context × 64 + engine (R86); runs the last work of each unit. sramAt is the last
time something ran that keeps the SRAM awake (R382); bankAt and stackAt are each bank's and each stack's last access (R382, R404). -/
structure ShareS where
  faults : List CtxFault
  vt : NTable Nat
  work : List Work
  shape : NTable Bucket
  ctxBucket : NTable Bucket
  polC : NTable Bucket
  polP : NTable Bucket
  drr : NTable DrrS
  comps : NTable CompMeter
  ppsOut : Nat
  teLive : NTable LiveAcc
  teSaved : NTable LiveAcc
  runs : NTable UnitRun
  sramAt : Nat
  bankAt : NTable Nat
  stackAt : NTable Nat
deriving DecidableEq, Repr

end Sys2Proof.Machine
end

