-- ==== Sys2Proof/Machine/RecStep.lean ====
section
/-! DEFINITION. Records of plans, steps, slots, panes, images, adapters and grammars (files 05, 06 and 13). -/
namespace Sys2Proof.Machine

/-- A stage of a plan (R348): its descriptor and body bytes. -/
structure Stage where
  kind : Nat
  teFirst : Nat
  teCount : Nat
  imageId : Nat
  sr : Bool
  items : Nat
  waitCtr : Nat
  cumWcet : Nat
  waitDelta : Nat
  body : List Byte
deriving DecidableEq, Repr

/-- A loaded plan (R347). logitFmt is a format code. -/
structure Plan where
  ctx : Nat
  kind : Nat
  priority : Nat
  slots : Nat
  vocab : Nat
  logitFmt : Nat
  wcet : Nat
  tierDeadline : Nat
  fTe : Nat
  fXe : Nat
  fTu : Nat
  fCu : Nat
  logitBase : Nat
  logitBytes : Nat
  stops : List Nat
  stages : List Stage
  frames : List Nat
  unloading : Bool
deriving DecidableEq, Repr

/-- A softmax triple of one query row and head (R91): FP32 codes. -/
structure Trip where
  m : Nat
  l : Nat
  o : List Nat
deriving DecidableEq, Repr

/-- An outstanding or arrived pane of a slot's attention stage (R100–R114): the holder asked, the query rows it covers
(first row and count), whether it is a substitute for a missing holder with its rank, its ranges, deadline, issue time
and window. st: 0 outstanding, 1 arrived, 2 missing. -/
structure Pane where
  step : Nat
  slot : Nat
  stage : Nat
  layer : Nat
  layers : Nat
  row0 : Nat
  rows : Nat
  holder : Nat
  degraded : Bool
  missing : Nat
  rank : Nat
  count : Nat
  ranges : List (Nat × Nat × Nat)
  deadline : Nat
  issued : Nat
  win : Nat
  st : Nat
  trips : List Trip
deriving DecidableEq, Repr

/-- A unit of attention work (R106): of a step's slot, the layer (counted from the stage's or request's first), the ranges of split positions
it takes (split 0: a short sequence, every page), query rows, query heads, and its triples by row and head, none before it has run. -/
structure AttnUnit where
  slot : Nat
  layer : Nat
  split : Nat
  ranges : List Nat
  row0 : Nat
  rows : Nat
  head0 : Nat
  heads : Nat
  trips : List Trip
deriving DecidableEq, Repr

/-- A pane request a holder is computing (R102, R103): the requester's bytes, the KV heads, the division and the INT8 scales it names, the
holdings resolved, those still waiting for a lease (R43), the frames leased for it, and reconstructed pages; its units of work, whether they
are queued, and when its tier-2 reads were issued (R162). -/
structure PaneJob where
  id : Nat
  src : Nat
  req : List Byte
  kvHeads : Nat
  split : Nat
  scales : List Nat
  pages : List Holding
  wait : List Holding
  leases : List Nat
  copies : List PageCopy
  units : List AttnUnit
  queued : Bool
  readAt : Nat
deriving DecidableEq, Repr

/-- A slot of a step (R352, R353). run 0 does no work (empty or padded), 1 runs, 2 has ended in this step. rec is the
choice record; draft holds the proposed tokens with their distributions; frames the extra frames taken at step start; gate the
drafts permitted; tu the token unit that worked on it; failed the members its stripe group marked FAILED at step start (R111); readAt when
the tier-2 reads of its current stage were issued (R162); choice the choice state before the step (R124). -/
structure SlotRun where
  seq : Nat
  run : Nat
  deferrable : Bool
  deferred : Bool
  rec_ : List Byte
  status : Nat
  detail : Nat
  detail1 : Nat
  tokens : List Nat
  ended : Bool
  endStatus : Nat
  length : Nat
  kv : Nat
  rows : Nat
  draft : List (Nat × List (Nat × Nat))
  accepted : Nat
  logged : Bool
  frames : List Nat
  gate : Nat
  tu : Nat
  failed : List Nat
  readAt : Nat
  choice : Choice
deriving DecidableEq, Repr

/-- A step (R344): queued or running, with the settings it latched at dispatch. ctrs holds the context's counters at
dispatch; units the attention work of the current stage on this controller, by the item number of its work. -/
structure Step where
  cmd : Nat
  plan : Nat
  ctx : Nat
  running : Bool
  startAt : Nat
  stage : Nat
  slots : List SlotRun
  ctrs : List Nat
  numctl : Nat
  srseed : Nat
  atRisk : Bool
  overrun : Bool
  units : List AttnUnit
deriving DecidableEq, Repr

/-- A model image (R135–R137): state 0 LOADING, 1 VERIFYING, 2 RESIDENT. -/
structure Image where
  ctx : Nat
  st : Nat
  header : List Byte
  frames : List Nat
  sramBytes : Nat
  cmd : Nat
  kvFormat : Nat
  layers : Nat
  kvHeads : Nat
  hpp : Nat
  headDim : Nat
  program : List Byte
  fabric : Bool
  slots : List Nat
deriving DecidableEq, Repr

/-- An adapter slot (R140–R143). run is the BAR2 entry run (first, count) of a HOST_SERVED adapter. -/
structure Adapter where
  ctx : Nat
  id : Nat
  version : Nat
  image : Nat
  hostServed : Bool
  bytes : Nat
  crc : Nat
  frames : List Nat
  run : Nat × Nat
  pins : Nat
  loaded : Bool
  replace : Bool
  pendingSwitch : Bool
  unloadAfter : Bool
  cmd : Nat
  fabric : Bool
  slots : List Nat
deriving DecidableEq, Repr

/-- A resident grammar (R125). -/
structure Grammar where
  ctx : Nat
  table : List Byte
  frames : List Nat
deriving DecidableEq, Repr

/-- Plans, steps, panes, images, adapters and grammars. current maps context × 2^16 + adapter ID to its slot. passes
holds the FP32 output rows of attention passes that another may continue (R99), keyed by context × 2^44 + output address; accs
the accumulators a step left (R79); teImage the image each engine last ran (R138); counted holds the steps running at the last counted boundary (R346). -/
structure StepS where
  plans : NTable Plan
  steps : NTable Step
  stepCtr : Nat
  panes : NTable Pane
  paneCtr : Nat
  jobs : List PaneJob
  jobCtr : Nat
  accs : NTable (List Nat)
  passes : NTable (List Nat)
  images : NTable Image
  adapters : NTable Adapter
  current : NTable Nat
  grammars : NTable Grammar
  teImage : NTable Nat
  counted : List Nat
deriving DecidableEq, Repr

end Sys2Proof.Machine
end

