-- ==== Sys2Proof/Machine/Bits.lean ====
section
/-! DEFINITION. Bit fields, byte order and the cyclic redundancy checks the manual uses (R6, R39, R181–R183). -/
namespace Sys2Proof.Machine

/-- Bits [hi:lo] of a number (R6: bit 0 is the least significant bit). -/
def bits (w hi lo : Nat) : Nat := (w >>> lo) % 2 ^ (hi + 1 - lo)

/-- Bit n of a number, as a Bool. -/
def bit (w n : Nat) : Bool := (w >>> n) % 2 == 1

/-- A number with bits [hi:lo] replaced by the low bits of v. -/
def setBits (w hi lo v : Nat) : Nat :=
  w - (bits w hi lo) * 2 ^ lo + (v % 2 ^ (hi + 1 - lo)) * 2 ^ lo

/-- Field [hi:lo] of a word. -/
def fld (w : Word) (hi lo : Nat) : Nat := bits w.toNat hi lo

/-- Bit n of a word. -/
def wbit (w : Word) (n : Nat) : Bool := bit w.toNat n

/-- A word with field [hi:lo] replaced. -/
def setFld (w : Word) (hi lo v : Nat) : Word := word (setBits w.toNat hi lo v)

/-- 1 for true, 0 for false. -/
def b2n (b : Bool) : Nat := if b then 1 else 0

/-- Ceiling division. -/
def cdiv (a b : Nat) : Nat := (a + b - 1) / b

/-- The low k bytes of n, least significant first (R6). -/
def toLE (k n : Nat) : List Byte :=
  match k with
  | 0 => []
  | k + 1 => byte n :: toLE k (n / 256)

/-- The number whose little-endian bytes are given (R6). -/
def ofLE : List Byte → Nat
  | [] => 0
  | b :: bs => b.toNat + 256 * ofLE bs

/-- n bytes of a list from an offset; short lists are padded with zero bytes. -/
def slice (bs : List Byte) (off n : Nat) : List Byte :=
  let r := (bs.drop off).take n
  r ++ List.replicate (n - r.length) 0

/-- The little-endian number in n bytes at an offset. -/
def leAt (bs : List Byte) (off n : Nat) : Nat := ofLE (slice bs off n)

/-- The 64-bit little-endian word at an offset. -/
def w64At (bs : List Byte) (off : Nat) : Nat := leAt bs off 8

/-- Signed value of a w-bit two's-complement number. -/
def signed (w n : Nat) : Int :=
  let m := n % 2 ^ w
  if m < 2 ^ (w - 1) then (m : Int) else (m : Int) - (2 ^ w : Nat)

/-- The w-bit two's-complement code of an integer. -/
def unsigned (w : Nat) (i : Int) : Nat := (i % ((2 ^ w : Nat) : Int)).toNat

/-- One bit step of a reflected CRC with the given reversed polynomial. -/
def crcBit (poly c : Nat) : Nat := if c % 2 == 1 then (c / 2) ^^^ poly else c / 2

/-- One byte of a reflected CRC. -/
def crcByte (poly c : Nat) (b : Byte) : Nat :=
  (List.replicate 8 ()).foldl (fun c _ => crcBit poly c) (c ^^^ b.toNat)

/-- CRC-32C (Castagnoli) of a byte list: initial and final value all ones. -/
def crc32c (bs : List Byte) : Nat :=
  (bs.foldl (crcByte 0x82F63B78) 0xFFFFFFFF) ^^^ 0xFFFFFFFF

/-- One byte of an MSB-first CRC-8 with polynomial p. -/
def crc8Byte (p c : Nat) (b : Byte) : Nat :=
  (List.replicate 8 ()).foldl
    (fun c _ => if c ≥ 128 then ((c * 2) % 256) ^^^ p else (c * 2) % 256) (c ^^^ b.toNat)

/-- Floor of the base-2 logarithm, 0 for 0. -/
def log2 (n : Nat) : Nat := Nat.log2 n

/-- The smaller of a counter and its saturation value. -/
def sat (w n : Nat) : Nat := Nat.min n (2 ^ w - 1)

/-- Distance a − b modulo 2^32, as ring indexes count (R339). -/
def sub32 (a b : Nat) : Nat := (a + (2 ^ 32 - b % 2 ^ 32)) % 2 ^ 32

end Sys2Proof.Machine
end

