-- ==== Sys2Proof/Machine/Regmap.lean ====
section
/-! DEFINITION. Every register of BAR0 (R469, R474): its address, the address strides of its instances, the bit
range, access code (R8) and legal range of each defined field, and its value at a power-on or cold reset. Bits in no
field are reserved (R9, R470). -/
namespace Sys2Proof.Machine

/-- The access codes of R8. -/
inductive Access where
  | rw | ro | w1c | w1s | wo | rc | rwl
deriving DecidableEq, Repr

/-- One defined field: bits [hi:lo], access code, least and greatest value a write may put there. -/
structure RegField where
  hi : Nat
  lo : Nat
  acc : Access
  min : Nat
  max : Nat
deriving DecidableEq, Repr

/-- One register: name, base address, (stride, count) of each index, defined fields, reset value. -/
structure RegDesc where
  name : String
  base : Nat
  dims : List (Nat × Nat)
  fields : List RegField
  reset : Nat
deriving DecidableEq, Repr

/-- GL_D2D_STATUS: MODULES_UP [4:0], STATE [7:5], RETRY_COUNT [47:16] -/
def rGlD2dStatus : RegDesc :=
  ⟨"GL_D2D_STATUS", 0x200, [(0x8, 21)], [⟨4,0,.ro,0,31⟩,
    ⟨7,5,.ro,0,7⟩,
    ⟨47,16,.ro,0,4294967295⟩], 0x0⟩

/-- PG_CTRL: TAIL_MIGRATE_EN [0:0], BG_SPILL_EN [1:1] -/
def rPgCtrl : RegDesc :=
  ⟨"PG_CTRL", 0x9C0000, [], [⟨0,0,.rw,0,1⟩,
    ⟨1,1,.rw,0,1⟩], 0x3⟩

/-- PG_STATUS: FREE_FRAMES [24:0], PENDING_FRAMES [49:25] -/
def rPgStatus : RegDesc :=
  ⟨"PG_STATUS", 0x9C0008, [], [⟨24,0,.ro,0,33554431⟩,
    ⟨49,25,.ro,0,33554431⟩], 0x0⟩

/-- PG_SEQ_STATUS: LIVE_SEQS [18:0], STARVED_SEQS [37:19] -/
def rPgSeqStatus : RegDesc :=
  ⟨"PG_SEQ_STATUS", 0x9C0010, [], [⟨18,0,.ro,0,524287⟩,
    ⟨37,19,.ro,0,524287⟩], 0x0⟩

/-- PG_FREE_WM: LOW [24:0], HIGH [49:25] -/
def rPgFreeWm : RegDesc :=
  ⟨"PG_FREE_WM", 0x9C0018, [], [⟨24,0,.rw,0,33554431⟩,
    ⟨49,25,.rw,0,33554431⟩], 0x80000020000⟩

/-- PG_TAIL_CTRL: TAIL_KEEP [8:0] -/
def rPgTailCtrl : RegDesc :=
  ⟨"PG_TAIL_CTRL", 0x9C0020, [], [⟨8,0,.rw,8,256⟩], 0x20⟩

/-- PG_RECLAIM: TICK_US [16:0] -/
def rPgReclaim : RegDesc :=
  ⟨"PG_RECLAIM", 0x9C0028, [], [⟨16,0,.rw,10,100000⟩], 0x3E8⟩

/-- PG_DESC_BASE: BASE [43:0] -/
def rPgDescBase : RegDesc :=
  ⟨"PG_DESC_BASE", 0x9C0030, [], [⟨43,0,.ro,0,17592186044415⟩], 0x0⟩

/-- PG_FRAME_USE: KV_FRAMES [24:0], SYSTEM_FRAMES [49:25] -/
def rPgFrameUse : RegDesc :=
  ⟨"PG_FRAME_USE", 0x9C0038, [], [⟨24,0,.ro,0,33554431⟩,
    ⟨49,25,.ro,0,33554431⟩], 0x0⟩

/-- PG_FALLBACK_CNT: SPILLS [31:0], SPACE_PAUSES [47:32], STARVES [63:48] -/
def rPgFallbackCnt : RegDesc :=
  ⟨"PG_FALLBACK_CNT", 0x9C0040, [], [⟨31,0,.rc,0,4294967295⟩,
    ⟨47,32,.rc,0,65535⟩,
    ⟨63,48,.rc,0,65535⟩], 0x0⟩

/-- PG_COW_CNT: COPIES [31:0], LENGTH_ENDS [47:32] -/
def rPgCowCnt : RegDesc :=
  ⟨"PG_COW_CNT", 0x9C0048, [], [⟨31,0,.rc,0,4294967295⟩,
    ⟨47,32,.rc,0,65535⟩], 0x0⟩

/-- PG_ERR: TRAILER_CRC [0:0], PAYLOAD_CRC [1:1], BAD_STATE [2:2], BAD_TABLE_ENTRY [3:3], STALE_HANDLE [4:4], WM_INVALID [5:5], TAIL_INVALID [6:6], TICK_INVALID [7:7] -/
def rPgErr : RegDesc :=
  ⟨"PG_ERR", 0x9C0050, [], [⟨0,0,.w1c,0,1⟩,
    ⟨1,1,.w1c,0,1⟩,
    ⟨2,2,.w1c,0,1⟩,
    ⟨3,3,.w1c,0,1⟩,
    ⟨4,4,.w1c,0,1⟩,
    ⟨5,5,.w1c,0,1⟩,
    ⟨6,6,.w1c,0,1⟩,
    ⟨7,7,.w1c,0,1⟩], 0x0⟩

/-- PG_FRAME_SEL: FRAME [24:0] -/
def rPgFrameSel : RegDesc :=
  ⟨"PG_FRAME_SEL", 0x9C0058, [], [⟨24,0,.rw,0,25165823⟩], 0x0⟩

/-- PG_FRAME_INFO: STATE [2:0], GENERATION [10:3], REFCOUNT [26:11], LEASES [42:27], GRACE [44:43], CONTEXT [52:45] -/
def rPgFrameInfo : RegDesc :=
  ⟨"PG_FRAME_INFO", 0x9C0060, [], [⟨2,0,.ro,0,7⟩,
    ⟨10,3,.ro,0,255⟩,
    ⟨26,11,.ro,0,65535⟩,
    ⟨42,27,.ro,0,65535⟩,
    ⟨44,43,.ro,0,3⟩,
    ⟨52,45,.ro,0,255⟩], 0x0⟩

/-- TE_CTRL: ENABLE [0:0], UNIT_RESET [1:1], OFFLINE_CLR [2:2] -/
def rTeCtrl : RegDesc :=
  ⟨"TE_CTRL", 0x500000, [(0x1000, 64)], [⟨0,0,.rw,0,1⟩,
    ⟨1,1,.wo,0,1⟩,
    ⟨2,2,.wo,0,1⟩], 0x1⟩

/-- TE_STATUS: POWER [1:0], BUSY [2:2], OFFLINE [3:3], SPRINT_CLK [4:4], TILE_OP [15:8] -/
def rTeStatus : RegDesc :=
  ⟨"TE_STATUS", 0x500008, [(0x1000, 64)], [⟨1,0,.ro,0,3⟩,
    ⟨2,2,.ro,0,1⟩,
    ⟨3,3,.ro,0,1⟩,
    ⟨4,4,.ro,0,1⟩,
    ⟨15,8,.ro,0,255⟩], 0x0⟩

/-- TE_CONTEXT: CONTEXT [7:0], VALID [8:8] -/
def rTeContext : RegDesc :=
  ⟨"TE_CONTEXT", 0x500010, [(0x1000, 64)], [⟨7,0,.ro,0,255⟩,
    ⟨8,8,.ro,0,1⟩], 0x0⟩

/-- TE_FAULT: CODE [7:0], CONTEXT [15:8], VALID [16:16] -/
def rTeFault : RegDesc :=
  ⟨"TE_FAULT", 0x500018, [(0x1000, 64)], [⟨7,0,.ro,0,255⟩,
    ⟨15,8,.ro,0,255⟩,
    ⟨16,16,.w1c,0,1⟩], 0x0⟩

/-- TE_FAULT_ADDR: ADDR [43:0] -/
def rTeFaultAddr : RegDesc :=
  ⟨"TE_FAULT_ADDR", 0x500020, [(0x1000, 64)], [⟨43,0,.ro,0,17592186044415⟩], 0x0⟩

/-- TE_BUSY_NS: BUSY_NS [63:0] -/
def rTeBusyNs : RegDesc :=
  ⟨"TE_BUSY_NS", 0x500028, [(0x1000, 64)], [⟨63,0,.ro,0,18446744073709551615⟩], 0x0⟩

/-- TE_PWR: GATE_EN [0:0], GATE_THRESH_US [23:4] -/
def rTePwr : RegDesc :=
  ⟨"TE_PWR", 0x500030, [(0x1000, 64)], [⟨0,0,.rw,0,1⟩,
    ⟨23,4,.rw,1,1048575⟩], 0x321⟩

/-- TE_ID: INDEX [7:0], DIE [11:8], CLASS [15:12], REVISION [23:16] -/
def rTeId : RegDesc :=
  ⟨"TE_ID", 0x500038, [(0x1000, 64)], [⟨7,0,.ro,0,255⟩,
    ⟨11,8,.ro,0,15⟩,
    ⟨15,12,.ro,0,15⟩,
    ⟨23,16,.ro,0,255⟩], 0x0⟩

/-- TE_TILE_CNT: TILES [63:0] -/
def rTeTileCnt : RegDesc :=
  ⟨"TE_TILE_CNT", 0x500040, [(0x1000, 64)], [⟨63,0,.ro,0,18446744073709551615⟩], 0x0⟩

/-- TE_PARITY: RETRIES [15:0], UNRECOVERED [31:16] -/
def rTeParity : RegDesc :=
  ⟨"TE_PARITY", 0x500048, [(0x1000, 64)], [⟨15,0,.ro,0,65535⟩,
    ⟨31,16,.ro,0,65535⟩], 0x0⟩

/-- TE_NUMCTL: FTZ [0:0], SR_EN [1:1], TRAP_NAN [2:2], TRAP_SAT [3:3] -/
def rTeNumctl : RegDesc :=
  ⟨"TE_NUMCTL", 0x580000, [(0x8, 256)], [⟨0,0,.rw,0,1⟩,
    ⟨1,1,.rw,0,1⟩,
    ⟨2,2,.rw,0,1⟩,
    ⟨3,3,.rw,0,1⟩], 0x0⟩

/-- TE_SRSEED: SEED [63:0] -/
def rTeSrseed : RegDesc :=
  ⟨"TE_SRSEED", 0x580800, [(0x8, 256)], [⟨63,0,.rw,0,18446744073709551615⟩], 0x0⟩

/-- TE_NUMSTAT: NAN [0:0], SAT [1:1] -/
def rTeNumstat : RegDesc :=
  ⟨"TE_NUMSTAT", 0x581000, [(0x8, 256)], [⟨0,0,.w1c,0,1⟩,
    ⟨1,1,.w1c,0,1⟩], 0x0⟩

/-- TE_SATCNT: COUNT [47:0] -/
def rTeSatcnt : RegDesc :=
  ⟨"TE_SATCNT", 0x581800, [(0x8, 256)], [⟨47,0,.rc,0,281474976710655⟩], 0x0⟩

/-- TE_ATTN_CTRL: HOLDER_EN [0:0], EARLY_DEGRADE_EN [1:1], DEADLINE_PCT [14:8] -/
def rTeAttnCtrl : RegDesc :=
  ⟨"TE_ATTN_CTRL", 0x584000, [], [⟨0,0,.rw,0,1⟩,
    ⟨1,1,.rw,0,1⟩,
    ⟨14,8,.rw,10,95⟩], 0x3C03⟩

/-- TE_PANE_SENT: PANES [47:0], ERR_PANES [63:48] -/
def rTePaneSent : RegDesc :=
  ⟨"TE_PANE_SENT", 0x584008, [], [⟨47,0,.rc,0,281474976710655⟩,
    ⟨63,48,.rc,0,65535⟩], 0x0⟩

/-- TE_PANE_MERGED: PANES [47:0] -/
def rTePaneMerged : RegDesc :=
  ⟨"TE_PANE_MERGED", 0x584010, [], [⟨47,0,.rc,0,281474976710655⟩], 0x0⟩

/-- TE_PANE_EVT_CNT: LATE [15:0], DEGRADED [31:16], LOST [47:32], STALE [63:48] -/
def rTePaneEvtCnt : RegDesc :=
  ⟨"TE_PANE_EVT_CNT", 0x584018, [], [⟨15,0,.rc,0,65535⟩,
    ⟨31,16,.rc,0,65535⟩,
    ⟨47,32,.rc,0,65535⟩,
    ⟨63,48,.rc,0,65535⟩], 0x0⟩

/-- TE_PANE_LAT: MAX_NS [31:0], LAST_NS [63:32] -/
def rTePaneLat : RegDesc :=
  ⟨"TE_PANE_LAT", 0x584020, [], [⟨31,0,.rc,0,4294967295⟩,
    ⟨63,32,.ro,0,4294967295⟩], 0x0⟩

/-- TE_ATTN_ERR: RANGE_MISMATCH [0:0], BAD_REQUEST [1:1], LOST_SEEN [2:2], PCT_INVALID [3:3] -/
def rTeAttnErr : RegDesc :=
  ⟨"TE_ATTN_ERR", 0x584028, [], [⟨0,0,.w1c,0,1⟩,
    ⟨1,1,.w1c,0,1⟩,
    ⟨2,2,.w1c,0,1⟩,
    ⟨3,3,.w1c,0,1⟩], 0x0⟩

/-- TU_CTRL: ENABLE [0:0], UNIT_RESET [1:1], OFFLINE_CLR [2:2] -/
def rTuCtrl : RegDesc :=
  ⟨"TU_CTRL", 0x600000, [(0x1000, 16)], [⟨0,0,.rw,0,1⟩,
    ⟨1,1,.wo,0,1⟩,
    ⟨2,2,.wo,0,1⟩], 0x1⟩

/-- CU_CTRL: ENABLE [0:0], UNIT_RESET [1:1], OFFLINE_CLR [2:2] -/
def rCuCtrl : RegDesc :=
  ⟨"CU_CTRL", 0x610000, [(0x1000, 24)], [⟨0,0,.rw,0,1⟩,
    ⟨1,1,.wo,0,1⟩,
    ⟨2,2,.wo,0,1⟩], 0x1⟩

/-- TU_STATUS: POWER [1:0], BUSY [2:2], OFFLINE [3:3], SPRINT_CLK [4:4], OP [15:8] -/
def rTuStatus : RegDesc :=
  ⟨"TU_STATUS", 0x600008, [(0x1000, 16)], [⟨1,0,.ro,0,3⟩,
    ⟨2,2,.ro,0,1⟩,
    ⟨3,3,.ro,0,1⟩,
    ⟨4,4,.ro,0,1⟩,
    ⟨15,8,.ro,0,255⟩], 0x0⟩

/-- CU_STATUS: POWER [1:0], BUSY [2:2], OFFLINE [3:3], SPRINT_CLK [4:4], OP [15:8] -/
def rCuStatus : RegDesc :=
  ⟨"CU_STATUS", 0x610008, [(0x1000, 24)], [⟨1,0,.ro,0,3⟩,
    ⟨2,2,.ro,0,1⟩,
    ⟨3,3,.ro,0,1⟩,
    ⟨4,4,.ro,0,1⟩,
    ⟨15,8,.ro,0,255⟩], 0x0⟩

/-- TU_CONTEXT: CONTEXT [7:0], VALID [8:8] -/
def rTuContext : RegDesc :=
  ⟨"TU_CONTEXT", 0x600010, [(0x1000, 16)], [⟨7,0,.ro,0,255⟩,
    ⟨8,8,.ro,0,1⟩], 0x0⟩

/-- CU_CONTEXT: CONTEXT [7:0], VALID [8:8] -/
def rCuContext : RegDesc :=
  ⟨"CU_CONTEXT", 0x610010, [(0x1000, 24)], [⟨7,0,.ro,0,255⟩,
    ⟨8,8,.ro,0,1⟩], 0x0⟩

/-- TU_FAULT: CODE [7:0], CONTEXT [15:8], VALID [16:16] -/
def rTuFault : RegDesc :=
  ⟨"TU_FAULT", 0x600018, [(0x1000, 16)], [⟨7,0,.ro,0,255⟩,
    ⟨15,8,.ro,0,255⟩,
    ⟨16,16,.w1c,0,1⟩], 0x0⟩

/-- CU_FAULT: CODE [7:0], CONTEXT [15:8], VALID [16:16] -/
def rCuFault : RegDesc :=
  ⟨"CU_FAULT", 0x610018, [(0x1000, 24)], [⟨7,0,.ro,0,255⟩,
    ⟨15,8,.ro,0,255⟩,
    ⟨16,16,.w1c,0,1⟩], 0x0⟩

/-- TU_FAULT_ADDR: ADDR [43:0] -/
def rTuFaultAddr : RegDesc :=
  ⟨"TU_FAULT_ADDR", 0x600020, [(0x1000, 16)], [⟨43,0,.ro,0,17592186044415⟩], 0x0⟩

/-- CU_FAULT_ADDR: ADDR [43:0] -/
def rCuFaultAddr : RegDesc :=
  ⟨"CU_FAULT_ADDR", 0x610020, [(0x1000, 24)], [⟨43,0,.ro,0,17592186044415⟩], 0x0⟩

/-- TU_BUSY_NS: BUSY_NS [63:0] -/
def rTuBusyNs : RegDesc :=
  ⟨"TU_BUSY_NS", 0x600028, [(0x1000, 16)], [⟨63,0,.ro,0,18446744073709551615⟩], 0x0⟩

/-- CU_BUSY_NS: BUSY_NS [63:0] -/
def rCuBusyNs : RegDesc :=
  ⟨"CU_BUSY_NS", 0x610028, [(0x1000, 24)], [⟨63,0,.ro,0,18446744073709551615⟩], 0x0⟩

/-- TU_PWR: GATE_EN [0:0], GATE_THRESH_US [23:4] -/
def rTuPwr : RegDesc :=
  ⟨"TU_PWR", 0x600030, [(0x1000, 16)], [⟨0,0,.rw,0,1⟩,
    ⟨23,4,.rw,1,1048575⟩], 0x321⟩

/-- CU_PWR: GATE_EN [0:0], GATE_THRESH_US [23:4] -/
def rCuPwr : RegDesc :=
  ⟨"CU_PWR", 0x610030, [(0x1000, 24)], [⟨0,0,.rw,0,1⟩,
    ⟨23,4,.rw,1,1048575⟩], 0x321⟩

/-- TU_ID: INDEX [7:0], DIE [11:8], CLASS [15:12], REVISION [23:16] -/
def rTuId : RegDesc :=
  ⟨"TU_ID", 0x600038, [(0x1000, 16)], [⟨7,0,.ro,0,255⟩,
    ⟨11,8,.ro,0,15⟩,
    ⟨15,12,.ro,0,15⟩,
    ⟨23,16,.ro,0,255⟩], 0x0⟩

/-- CU_ID: INDEX [7:0], DIE [11:8], CLASS [15:12], REVISION [23:16] -/
def rCuId : RegDesc :=
  ⟨"CU_ID", 0x610038, [(0x1000, 24)], [⟨7,0,.ro,0,255⟩,
    ⟨11,8,.ro,0,15⟩,
    ⟨15,12,.ro,0,15⟩,
    ⟨23,16,.ro,0,255⟩], 0x0⟩

/-- TU_POS_CNT: POSITIONS [63:0] -/
def rTuPosCnt : RegDesc :=
  ⟨"TU_POS_CNT", 0x600040, [(0x1000, 16)], [⟨63,0,.ro,0,18446744073709551615⟩], 0x0⟩

/-- CU_BYTES: BYTES [63:0] -/
def rCuBytes : RegDesc :=
  ⟨"CU_BYTES", 0x610040, [(0x1000, 24)], [⟨63,0,.ro,0,18446744073709551615⟩], 0x0⟩

/-- CU_CHECK_CNT: CRC_FAILS [31:0], REBUILDS [63:32] -/
def rCuCheckCnt : RegDesc :=
  ⟨"CU_CHECK_CNT", 0x610048, [(0x1000, 24)], [⟨31,0,.ro,0,4294967295⟩,
    ⟨63,32,.ro,0,4294967295⟩], 0x0⟩

/-- TU_SPEC_CTRL: SPEC_EN [0:0] -/
def rTuSpecCtrl : RegDesc :=
  ⟨"TU_SPEC_CTRL", 0x630000, [], [⟨0,0,.rw,0,1⟩], 0x1⟩

/-- TU_SPEC_CNT: DRAFTED [31:0], ACCEPTED [63:32] -/
def rTuSpecCnt : RegDesc :=
  ⟨"TU_SPEC_CNT", 0x630008, [], [⟨31,0,.rc,0,4294967295⟩,
    ⟨63,32,.rc,0,4294967295⟩], 0x0⟩

/-- TU_EVT_CNT: MASK_EMPTY [15:0], NAN_LOGIT [31:16], BAD_RECORD [47:32] -/
def rTuEvtCnt : RegDesc :=
  ⟨"TU_EVT_CNT", 0x630010, [], [⟨15,0,.rc,0,65535⟩,
    ⟨31,16,.rc,0,65535⟩,
    ⟨47,32,.rc,0,65535⟩], 0x0⟩

/-- TU_GRAMMAR_MAP: RESIDENT [63:0] -/
def rTuGrammarMap : RegDesc :=
  ⟨"TU_GRAMMAR_MAP", 0x630018, [], [⟨63,0,.ro,0,18446744073709551615⟩], 0x0⟩

/-- TU_IMG_STATUS: RESIDENT [8:0], INSTALLING [17:9] -/
def rTuImgStatus : RegDesc :=
  ⟨"TU_IMG_STATUS", 0x630020, [], [⟨8,0,.ro,0,511⟩,
    ⟨17,9,.ro,0,511⟩], 0x0⟩

/-- TU_ADP_STATUS: SLOTS_USED [12:0], PENDING [25:13] -/
def rTuAdpStatus : RegDesc :=
  ⟨"TU_ADP_STATUS", 0x630028, [], [⟨12,0,.ro,0,8191⟩,
    ⟨25,13,.ro,0,8191⟩], 0x0⟩

/-- TU_SWITCH_LAT: MAX_NS [31:0], LAST_NS [63:32] -/
def rTuSwitchLat : RegDesc :=
  ⟨"TU_SWITCH_LAT", 0x630030, [], [⟨31,0,.rc,0,4294967295⟩,
    ⟨63,32,.ro,0,4294967295⟩], 0x0⟩

/-- MC_CTRL: SCRUB_EN [0:0], REPAIR_EN [1:1] -/
def rMcCtrl : RegDesc :=
  ⟨"MC_CTRL", 0x700000, [(0x2000, 24)], [⟨0,0,.rw,0,1⟩,
    ⟨1,1,.rw,0,1⟩], 0x3⟩

/-- MC_STATUS: STATE [2:0], RATE [3:3], SPRINT_OK [4:4], REFRESH_2X [5:5], TEMP_C [15:8] -/
def rMcStatus : RegDesc :=
  ⟨"MC_STATUS", 0x700008, [(0x2000, 24)], [⟨2,0,.ro,0,7⟩,
    ⟨3,3,.ro,0,1⟩,
    ⟨4,4,.ro,0,1⟩,
    ⟨5,5,.ro,0,1⟩,
    ⟨15,8,.ro,0,255⟩], 0x0⟩

/-- MC_TRAIN: NOM_TIME_US [15:0], SPR_TIME_US [31:16], LANES_REPAIRED [39:32] -/
def rMcTrain : RegDesc :=
  ⟨"MC_TRAIN", 0x700010, [(0x2000, 24)], [⟨15,0,.ro,0,65535⟩,
    ⟨31,16,.ro,0,65535⟩,
    ⟨39,32,.ro,0,255⟩], 0x0⟩

/-- MC_ECC_CNT: CORRECTED [31:0], UNCORRECTED [47:32], SCRUB_FOUND [63:48] -/
def rMcEccCnt : RegDesc :=
  ⟨"MC_ECC_CNT", 0x700018, [(0x2000, 24)], [⟨31,0,.rc,0,4294967295⟩,
    ⟨47,32,.rc,0,65535⟩,
    ⟨63,48,.rc,0,65535⟩], 0x0⟩

/-- MC_ECC_ADDR: ADDR [43:0], VALID [63:63] -/
def rMcEccAddr : RegDesc :=
  ⟨"MC_ECC_ADDR", 0x700020, [(0x2000, 24)], [⟨43,0,.ro,0,17592186044415⟩,
    ⟨63,63,.w1c,0,1⟩], 0x0⟩

/-- MC_ECC_CTRL: REPAIR_THRESH [7:0] -/
def rMcEccCtrl : RegDesc :=
  ⟨"MC_ECC_CTRL", 0x700028, [(0x2000, 24)], [⟨7,0,.rw,1,255⟩], 0x10⟩

/-- MC_SCRUB: PERIOD_H [7:0], PROGRESS [27:8] -/
def rMcScrub : RegDesc :=
  ⟨"MC_SCRUB", 0x700030, [(0x2000, 24)], [⟨7,0,.rw,1,168⟩,
    ⟨27,8,.ro,0,1048575⟩], 0x18⟩

/-- MC_REPAIR: PENDING [15:0], SPARES_LEFT [31:16] -/
def rMcRepair : RegDesc :=
  ⟨"MC_REPAIR", 0x700038, [(0x2000, 24)], [⟨15,0,.ro,0,65535⟩,
    ⟨31,16,.ro,0,65535⟩], 0x0⟩

/-- MC_BYTES: BYTES [63:0] -/
def rMcBytes : RegDesc :=
  ⟨"MC_BYTES", 0x700040, [(0x2000, 24)], [⟨63,0,.ro,0,18446744073709551615⟩], 0x0⟩

/-- MC_TIER_CTRL: TIER_EN [0:0], DEADLINE_PCT [7:1], READ_TIMEOUT_US [17:8], REPORT_MS [33:18] -/
def rMcTierCtrl : RegDesc :=
  ⟨"MC_TIER_CTRL", 0x740000, [], [⟨0,0,.rw,0,1⟩,
    ⟨7,1,.rw,10,95⟩,
    ⟨17,8,.rw,2,1000⟩,
    ⟨33,18,.rw,10,60000⟩], 0xFA01465⟩

/-- MC_TIER_STATUS: SLOTS_TOTAL [25:0], SLOTS_FREE [51:26] -/
def rMcTierStatus : RegDesc :=
  ⟨"MC_TIER_STATUS", 0x740008, [], [⟨25,0,.ro,0,67108863⟩,
    ⟨51,26,.ro,0,67108863⟩], 0x0⟩

/-- MC_TIER_PORTS: T2P_GIB [12:0], AUX0_GIB [25:13], AUX1_GIB [38:26], EXCESS_GIB [51:39], UP [54:52] -/
def rMcTierPorts : RegDesc :=
  ⟨"MC_TIER_PORTS", 0x740010, [], [⟨12,0,.ro,0,8191⟩,
    ⟨25,13,.ro,0,8191⟩,
    ⟨38,26,.ro,0,8191⟩,
    ⟨51,39,.ro,0,8191⟩,
    ⟨54,52,.ro,0,7⟩], 0x0⟩

/-- MC_PAUSE_CNT: PAUSES [15:0], EXPIRIES [31:16], SUMMARIES [47:32], REPREFILLS [63:48] -/
def rMcPauseCnt : RegDesc :=
  ⟨"MC_PAUSE_CNT", 0x740018, [], [⟨15,0,.rc,0,65535⟩,
    ⟨31,16,.rc,0,65535⟩,
    ⟨47,32,.rc,0,65535⟩,
    ⟨63,48,.rc,0,65535⟩], 0x0⟩

/-- MC_TIER_POLICY: MODE [1:0], SLOT_QUOTA [27:2], DEFAULT_TTL_S [44:28] -/
def rMcTierPolicy : RegDesc :=
  ⟨"MC_TIER_POLICY", 0x741000, [(0x8, 256)], [⟨1,0,.ro,0,3⟩,
    ⟨27,2,.ro,0,67108863⟩,
    ⟨44,28,.ro,0,131071⟩], 0x2580000000⟩

/-- MC_TIER_CNT: TIER_LATE [31:0], TIER_ERROR [63:32] -/
def rMcTierCnt : RegDesc :=
  ⟨"MC_TIER_CNT", 0x741800, [(0x8, 256)], [⟨31,0,.rc,0,4294967295⟩,
    ⟨63,32,.rc,0,4294967295⟩], 0x0⟩

/-- MC_TIER_USE: SLOTS [25:0] -/
def rMcTierUse : RegDesc :=
  ⟨"MC_TIER_USE", 0x742000, [(0x8, 256)], [⟨25,0,.ro,0,67108863⟩], 0x0⟩

/-- EP_CTRL: ENABLE [0:0], RETRAIN [1:1], MAX_WIDTH [3:2] -/
def rEpCtrl : RegDesc :=
  ⟨"EP_CTRL", 0x800000, [(0x4000, 24)], [⟨0,0,.rw,0,1⟩,
    ⟨1,1,.wo,0,1⟩,
    ⟨3,2,.rw,0,2⟩], 0x1⟩

/-- EP_STATUS: STATE [1:0], WIDTH [3:2], LANES [7:4], ENC_TX [8:8], KEY_PHASE [9:9] -/
def rEpStatus : RegDesc :=
  ⟨"EP_STATUS", 0x800008, [(0x4000, 24)], [⟨1,0,.ro,0,3⟩,
    ⟨3,2,.ro,0,3⟩,
    ⟨7,4,.ro,0,15⟩,
    ⟨8,8,.ro,0,1⟩,
    ⟨9,9,.ro,0,1⟩], 0x0⟩

/-- EP_LINK_CTRL: UNCORR_MAX [15:0], TRAIN_TRIES [19:16] -/
def rEpLinkCtrl : RegDesc :=
  ⟨"EP_LINK_CTRL", 0x800010, [(0x4000, 24)], [⟨15,0,.rw,1,65535⟩,
    ⟨19,16,.rw,1,15⟩], 0x30040⟩

/-- EP_TRAIN: LAST_MS [15:0], RETRAINS [31:16], LANE_FAIL [35:32] -/
def rEpTrain : RegDesc :=
  ⟨"EP_TRAIN", 0x800018, [(0x4000, 24)], [⟨15,0,.ro,0,65535⟩,
    ⟨31,16,.ro,0,65535⟩,
    ⟨35,32,.ro,0,15⟩], 0x0⟩

/-- EP_FEC_CNT: CORR_SYMBOLS [31:0], UNCORR_CW [63:32] -/
def rEpFecCnt : RegDesc :=
  ⟨"EP_FEC_CNT", 0x800020, [(0x4000, 24)], [⟨31,0,.rc,0,4294967295⟩,
    ⟨63,32,.rc,0,4294967295⟩], 0x0⟩

/-- EP_TX_BYTES: COUNT [63:0] -/
def rEpTxBytes : RegDesc :=
  ⟨"EP_TX_BYTES", 0x800028, [(0x4000, 24)], [⟨63,0,.ro,0,18446744073709551615⟩], 0x0⟩

/-- EP_RX_BYTES: COUNT [63:0] -/
def rEpRxBytes : RegDesc :=
  ⟨"EP_RX_BYTES", 0x800030, [(0x4000, 24)], [⟨63,0,.ro,0,18446744073709551615⟩], 0x0⟩

/-- EP_TX_PKTS: COUNT [63:0] -/
def rEpTxPkts : RegDesc :=
  ⟨"EP_TX_PKTS", 0x800038, [(0x4000, 24)], [⟨63,0,.ro,0,18446744073709551615⟩], 0x0⟩

/-- EP_RX_PKTS: COUNT [63:0] -/
def rEpRxPkts : RegDesc :=
  ⟨"EP_RX_PKTS", 0x800040, [(0x4000, 24)], [⟨63,0,.ro,0,18446744073709551615⟩], 0x0⟩

/-- EP_RX_DROP0: CRC [15:0], BAD_HEADER [31:16], AGED [47:32], FUTURE [63:48] -/
def rEpRxDrop0 : RegDesc :=
  ⟨"EP_RX_DROP0", 0x800048, [(0x4000, 24)], [⟨15,0,.rc,0,65535⟩,
    ⟨31,16,.rc,0,65535⟩,
    ⟨47,32,.rc,0,65535⟩,
    ⟨63,48,.rc,0,65535⟩], 0x0⟩

/-- EP_RX_DROP1: AUTH [15:0], PLAIN [31:16], HOP_EXPIRED [47:32], NO_ROUTE [63:48] -/
def rEpRxDrop1 : RegDesc :=
  ⟨"EP_RX_DROP1", 0x800050, [(0x4000, 24)], [⟨15,0,.rc,0,65535⟩,
    ⟨31,16,.rc,0,65535⟩,
    ⟨47,32,.rc,0,65535⟩,
    ⟨63,48,.rc,0,65535⟩], 0x0⟩

/-- EP_CRYPT: TX_EN [0:0], REQUIRE_RX [1:1] -/
def rEpCrypt : RegDesc :=
  ⟨"EP_CRYPT", 0x800058, [(0x4000, 24)], [⟨0,0,.rw,0,1⟩,
    ⟨1,1,.rw,0,1⟩], 0x0⟩

/-- EP_RETX: RETX_PKTS [31:0], DOWN_EVENTS [47:32] -/
def rEpRetx : RegDesc :=
  ⟨"EP_RETX", 0x800060, [(0x4000, 24)], [⟨31,0,.rc,0,4294967295⟩,
    ⟨47,32,.rc,0,65535⟩], 0x0⟩

/-- EP_SELF: ENDPOINT [19:0], LOCK [20:20] -/
def rEpSelf : RegDesc :=
  ⟨"EP_SELF", 0x860000, [], [⟨19,0,.rwl,0,1048575⟩,
    ⟨20,20,.w1s,0,1⟩], 0x0⟩

/-- EP_TX_CTRL: HOP_TTL [5:0], MTU [7:6] -/
def rEpTxCtrl : RegDesc :=
  ⟨"EP_TX_CTRL", 0x860008, [], [⟨5,0,.rw,1,63⟩,
    ⟨7,6,.rw,0,2⟩], 0x88⟩

/-- EP_LIFE: MAX_AGE [19:0], SKEW_TOL [35:20] -/
def rEpLife : RegDesc :=
  ⟨"EP_LIFE", 0x860010, [], [⟨19,0,.ro,0,1048575⟩,
    ⟨35,20,.rw,1,12500⟩], 0xFAF4240⟩

/-- EP_CC_CTRL: TARGET_DELAY_NS [15:0], BETA [23:16], MAX_MD [31:24], AI_BYTES [47:32], SHARE_HYST_NS [63:48] -/
def rEpCcCtrl : RegDesc :=
  ⟨"EP_CC_CTRL", 0x860018, [], [⟨15,0,.rw,1000,65535⟩,
    ⟨23,16,.rw,1,255⟩,
    ⟨31,24,.rw,1,255⟩,
    ⟨47,32,.rw,256,65535⟩,
    ⟨63,48,.rw,0,65535⟩], 0x7D0100080CD1F40⟩

/-- EP_CC_WND: INIT_WND [23:0], MAX_WND [47:24], MIN_WND [63:48] -/
def rEpCcWnd : RegDesc :=
  ⟨"EP_CC_WND", 0x860020, [], [⟨23,0,.rw,0,16777215⟩,
    ⟨47,24,.rw,0,16777215⟩,
    ⟨63,48,.rw,4176,65535⟩], 0x1050100000010000⟩

/-- EP_CC_PATH: PATHS [4:0], BASE_WIN_MS [15:8], REROLL_US [31:16], DEST_ACTIVE [45:32] -/
def rEpCcPath : RegDesc :=
  ⟨"EP_CC_PATH", 0x860028, [], [⟨4,0,.rw,1,16⟩,
    ⟨15,8,.rw,1,255⟩,
    ⟨31,16,.rw,10,65535⟩,
    ⟨45,32,.ro,0,16383⟩], 0x1F46410⟩

/-- EP_CC_CNT: DECREASES [31:0], PATH_TIMEOUTS [47:32], REROLLS [63:48] -/
def rEpCcCnt : RegDesc :=
  ⟨"EP_CC_CNT", 0x860030, [], [⟨31,0,.rc,0,4294967295⟩,
    ⟨47,32,.rc,0,65535⟩,
    ⟨63,48,.rc,0,65535⟩], 0x0⟩

/-- EP_TIME_CTRL: INTERVAL_US [15:0], PPS_IN_EN [16:16], PPS_OUT_EN [17:17], MASTER [18:18] -/
def rEpTimeCtrl : RegDesc :=
  ⟨"EP_TIME_CTRL", 0x860038, [], [⟨15,0,.rw,125,65535⟩,
    ⟨16,16,.rw,0,1⟩,
    ⟨17,17,.rw,0,1⟩,
    ⟨18,18,.ro,0,1⟩], 0x203E8⟩

/-- EP_TIME_STATUS: STATE [1:0], OFFSET_NS [33:2], MASTER_EP [53:34] -/
def rEpTimeStatus : RegDesc :=
  ⟨"EP_TIME_STATUS", 0x860040, [], [⟨1,0,.ro,0,3⟩,
    ⟨33,2,.ro,0,4294967295⟩,
    ⟨53,34,.ro,0,1048575⟩], 0x0⟩

/-- EP_TIME_NOW: NOW [63:0] -/
def rEpTimeNow : RegDesc :=
  ⟨"EP_TIME_NOW", 0x860048, [], [⟨63,0,.ro,0,18446744073709551615⟩], 0x0⟩

/-- EP_TIME_SET: NS [63:0] -/
def rEpTimeSet : RegDesc :=
  ⟨"EP_TIME_SET", 0x860050, [], [⟨63,0,.wo,0,18446744073709551615⟩], 0x0⟩

/-- EP_ROUTE: BASE [19:0], PREFIX [24:20], PORTS [48:25], VALID [63:63] -/
def rEpRoute : RegDesc :=
  ⟨"EP_ROUTE", 0x861000, [(0x8, 64)], [⟨19,0,.rw,0,1048575⟩,
    ⟨24,20,.rw,0,20⟩,
    ⟨48,25,.rw,0,16777215⟩,
    ⟨63,63,.rw,0,1⟩], 0x0⟩

/-- FL_CTRL: ENABLE [0:0], QUAD_EN [1:1], DOMAIN_LOCK [2:2] -/
def rFlCtrl : RegDesc :=
  ⟨"FL_CTRL", 0x480000, [], [⟨0,0,.rw,0,1⟩,
    ⟨1,1,.rw,0,1⟩,
    ⟨2,2,.w1s,0,1⟩], 0x1⟩

/-- FL_LOAD_TIMEOUT: TIMEOUT_US [10:0], RETRY_US [24:16] -/
def rFlLoadTimeout : RegDesc :=
  ⟨"FL_LOAD_TIMEOUT", 0x480008, [], [⟨10,0,.rw,5,2000⟩,
    ⟨24,16,.rw,2,500⟩], 0x80028⟩

/-- FL_ATOMIC_RETRY: TIMEOUT_US [10:0], RETRIES [18:16] -/
def rFlAtomicRetry : RegDesc :=
  ⟨"FL_ATOMIC_RETRY", 0x480010, [], [⟨10,0,.rw,100,1200⟩,
    ⟨18,16,.rw,1,7⟩], 0x703E8⟩

/-- FL_DEAD_HOLD: HOLD_MS [13:0] -/
def rFlDeadHold : RegDesc :=
  ⟨"FL_DEAD_HOLD", 0x480018, [], [⟨13,0,.rw,1,10000⟩], 0x64⟩

/-- FL_ACCESS_CNT: ISSUED [31:0], RESENT [47:32], DEAD [63:48] -/
def rFlAccessCnt : RegDesc :=
  ⟨"FL_ACCESS_CNT", 0x480020, [], [⟨31,0,.rc,0,4294967295⟩,
    ⟨47,32,.rc,0,65535⟩,
    ⟨63,48,.rc,0,65535⟩], 0x0⟩

/-- FL_FAULT_CNT: OWNERSHIP [15:0], STALE [31:16], NO_REGION [47:32], OUTSIDE [63:48] -/
def rFlFaultCnt : RegDesc :=
  ⟨"FL_FAULT_CNT", 0x480028, [], [⟨15,0,.rc,0,65535⟩,
    ⟨31,16,.rc,0,65535⟩,
    ⟨47,32,.rc,0,65535⟩,
    ⟨63,48,.rc,0,65535⟩], 0x0⟩

/-- FL_ATOMIC_CACHE: ENTRIES [14:0] -/
def rFlAtomicCache : RegDesc :=
  ⟨"FL_ATOMIC_CACHE", 0x480030, [], [⟨14,0,.ro,0,32767⟩], 0x0⟩

/-- FL_ATOMIC_CNT: REPLAYED [31:0], UNKNOWN [47:32], BUSY [63:48] -/
def rFlAtomicCnt : RegDesc :=
  ⟨"FL_ATOMIC_CNT", 0x480038, [], [⟨31,0,.rc,0,4294967295⟩,
    ⟨47,32,.rc,0,65535⟩,
    ⟨63,48,.rc,0,65535⟩], 0x0⟩

/-- FL_REGIONS: HOMED [19:0], COHERENT [29:20] -/
def rFlRegions : RegDesc :=
  ⟨"FL_REGIONS", 0x480040, [], [⟨19,0,.ro,0,1048575⟩,
    ⟨29,20,.ro,0,1023⟩], 0x0⟩

/-- FL_SEQ_CNT: OUT_OF_WINDOW [15:0], RESTARTS [31:16], SEQ_LOST [47:32] -/
def rFlSeqCnt : RegDesc :=
  ⟨"FL_SEQ_CNT", 0x480048, [], [⟨15,0,.rc,0,65535⟩,
    ⟨31,16,.rc,0,65535⟩,
    ⟨47,32,.rc,0,65535⟩], 0x0⟩

/-- FL_DOMAIN: ENDPOINT [19:0], VALID [20:20] -/
def rFlDomain : RegDesc :=
  ⟨"FL_DOMAIN", 0x480100, [(0x8, 32)], [⟨19,0,.rwl,0,1048575⟩,
    ⟨20,20,.rwl,0,1⟩], 0x0⟩

/-- FL_QUAD: ENDPOINT [19:0], VALID [20:20] -/
def rFlQuad : RegDesc :=
  ⟨"FL_QUAD", 0x480200, [(0x8, 4)], [⟨19,0,.rwl,0,1048575⟩,
    ⟨20,20,.rwl,0,1⟩], 0x0⟩

/-- FL_QUAD_STATUS: FORMED [0:0], DEAD_MASK [4:1], LINES_CACHED [23:5], POISONED [47:24] -/
def rFlQuadStatus : RegDesc :=
  ⟨"FL_QUAD_STATUS", 0x480220, [], [⟨0,0,.ro,0,1⟩,
    ⟨4,1,.w1c,0,15⟩,
    ⟨23,5,.ro,0,524287⟩,
    ⟨47,24,.ro,0,16777215⟩], 0x0⟩

/-- FL_CTX: OWN_FATAL [0:0], DEAD_FATAL [1:1] -/
def rFlCtx : RegDesc :=
  ⟨"FL_CTX", 0x481000, [(0x8, 256)], [⟨0,0,.rw,0,1⟩,
    ⟨1,1,.rw,0,1⟩], 0x0⟩

/-- XE_CTRL: ENABLE [0:0], UNIT_RESET [1:1], OFFLINE_CLR [2:2] -/
def rXeCtrl : RegDesc :=
  ⟨"XE_CTRL", 0x400000, [(0x1000, 64)], [⟨0,0,.rw,0,1⟩,
    ⟨1,1,.wo,0,1⟩,
    ⟨2,2,.wo,0,1⟩], 0x1⟩

/-- XE_STATUS: POWER [1:0], BUSY [2:2], OFFLINE [3:3], SPRINT_CLK [4:4] -/
def rXeStatus : RegDesc :=
  ⟨"XE_STATUS", 0x400008, [(0x1000, 64)], [⟨1,0,.ro,0,3⟩,
    ⟨2,2,.ro,0,1⟩,
    ⟨3,3,.ro,0,1⟩,
    ⟨4,4,.ro,0,1⟩], 0x0⟩

/-- XE_CONTEXT: CONTEXT [7:0], VALID [8:8] -/
def rXeContext : RegDesc :=
  ⟨"XE_CONTEXT", 0x400010, [(0x1000, 64)], [⟨7,0,.ro,0,255⟩,
    ⟨8,8,.ro,0,1⟩], 0x0⟩

/-- XE_FAULT: CODE [7:0], CONTEXT [15:8], VALID [16:16] -/
def rXeFault : RegDesc :=
  ⟨"XE_FAULT", 0x400018, [(0x1000, 64)], [⟨7,0,.ro,0,255⟩,
    ⟨15,8,.ro,0,255⟩,
    ⟨16,16,.w1c,0,1⟩], 0x0⟩

/-- XE_FAULT_ADDR: ADDR [43:0] -/
def rXeFaultAddr : RegDesc :=
  ⟨"XE_FAULT_ADDR", 0x400020, [(0x1000, 64)], [⟨43,0,.ro,0,17592186044415⟩], 0x0⟩

/-- XE_BUSY_NS: BUSY_NS [63:0] -/
def rXeBusyNs : RegDesc :=
  ⟨"XE_BUSY_NS", 0x400028, [(0x1000, 64)], [⟨63,0,.ro,0,18446744073709551615⟩], 0x0⟩

/-- XE_PWR: GATE_EN [0:0], GATE_THRESH_US [23:4] -/
def rXePwr : RegDesc :=
  ⟨"XE_PWR", 0x400030, [(0x1000, 64)], [⟨0,0,.rw,0,1⟩,
    ⟨23,4,.rw,1,1048575⟩], 0x321⟩

/-- XE_ID: INDEX [7:0], DIE [11:8], CLASS [15:12], REVISION [23:16] -/
def rXeId : RegDesc :=
  ⟨"XE_ID", 0x400038, [(0x1000, 64)], [⟨7,0,.ro,0,255⟩,
    ⟨11,8,.ro,0,15⟩,
    ⟨15,12,.ro,0,15⟩,
    ⟨23,16,.ro,0,255⟩], 0x0⟩

/-- XE_LOAD: OUTSTANDING [8:0], QPS [25:9] -/
def rXeLoad : RegDesc :=
  ⟨"XE_LOAD", 0x400040, [(0x1000, 64)], [⟨8,0,.ro,0,511⟩,
    ⟨25,9,.ro,0,131071⟩], 0x0⟩

/-- XE_MSG_CNT: MESSAGES [63:0] -/
def rXeMsgCnt : RegDesc :=
  ⟨"XE_MSG_CNT", 0x400048, [(0x1000, 64)], [⟨63,0,.ro,0,18446744073709551615⟩], 0x0⟩

/-- XE_RETX_CNT: RESENDS [31:0], BUSY_RESENDS [63:32] -/
def rXeRetxCnt : RegDesc :=
  ⟨"XE_RETX_CNT", 0x400050, [(0x1000, 64)], [⟨31,0,.rc,0,4294967295⟩,
    ⟨63,32,.rc,0,4294967295⟩], 0x0⟩

/-- XE_QP_CFG: RETX_TIMEOUT_US [9:0], RETRY_CNT [12:10], MAX_OUT [21:13], BUSY_DELAY_US [37:22] -/
def rXeQpCfg : RegDesc :=
  ⟨"XE_QP_CFG", 0x440000, [], [⟨9,0,.rw,10,500⟩,
    ⟨12,10,.rw,1,7⟩,
    ⟨21,13,.rw,1,256⟩,
    ⟨37,22,.rw,1,65535⟩], 0x5081C64⟩

/-- XE_TRACK: IN_USE [14:0], PEAK [29:15] -/
def rXeTrack : RegDesc :=
  ⟨"XE_TRACK", 0x440008, [], [⟨14,0,.ro,0,32767⟩,
    ⟨29,15,.rc,0,32767⟩], 0x0⟩

/-- XE_RX_CNT: DUP [15:0], OUT_OF_WINDOW [31:16], ABANDONED [47:32], BUSY_NAK [63:48] -/
def rXeRxCnt : RegDesc :=
  ⟨"XE_RX_CNT", 0x440010, [], [⟨15,0,.rc,0,65535⟩,
    ⟨31,16,.rc,0,65535⟩,
    ⟨47,32,.rc,0,65535⟩,
    ⟨63,48,.rc,0,65535⟩], 0x0⟩

/-- XE_WIN_CNT: WIN_STALE [31:0], ACCESS_NAK [47:32], GUARD_WAITS [63:48] -/
def rXeWinCnt : RegDesc :=
  ⟨"XE_WIN_CNT", 0x440018, [], [⟨31,0,.rc,0,4294967295⟩,
    ⟨47,32,.rc,0,65535⟩,
    ⟨63,48,.rc,0,65535⟩], 0x0⟩

/-- XE_QP_CNT: ERRORS [15:0], RETRY_EXCEEDED [31:16], DEADLINE_PASSED [47:32] -/
def rXeQpCnt : RegDesc :=
  ⟨"XE_QP_CNT", 0x440020, [], [⟨15,0,.rc,0,65535⟩,
    ⟨31,16,.rc,0,65535⟩,
    ⟨47,32,.rc,0,65535⟩], 0x0⟩

/-- XE_QP_SEL: QP [15:0] -/
def rXeQpSel : RegDesc :=
  ⟨"XE_QP_SEL", 0x440028, [], [⟨15,0,.rw,0,65535⟩], 0x0⟩

/-- XE_QP_INFO: STATE [1:0], CONTEXT [9:2], XE [15:10], REMOTE_EP [35:16], REMOTE_QP [51:36], TC [54:52], OUTSTANDING [63:55] -/
def rXeQpInfo : RegDesc :=
  ⟨"XE_QP_INFO", 0x440030, [], [⟨1,0,.ro,0,3⟩,
    ⟨9,2,.ro,0,255⟩,
    ⟨15,10,.ro,0,63⟩,
    ⟨35,16,.ro,0,1048575⟩,
    ⟨51,36,.ro,0,65535⟩,
    ⟨54,52,.ro,0,7⟩,
    ⟨63,55,.ro,0,511⟩], 0x0⟩

/-- XE_QP_INFO2: TX_MSN [23:0], RX_BASE [47:24], ARMED_HELD [48:48] -/
def rXeQpInfo2 : RegDesc :=
  ⟨"XE_QP_INFO2", 0x440038, [], [⟨23,0,.ro,0,16777215⟩,
    ⟨47,24,.ro,0,16777215⟩,
    ⟨48,48,.ro,0,1⟩], 0x0⟩

/-- XE_WIN_STATUS: WINDOWS [17:0], ARMED_QPS [34:18] -/
def rXeWinStatus : RegDesc :=
  ⟨"XE_WIN_STATUS", 0x440040, [], [⟨17,0,.ro,0,262143⟩,
    ⟨34,18,.ro,0,131071⟩], 0x0⟩

/-- XE_ARM_CTR: COUNT [31:0] -/
def rXeArmCtr : RegDesc :=
  ⟨"XE_ARM_CTR", 0x448000, [(0x8, 4096)], [⟨31,0,.rw,0,4294967295⟩], 0x0⟩

/-- QP_DB_SQ_PI: SQ_PI [31:0] -/
def rQpDbSqPi : RegDesc :=
  ⟨"QP_DB_SQ_PI", 0xC00000, [(0x40, 65536)], [⟨31,0,.wo,0,4294967295⟩], 0x0⟩

/-- QP_DB_CQ_CI: CQ_CI [31:0] -/
def rQpDbCqCi : RegDesc :=
  ⟨"QP_DB_CQ_CI", 0xC00008, [(0x40, 65536)], [⟨31,0,.wo,0,4294967295⟩], 0x0⟩

/-- QP_DB_RX_CI: RX_CI [31:0] -/
def rQpDbRxCi : RegDesc :=
  ⟨"QP_DB_RX_CI", 0xC00010, [(0x40, 65536)], [⟨31,0,.wo,0,4294967295⟩], 0x0⟩

/-- HL_SCORE: HEALTH [15:0], LEVEL [17:16] -/
def rHlScore : RegDesc :=
  ⟨"HL_SCORE", 0xA80000, [(0x8, 60)], [⟨15,0,.ro,0,65535⟩,
    ⟨17,16,.ro,0,3⟩], 0xFFFF⟩

/-- HL_THRESH: WARN [15:0], CRIT [31:16], HYST [47:32] -/
def rHlThresh : RegDesc :=
  ⟨"HL_THRESH", 0xA80200, [], [⟨15,0,.rw,0,65535⟩,
    ⟨31,16,.rw,0,65535⟩,
    ⟨47,32,.rw,0,8192⟩], 0x4004000C000⟩

/-- HL_CTRL: HALF_LIFE_H [15:0], WINDOW_S [27:16] -/
def rHlCtrl : RegDesc :=
  ⟨"HL_CTRL", 0xA80208, [], [⟨15,0,.rw,16,8760⟩,
    ⟨27,16,.rw,1,3600⟩], 0x3C00A8⟩

/-- HL_PROGRESS: RATIO [16:0] -/
def rHlProgress : RegDesc :=
  ⟨"HL_PROGRESS", 0xA80210, [], [⟨16,0,.ro,0,131071⟩], 0x0⟩

/-- HL_USEFUL_NS: NS [63:0] -/
def rHlUsefulNs : RegDesc :=
  ⟨"HL_USEFUL_NS", 0xA80218, [], [⟨63,0,.ro,0,18446744073709551615⟩], 0x0⟩

/-- HL_WALL_NS: NS [63:0] -/
def rHlWallNs : RegDesc :=
  ⟨"HL_WALL_NS", 0xA80220, [], [⟨63,0,.ro,0,18446744073709551615⟩], 0x0⟩

/-- LT_CTRL: HOME_EN [0:0], REBUILD_EN [1:1], MANAGER [2:2] -/
def rLtCtrl : RegDesc :=
  ⟨"LT_CTRL", 0xAA0000, [], [⟨0,0,.rw,0,1⟩,
    ⟨1,1,.rw,0,1⟩,
    ⟨2,2,.rw,0,1⟩], 0x3⟩

/-- LT_HINGE: TIMEOUT_US [19:0], QUERY_US [39:20], ASSIGN_TIMEOUT_MS [55:40] -/
def rLtHinge : RegDesc :=
  ⟨"LT_HINGE", 0xAA0008, [], [⟨19,0,.rw,50,100000⟩,
    ⟨39,20,.rw,10,100000⟩,
    ⟨55,40,.rw,1,60000⟩], 0x3E800064001F4⟩

/-- LT_LEASE: RENEW_MS [15:0], TIMEOUT_MS [31:16], HOME_DEAD_MS [47:32] -/
def rLtLease : RegDesc :=
  ⟨"LT_LEASE", 0xAA0010, [], [⟨15,0,.rw,1,1000⟩,
    ⟨31,16,.rw,0,60000⟩,
    ⟨47,32,.rw,250,60000⟩], 0x1F401900032⟩

/-- LT_COUNT: HOMED [23:0], OWNED [47:24], ORPHAN [63:48] -/
def rLtCount : RegDesc :=
  ⟨"LT_COUNT", 0xAA0018, [], [⟨23,0,.ro,0,16777215⟩,
    ⟨47,24,.ro,0,16777215⟩,
    ⟨63,48,.ro,0,65535⟩], 0x0⟩

/-- LT_HINGE_CNT: OFFERS [15:0], ACCEPTED [31:16], REVERTED [47:32], ASSIGNED [63:48] -/
def rLtHingeCnt : RegDesc :=
  ⟨"LT_HINGE_CNT", 0xAA0020, [], [⟨15,0,.rc,0,65535⟩,
    ⟨31,16,.rc,0,65535⟩,
    ⟨47,32,.rc,0,65535⟩,
    ⟨63,48,.rc,0,65535⟩], 0x0⟩

/-- LT_FENCE_CNT: STALE_WRITES [31:0], EXPIRIES [47:32], BAD_MSG [63:48] -/
def rLtFenceCnt : RegDesc :=
  ⟨"LT_FENCE_CNT", 0xAA0028, [], [⟨31,0,.rc,0,4294967295⟩,
    ⟨47,32,.rc,0,65535⟩,
    ⟨63,48,.rc,0,65535⟩], 0x0⟩

/-- LT_REBUILD_CTRL: RATE_GBS [11:0] -/
def rLtRebuildCtrl : RegDesc :=
  ⟨"LT_REBUILD_CTRL", 0xAA0030, [], [⟨11,0,.rw,1,2400⟩], 0x64⟩

/-- LT_REBUILD_STATUS: ACTIVE [0:0], POSITION [4:1], SEQS_DONE [36:5] -/
def rLtRebuildStatus : RegDesc :=
  ⟨"LT_REBUILD_STATUS", 0xAA0038, [], [⟨0,0,.ro,0,1⟩,
    ⟨4,1,.ro,0,15⟩,
    ⟨36,5,.ro,0,4294967295⟩], 0x0⟩

/-- LT_DEGRADED_CNT: DEGRADED_READS [31:0], LOST [47:32], MIRROR_RESTORES [63:48] -/
def rLtDegradedCnt : RegDesc :=
  ⟨"LT_DEGRADED_CNT", 0xAA0040, [], [⟨31,0,.rc,0,4294967295⟩,
    ⟨47,32,.rc,0,65535⟩,
    ⟨63,48,.rc,0,65535⟩], 0x0⟩

/-- LT_MGR_EP: ENDPOINT [19:0] -/
def rLtMgrEp : RegDesc :=
  ⟨"LT_MGR_EP", 0xAA0048, [], [⟨19,0,.rw,0,1048575⟩], 0x0⟩

/-- LT_MGR_REPLICA: ENDPOINT [19:0], VALID [20:20] -/
def rLtMgrReplica : RegDesc :=
  ⟨"LT_MGR_REPLICA", 0xAA0100, [(0x8, 2)], [⟨19,0,.rw,0,1048575⟩,
    ⟨20,20,.rw,0,1⟩], 0x0⟩

/-- JR_STATUS: LIVE_OPS [13:0], RESOLVED [29:14], BOOT [45:30], SILL_VALID [46:46] -/
def rJrStatus : RegDesc :=
  ⟨"JR_STATUS", 0xAC0000, [], [⟨13,0,.ro,0,16383⟩,
    ⟨29,14,.ro,0,65535⟩,
    ⟨45,30,.ro,0,65535⟩,
    ⟨46,46,.ro,0,1⟩], 0x0⟩

/-- JR_QUERY_ID: OP_ID [47:0] -/
def rJrQueryId : RegDesc :=
  ⟨"JR_QUERY_ID", 0xAC0008, [], [⟨47,0,.rw,0,281474976710655⟩], 0x0⟩

/-- JR_QUERY: KIND [7:0], PHASE [11:8], OUTCOME [13:12], STATUS [29:14] -/
def rJrQuery : RegDesc :=
  ⟨"JR_QUERY", 0xAC0010, [], [⟨7,0,.ro,0,255⟩,
    ⟨11,8,.ro,0,15⟩,
    ⟨13,12,.ro,0,3⟩,
    ⟨29,14,.ro,0,65535⟩], 0x3000⟩

/-- JR_CKPT_CNT: WRITTEN [15:0], SKIPPED [31:16], REPLAYED [47:32] -/
def rJrCkptCnt : RegDesc :=
  ⟨"JR_CKPT_CNT", 0xAC0018, [], [⟨15,0,.rc,0,65535⟩,
    ⟨31,16,.rc,0,65535⟩,
    ⟨47,32,.rc,0,65535⟩], 0x0⟩

/-- MT_CTX: STATE [1:0], FAULT_POLICY [2:2], W_MEM [31:16], COMPOSITION [55:32] -/
def rMtCtx : RegDesc :=
  ⟨"MT_CTX", 0xB00000, [(0x100, 256)], [⟨1,0,.ro,0,3⟩,
    ⟨2,2,.ro,0,1⟩,
    ⟨31,16,.ro,0,65535⟩,
    ⟨55,32,.ro,0,16777215⟩], 0x0⟩

/-- MT_SHARE: W_TE [15:0], W_XE [31:16], W_TU [47:32], W_CU [63:48] -/
def rMtShare : RegDesc :=
  ⟨"MT_SHARE", 0xB00008, [(0x100, 256)], [⟨15,0,.ro,0,65535⟩,
    ⟨31,16,.ro,0,65535⟩,
    ⟨47,32,.ro,0,65535⟩,
    ⟨63,48,.ro,0,65535⟩], 0x0⟩

/-- MT_ALLOC: FRAMES [24:0], SRAM_KIB [43:25], TE_SAVE_KIB [52:44] -/
def rMtAlloc : RegDesc :=
  ⟨"MT_ALLOC", 0xB00010, [(0x100, 256)], [⟨24,0,.ro,0,33554431⟩,
    ⟨43,25,.ro,0,524287⟩,
    ⟨52,44,.ro,0,511⟩], 0x0⟩

/-- MT_SAVE: BASE [43:0] -/
def rMtSave : RegDesc :=
  ⟨"MT_SAVE", 0xB00018, [(0x100, 256)], [⟨43,0,.ro,0,17592186044415⟩], 0x0⟩

/-- MT_FAULT: CAUSE [7:0], UNIT [15:8], CLASS [19:16], REPEATS [35:20], ADDR_HI [63:36] -/
def rMtFault : RegDesc :=
  ⟨"MT_FAULT", 0xB00020, [(0x100, 256)], [⟨7,0,.ro,0,255⟩,
    ⟨15,8,.ro,0,255⟩,
    ⟨19,16,.ro,0,15⟩,
    ⟨35,20,.ro,0,65535⟩,
    ⟨63,36,.ro,0,268435455⟩], 0x0⟩

/-- MT_FAULT_TIME: NS [63:0] -/
def rMtFaultTime : RegDesc :=
  ⟨"MT_FAULT_TIME", 0xB00028, [(0x100, 256)], [⟨63,0,.ro,0,18446744073709551615⟩], 0x0⟩

/-- MT_USE: FRAMES [24:0], SRAM_KIB [43:25] -/
def rMtUse : RegDesc :=
  ⟨"MT_USE", 0xB00030, [(0x100, 256)], [⟨24,0,.ro,0,33554431⟩,
    ⟨43,25,.ro,0,524287⟩], 0x0⟩

/-- MT_STEP_CNT: STEPS [31:0], OVERRUNS [47:32], DEFERRED [63:48] -/
def rMtStepCnt : RegDesc :=
  ⟨"MT_STEP_CNT", 0xB00038, [(0x100, 256)], [⟨31,0,.ro,0,4294967295⟩,
    ⟨47,32,.ro,0,65535⟩,
    ⟨63,48,.ro,0,65535⟩], 0x0⟩

/-- MT_TE_NS: COUNT [63:0] -/
def rMtTeNs : RegDesc :=
  ⟨"MT_TE_NS", 0xB00040, [(0x100, 256)], [⟨63,0,.ro,0,18446744073709551615⟩], 0x0⟩

/-- MT_XE_NS: COUNT [63:0] -/
def rMtXeNs : RegDesc :=
  ⟨"MT_XE_NS", 0xB00048, [(0x100, 256)], [⟨63,0,.ro,0,18446744073709551615⟩], 0x0⟩

/-- MT_TU_NS: COUNT [63:0] -/
def rMtTuNs : RegDesc :=
  ⟨"MT_TU_NS", 0xB00050, [(0x100, 256)], [⟨63,0,.ro,0,18446744073709551615⟩], 0x0⟩

/-- MT_CU_NS: COUNT [63:0] -/
def rMtCuNs : RegDesc :=
  ⟨"MT_CU_NS", 0xB00058, [(0x100, 256)], [⟨63,0,.ro,0,18446744073709551615⟩], 0x0⟩

/-- MT_STACK_BYTES: COUNT [63:0] -/
def rMtStackBytes : RegDesc :=
  ⟨"MT_STACK_BYTES", 0xB00060, [(0x100, 256)], [⟨63,0,.ro,0,18446744073709551615⟩], 0x0⟩

/-- MT_TIER2_BYTES: COUNT [63:0] -/
def rMtTier2Bytes : RegDesc :=
  ⟨"MT_TIER2_BYTES", 0xB00068, [(0x100, 256)], [⟨63,0,.ro,0,18446744073709551615⟩], 0x0⟩

/-- MT_FRAME_MS: COUNT [63:0] -/
def rMtFrameMs : RegDesc :=
  ⟨"MT_FRAME_MS", 0xB00070, [(0x100, 256)], [⟨63,0,.ro,0,18446744073709551615⟩], 0x0⟩

/-- MT_FAB_TX: COUNT [63:0] -/
def rMtFabTx : RegDesc :=
  ⟨"MT_FAB_TX", 0xB00080, [(0x100, 256), (0x8, 8)], [⟨63,0,.ro,0,18446744073709551615⟩], 0x0⟩

/-- MT_FAB_RX: COUNT [63:0] -/
def rMtFabRx : RegDesc :=
  ⟨"MT_FAB_RX", 0xB000C0, [(0x100, 256), (0x8, 8)], [⟨63,0,.ro,0,18446744073709551615⟩], 0x0⟩

/-- GL_METER_MODE: MODE [0:0] -/
def rGlMeterMode : RegDesc :=
  ⟨"GL_METER_MODE", 0x300, [], [⟨0,0,.rw,0,1⟩], 0x0⟩

/-- MT_POOL: FRAMES_AVAIL [24:0], SRAM_AVAIL_KIB [43:25] -/
def rMtPool : RegDesc :=
  ⟨"MT_POOL", 0xB10000, [], [⟨24,0,.ro,0,33554431⟩,
    ⟨43,25,.ro,0,524287⟩], 0x0⟩

/-- MT_SCHED: XE_Q_US [9:0], TU_Q_US [19:10], CU_Q_US [29:20] -/
def rMtSched : RegDesc :=
  ⟨"MT_SCHED", 0xB10008, [], [⟨9,0,.rw,1,1000⟩,
    ⟨19,10,.rw,1,1000⟩,
    ⟨29,20,.rw,1,1000⟩], 0xA0280A⟩

/-- MT_DEFER: DEFER_EN [0:0], MARGIN_NS [31:1] -/
def rMtDefer : RegDesc :=
  ⟨"MT_DEFER", 0xB10010, [], [⟨0,0,.rw,0,1⟩,
    ⟨31,1,.rw,0,2147483647⟩], 0x4E21⟩

/-- MT_COMP_SEL: TAG [23:0] -/
def rMtCompSel : RegDesc :=
  ⟨"MT_COMP_SEL", 0xB10018, [], [⟨23,0,.rw,0,16777215⟩], 0x0⟩

/-- MT_COMP_HELD_NS: NS [63:0] -/
def rMtCompHeldNs : RegDesc :=
  ⟨"MT_COMP_HELD_NS", 0xB10020, [], [⟨63,0,.ro,0,18446744073709551615⟩], 0x0⟩

/-- MT_COMP_ENGINE_NS: NS [63:0] -/
def rMtCompEngineNs : RegDesc :=
  ⟨"MT_COMP_ENGINE_NS", 0xB10028, [], [⟨63,0,.ro,0,18446744073709551615⟩], 0x0⟩

/-- TS_CTRL: RED_BUF_PCT [6:0] -/
def rTsCtrl : RegDesc :=
  ⟨"TS_CTRL", 0x900000, [(0x1000, 24)], [⟨6,0,.ro,0,127⟩], 0x4B⟩

/-- TS_QUANTUM: QUANTUM [17:0], STRICT [18:18] -/
def rTsQuantum : RegDesc :=
  ⟨"TS_QUANTUM", 0x900100, [(0x1000, 24), (0x8, 8)], [⟨17,0,.ro,0,262143⟩,
    ⟨18,18,.ro,0,1⟩], 0x0⟩

/-- TS_SHAPE: RATE_MBS [16:0], BURST [40:17] -/
def rTsShape : RegDesc :=
  ⟨"TS_SHAPE", 0x900200, [(0x1000, 24), (0x8, 8)], [⟨16,0,.ro,0,131071⟩,
    ⟨40,17,.ro,0,16777215⟩], 0x0⟩

/-- TS_POL_C: CIR_MBS [16:0], CBS [40:17], RED_MARK [41:41], AWARE [42:42], ENABLE [43:43] -/
def rTsPolC : RegDesc :=
  ⟨"TS_POL_C", 0x900300, [(0x1000, 24), (0x8, 8)], [⟨16,0,.ro,0,131071⟩,
    ⟨40,17,.ro,0,16777215⟩,
    ⟨41,41,.ro,0,1⟩,
    ⟨42,42,.ro,0,1⟩,
    ⟨43,43,.ro,0,1⟩], 0x0⟩

/-- TS_POL_P: PIR_MBS [16:0], PBS [40:17] -/
def rTsPolP : RegDesc :=
  ⟨"TS_POL_P", 0x900400, [(0x1000, 24), (0x8, 8)], [⟨16,0,.ro,0,131071⟩,
    ⟨40,17,.ro,0,16777215⟩], 0x0⟩

/-- TS_GREEN: COUNT [63:0] -/
def rTsGreen : RegDesc :=
  ⟨"TS_GREEN", 0x900500, [(0x1000, 24), (0x20, 8)], [⟨63,0,.rc,0,18446744073709551615⟩], 0x0⟩

/-- TS_YELLOW: COUNT [63:0] -/
def rTsYellow : RegDesc :=
  ⟨"TS_YELLOW", 0x900508, [(0x1000, 24), (0x20, 8)], [⟨63,0,.rc,0,18446744073709551615⟩], 0x0⟩

/-- TS_RED: COUNT [63:0] -/
def rTsRed : RegDesc :=
  ⟨"TS_RED", 0x900510, [(0x1000, 24), (0x20, 8)], [⟨63,0,.rc,0,18446744073709551615⟩], 0x0⟩

/-- TS_DROP: COUNT [63:0] -/
def rTsDrop : RegDesc :=
  ⟨"TS_DROP", 0x900518, [(0x1000, 24), (0x20, 8)], [⟨63,0,.rc,0,18446744073709551615⟩], 0x0⟩

/-- TS_CTX: RATE_MBS [16:0], BURST [40:17], MODE [42:41] -/
def rTsCtx : RegDesc :=
  ⟨"TS_CTX", 0x920000, [(0x8, 256)], [⟨16,0,.ro,0,131071⟩,
    ⟨40,17,.ro,0,16777215⟩,
    ⟨42,41,.ro,0,3⟩], 0x0⟩

/-- CQ_DB_SQ_TAIL: SQ_TAIL [31:0] -/
def rCqDbSqTail : RegDesc :=
  ⟨"CQ_DB_SQ_TAIL", 0x100000, [(0x40, 256)], [⟨31,0,.wo,0,4294967295⟩], 0x0⟩

/-- CQ_DB_CQ_HEAD: CQ_HEAD [31:0] -/
def rCqDbCqHead : RegDesc :=
  ⟨"CQ_DB_CQ_HEAD", 0x100008, [(0x40, 256)], [⟨31,0,.wo,0,4294967295⟩], 0x0⟩

/-- CQ_CTRL: ENABLE [0:0], CONTEXT [15:8], SQ_LOG2 [20:16], CQ_LOG2 [28:24], VECTOR [42:32], IRQ_EN [43:43] -/
def rCqCtrl : RegDesc :=
  ⟨"CQ_CTRL", 0x110000, [(0x100, 256)], [⟨0,0,.rw,0,1⟩,
    ⟨15,8,.rw,0,255⟩,
    ⟨20,16,.rw,4,16⟩,
    ⟨28,24,.rw,4,16⟩,
    ⟨42,32,.rw,0,2047⟩,
    ⟨43,43,.rw,0,1⟩], 0x4040000⟩

/-- CQ_SQ_BASE: BASE [63:0] -/
def rCqSqBase : RegDesc :=
  ⟨"CQ_SQ_BASE", 0x110008, [(0x100, 256)], [⟨63,0,.rw,0,18446744073709551615⟩], 0x0⟩

/-- CQ_CQ_BASE: BASE [63:0] -/
def rCqCqBase : RegDesc :=
  ⟨"CQ_CQ_BASE", 0x110010, [(0x100, 256)], [⟨63,0,.rw,0,18446744073709551615⟩], 0x0⟩

/-- CQ_STATUS: SQ_HEAD [31:0], CQ_TAIL [63:32] -/
def rCqStatus : RegDesc :=
  ⟨"CQ_STATUS", 0x110018, [(0x100, 256)], [⟨31,0,.ro,0,4294967295⟩,
    ⟨63,32,.ro,0,4294967295⟩], 0x0⟩

/-- CQ_ERR: DOORBELL [0:0], RING_ACCESS [1:1], STOPPED [2:2] -/
def rCqErr : RegDesc :=
  ⟨"CQ_ERR", 0x110020, [(0x100, 256)], [⟨0,0,.w1c,0,1⟩,
    ⟨1,1,.w1c,0,1⟩,
    ⟨2,2,.ro,0,1⟩], 0x0⟩

/-- EQ_CTRL: ENABLE [0:0], LOG2 [5:1], VECTOR [16:6], IRQ_EN [17:17] -/
def rEqCtrl : RegDesc :=
  ⟨"EQ_CTRL", 0x120000, [(0x40, 64)], [⟨0,0,.rw,0,1⟩,
    ⟨5,1,.rw,4,16⟩,
    ⟨16,6,.rw,0,2047⟩,
    ⟨17,17,.rw,0,1⟩], 0x8⟩

/-- EQ_BASE: BASE [63:0] -/
def rEqBase : RegDesc :=
  ⟨"EQ_BASE", 0x120008, [(0x40, 64)], [⟨63,0,.rw,0,18446744073709551615⟩], 0x0⟩

/-- EQ_HEAD: HEAD [31:0] -/
def rEqHead : RegDesc :=
  ⟨"EQ_HEAD", 0x120010, [(0x40, 64)], [⟨31,0,.wo,0,4294967295⟩], 0x0⟩

/-- EQ_STATUS: TAIL [31:0], HELD [47:32], LOST [63:48] -/
def rEqStatus : RegDesc :=
  ⟨"EQ_STATUS", 0x120018, [(0x40, 64)], [⟨31,0,.ro,0,4294967295⟩,
    ⟨47,32,.ro,0,65535⟩,
    ⟨63,48,.rc,0,65535⟩], 0x0⟩

/-- CQ_EQ_MAP: EQ [5:0] -/
def rCqEqMap : RegDesc :=
  ⟨"CQ_EQ_MAP", 0x121000, [(0x8, 256)], [⟨5,0,.rw,0,63⟩], 0x0⟩

/-- CQ_TXN_CTRL: TIMEOUT_MS [16:0] -/
def rCqTxnCtrl : RegDesc :=
  ⟨"CQ_TXN_CTRL", 0x122000, [], [⟨16,0,.rw,1,100000⟩], 0x64⟩

/-- CQ_TXN_STATUS: OPEN [3:0], COMMITTED [19:4], FAILED [35:20] -/
def rCqTxnStatus : RegDesc :=
  ⟨"CQ_TXN_STATUS", 0x122008, [], [⟨3,0,.ro,0,15⟩,
    ⟨19,4,.rc,0,65535⟩,
    ⟨35,20,.rc,0,65535⟩], 0x0⟩

/-- CQ_PLAN_STATUS: LOADED [12:0] -/
def rCqPlanStatus : RegDesc :=
  ⟨"CQ_PLAN_STATUS", 0x122010, [], [⟨12,0,.ro,0,8191⟩], 0x0⟩

/-- GL_MODE: MODE [1:0], ROLE [3:2] -/
def rGlMode : RegDesc :=
  ⟨"GL_MODE", 0x18, [], [⟨1,0,.ro,0,3⟩,
    ⟨3,2,.ro,0,3⟩], 0x1⟩

/-- IC_SRC: HOST_PRI [7:0], CORE_PRI [15:8], VECTOR [26:16], HOST_EN [27:27], CORE [30:28], CORE_EN [31:31], TYPE [32:32], HOST_PEND [33:33], CORE_PEND [34:34], ASSERTED [35:35], ACTIVE [36:36] -/
def rIcSrc : RegDesc :=
  ⟨"IC_SRC", 0x200000, [(0x8, 1024)], [⟨7,0,.rw,0,255⟩,
    ⟨15,8,.rw,0,255⟩,
    ⟨26,16,.rw,0,2047⟩,
    ⟨27,27,.rw,0,1⟩,
    ⟨30,28,.rw,0,5⟩,
    ⟨31,31,.rw,0,1⟩,
    ⟨32,32,.ro,0,1⟩,
    ⟨33,33,.w1c,0,1⟩,
    ⟨34,34,.ro,0,1⟩,
    ⟨35,35,.ro,0,1⟩,
    ⟨36,36,.ro,0,1⟩], 0x0⟩

/-- IC_VEC: MOD_COUNT [7:0], MOD_TIME_US [17:8], AUTO_EOI [18:18], IN_SERVICE [19:19], REQUESTED [20:20], SENT [47:32] -/
def rIcVec : RegDesc :=
  ⟨"IC_VEC", 0x204000, [(0x8, 2048)], [⟨7,0,.rw,0,255⟩,
    ⟨17,8,.rw,0,1000⟩,
    ⟨18,18,.rw,0,1⟩,
    ⟨19,19,.ro,0,1⟩,
    ⟨20,20,.ro,0,1⟩,
    ⟨47,32,.rc,0,65535⟩], 0x0⟩

/-- IC_HOST_CAUSE: SOURCES [63:0] -/
def rIcHostCause : RegDesc :=
  ⟨"IC_HOST_CAUSE", 0x208000, [(0x8, 16)], [⟨63,0,.rc,0,18446744073709551615⟩], 0x0⟩

/-- HP_IDLE_HINT: IDLE [63:0] -/
def rHpIdleHint : RegDesc :=
  ⟨"HP_IDLE_HINT", 0x208100, [(0x8, 32)], [⟨63,0,.rw,0,18446744073709551615⟩], 0x0⟩

/-- IC_PRIGROUP: GROUP_BITS [3:0] -/
def rIcPrigroup : RegDesc :=
  ⟨"IC_PRIGROUP", 0x209000, [], [⟨3,0,.rw,1,8⟩], 0x3⟩

/-- IC_HOST_EOI: VECTOR [10:0] -/
def rIcHostEoi : RegDesc :=
  ⟨"IC_HOST_EOI", 0x209008, [], [⟨10,0,.wo,0,2047⟩], 0x0⟩

/-- IC_ERR: HOST_EOI [0:0], CORE_EOI [1:1], ROUTE [2:2] -/
def rIcErr : RegDesc :=
  ⟨"IC_ERR", 0x209010, [], [⟨0,0,.w1c,0,1⟩,
    ⟨1,1,.w1c,0,1⟩,
    ⟨2,2,.w1c,0,1⟩], 0x0⟩

/-- IC_CORE_CLAIM: CLAIM [15:0] -/
def rIcCoreClaim : RegDesc :=
  ⟨"IC_CORE_CLAIM", 0x20A000, [(0x40, 6)], [⟨15,0,.ro,0,65535⟩], 0xFFFF⟩

/-- IC_CORE_EOI: EOI [9:0] -/
def rIcCoreEoi : RegDesc :=
  ⟨"IC_CORE_EOI", 0x20A008, [(0x40, 6)], [⟨9,0,.wo,0,1023⟩], 0x0⟩

/-- IC_CORE_MASK: GLOBAL [0:0], THRESHOLD [15:8] -/
def rIcCoreMask : RegDesc :=
  ⟨"IC_CORE_MASK", 0x20A010, [(0x40, 6)], [⟨0,0,.rw,0,1⟩,
    ⟨15,8,.rw,0,255⟩], 0xFF01⟩

/-- IC_CORE_STACK: DEPTH [3:0], RUNNING [11:4] -/
def rIcCoreStack : RegDesc :=
  ⟨"IC_CORE_STACK", 0x20A018, [(0x40, 6)], [⟨3,0,.ro,0,15⟩,
    ⟨11,4,.ro,0,255⟩], 0xFF0⟩

/-- IC_CORE_STATUS: WFI [0:0] -/
def rIcCoreStatus : RegDesc :=
  ⟨"IC_CORE_STATUS", 0x20A020, [(0x40, 6)], [⟨0,0,.ro,0,1⟩], 0x0⟩

/-- IC_CORE_MOD: MOD_COUNT [7:0], MOD_TIME_US [17:8] -/
def rIcCoreMod : RegDesc :=
  ⟨"IC_CORE_MOD", 0x20A028, [(0x40, 6)], [⟨7,0,.rw,0,255⟩,
    ⟨17,8,.rw,0,1000⟩], 0x0⟩

/-- SP_RET_CTRL: IDLE_US [15:0] -/
def rSpRetCtrl : RegDesc :=
  ⟨"SP_RET_CTRL", 0x980000, [], [⟨15,0,.rw,10,65535⟩], 0x64⟩

/-- SP_ECC_CNT: CORRECTED [31:0], UNCORRECTED [47:32] -/
def rSpEccCnt : RegDesc :=
  ⟨"SP_ECC_CNT", 0x980008, [], [⟨31,0,.rc,0,4294967295⟩,
    ⟨47,32,.rc,0,65535⟩], 0x0⟩

/-- SP_ERR: APT_INVALID [0:0], APT_MISS [1:1], ECC_UNCORR [2:2] -/
def rSpErr : RegDesc :=
  ⟨"SP_ERR", 0x980010, [], [⟨0,0,.w1c,0,1⟩,
    ⟨1,1,.w1c,0,1⟩,
    ⟨2,2,.w1c,0,1⟩], 0x0⟩

/-- SP_ECC_ADDR: ADDR [43:0], VALID [63:63] -/
def rSpEccAddr : RegDesc :=
  ⟨"SP_ECC_ADDR", 0x980018, [], [⟨43,0,.ro,0,17592186044415⟩,
    ⟨63,63,.w1c,0,1⟩], 0x0⟩

/-- SP_APT_CNT: MISSES [31:0] -/
def rSpAptCnt : RegDesc :=
  ⟨"SP_APT_CNT", 0x980020, [], [⟨31,0,.rc,0,4294967295⟩], 0x0⟩

/-- SP_BANK_PWR: AUTO [63:0] -/
def rSpBankPwr : RegDesc :=
  ⟨"SP_BANK_PWR", 0x980100, [(0x8, 8)], [⟨63,0,.rw,0,18446744073709551615⟩], 0x0⟩

/-- SP_BANK_STATE: STATE [63:0] -/
def rSpBankState : RegDesc :=
  ⟨"SP_BANK_STATE", 0x980140, [(0x8, 8)], [⟨63,0,.ro,0,18446744073709551615⟩], 0x0⟩

/-- SP_APT0: BASE [16:0], SIZE [35:18] -/
def rSpApt0 : RegDesc :=
  ⟨"SP_APT0", 0x981000, [(0x20, 256)], [⟨16,0,.rw,0,131071⟩,
    ⟨35,18,.rw,0,262143⟩], 0x0⟩

/-- SP_APT1: TARGET [43:0] -/
def rSpApt1 : RegDesc :=
  ⟨"SP_APT1", 0x981008, [(0x20, 256)], [⟨43,0,.rw,0,17592186044415⟩], 0x0⟩

/-- SP_APT2: ENABLE [0:0], READ [1:1], WRITE [2:2], CONTEXT [10:3], CTR_EN [11:11], CTR [15:12] -/
def rSpApt2 : RegDesc :=
  ⟨"SP_APT2", 0x981010, [(0x20, 256)], [⟨0,0,.rw,0,1⟩,
    ⟨1,1,.rw,0,1⟩,
    ⟨2,2,.rw,0,1⟩,
    ⟨10,3,.rw,0,255⟩,
    ⟨11,11,.rw,0,1⟩,
    ⟨15,12,.rw,0,15⟩], 0x0⟩

/-- SP_CTX_SRAM0: BASE [43:0], SIZE_KIB [61:44] -/
def rSpCtxSram0 : RegDesc :=
  ⟨"SP_CTX_SRAM0", 0x983000, [(0x10, 256)], [⟨43,0,.ro,0,17592186044415⟩,
    ⟨61,44,.ro,0,262143⟩], 0x0⟩

/-- SP_CTX_SRAM1: BASE [43:0], SIZE_KIB [61:44] -/
def rSpCtxSram1 : RegDesc :=
  ⟨"SP_CTX_SRAM1", 0x983008, [(0x10, 256)], [⟨43,0,.ro,0,17592186044415⟩,
    ⟨61,44,.ro,0,262143⟩], 0x0⟩

/-- SC_LC: STATE [2:0], SEC_VERSION [15:8] -/
def rScLc : RegDesc :=
  ⟨"SC_LC", 0xA00000, [], [⟨2,0,.ro,0,7⟩,
    ⟨15,8,.ro,0,255⟩], 0x0⟩

/-- SC_LC_CTRL: GO [0:0] -/
def rScLcCtrl : RegDesc :=
  ⟨"SC_LC_CTRL", 0xA00008, [], [⟨0,0,.wo,0,1⟩], 0x0⟩

/-- SC_LC_STATUS: BUSY [0:0], DETAIL [23:16], STATUS [47:32] -/
def rScLcStatus : RegDesc :=
  ⟨"SC_LC_STATUS", 0xA00010, [], [⟨0,0,.ro,0,1⟩,
    ⟨23,16,.ro,0,255⟩,
    ⟨47,32,.ro,0,65535⟩], 0x0⟩

/-- SC_LC_NONCE: VALUE [63:0] -/
def rScLcNonce : RegDesc :=
  ⟨"SC_LC_NONCE", 0xA00018, [], [⟨63,0,.ro,0,18446744073709551615⟩], 0x0⟩

/-- SC_DEVICE_ID: VALUE [63:0] -/
def rScDeviceId : RegDesc :=
  ⟨"SC_DEVICE_ID", 0xA00048, [], [⟨63,0,.ro,0,18446744073709551615⟩], 0x0⟩

/-- SC_TAMPER: LATCHED [3:0], ACTIVE [11:8], WIPES [31:16] -/
def rScTamper : RegDesc :=
  ⟨"SC_TAMPER", 0xA00020, [], [⟨3,0,.w1c,0,15⟩,
    ⟨11,8,.ro,0,15⟩,
    ⟨31,16,.ro,0,65535⟩], 0x0⟩

/-- SC_TAMPER_CTRL: ENABLE [3:0], RESET_ON [7:4], LID_LEVEL [8:8], LOCK [9:9] -/
def rScTamperCtrl : RegDesc :=
  ⟨"SC_TAMPER_CTRL", 0xA00028, [], [⟨3,0,.rwl,0,15⟩,
    ⟨7,4,.rwl,0,15⟩,
    ⟨8,8,.rwl,0,1⟩,
    ⟨9,9,.w1s,0,1⟩], 0x7F⟩

/-- SC_BOOT: SLOT [0:0], STATUS [3:1], POLICY_BAD [4:4], IMAGE_SEC_VERSION [15:8] -/
def rScBoot : RegDesc :=
  ⟨"SC_BOOT", 0xA00030, [], [⟨0,0,.ro,0,1⟩,
    ⟨3,1,.ro,0,7⟩,
    ⟨4,4,.ro,0,1⟩,
    ⟨15,8,.ro,0,255⟩], 0x0⟩

/-- SC_KEY_STATUS: GROUP [15:0], PHASE0 [16:16], PHASE1 [17:17], TX_PHASE [18:18] -/
def rScKeyStatus : RegDesc :=
  ⟨"SC_KEY_STATUS", 0xA00038, [], [⟨15,0,.ro,0,65535⟩,
    ⟨16,16,.ro,0,1⟩,
    ⟨17,17,.ro,0,1⟩,
    ⟨18,18,.ro,0,1⟩], 0x0⟩

/-- SC_SPDM_CNT: SESSIONS [2:0], CHALLENGES [31:16], ERRORS [47:32] -/
def rScSpdmCnt : RegDesc :=
  ⟨"SC_SPDM_CNT", 0xA00040, [], [⟨2,0,.ro,0,7⟩,
    ⟨31,16,.rc,0,65535⟩,
    ⟨47,32,.rc,0,65535⟩], 0x0⟩

/-- SC_LC_TOKEN: WORD [63:0] -/
def rScLcToken : RegDesc :=
  ⟨"SC_LC_TOKEN", 0xA00100, [(0x8, 36)], [⟨63,0,.rw,0,18446744073709551615⟩], 0x0⟩

/-- SC_DB_GRANT: CONTEXT [7:0], OFFSET [14:8], SIZE [22:15], READ [23:23], WRITE [24:24], VALID [25:25] -/
def rScDbGrant : RegDesc :=
  ⟨"SC_DB_GRANT", 0xA00400, [(0x8, 16)], [⟨7,0,.ro,0,255⟩,
    ⟨14,8,.ro,0,127⟩,
    ⟨22,15,.ro,0,255⟩,
    ⟨23,23,.ro,0,1⟩,
    ⟨24,24,.ro,0,1⟩,
    ⟨25,25,.ro,0,1⟩], 0x0⟩

/-- PM_STATUS: SPRINT [0:0], WIND_DOWN [1:1], CAP_PACING [2:2], THERM_PACING [3:3], TELEMETRY_OK [4:4], HOTTEST_C [15:8], PKG_W [27:16], SE_A [39:28] -/
def rPmStatus : RegDesc :=
  ⟨"PM_STATUS", 0x300000, [], [⟨0,0,.ro,0,1⟩,
    ⟨1,1,.ro,0,1⟩,
    ⟨2,2,.ro,0,1⟩,
    ⟨3,3,.ro,0,1⟩,
    ⟨4,4,.ro,0,1⟩,
    ⟨15,8,.ro,0,255⟩,
    ⟨27,16,.ro,0,4095⟩,
    ⟨39,28,.ro,0,4095⟩], 0x0⟩

/-- PM_SPRINT_CTRL: ENABLE [0:0], MIN_GRANT_MS [31:16], REARM_C [39:32] -/
def rPmSprintCtrl : RegDesc :=
  ⟨"PM_SPRINT_CTRL", 0x300008, [], [⟨0,0,.rw,0,1⟩,
    ⟨31,16,.rw,1,60000⟩,
    ⟨39,32,.rw,1,30⟩], 0xA00640001⟩

/-- PM_SPRINT_REMAIN: REMAIN_MS [23:0], THERMAL_MS [47:24] -/
def rPmSprintRemain : RegDesc :=
  ⟨"PM_SPRINT_REMAIN", 0x300010, [], [⟨23,0,.ro,0,16777215⟩,
    ⟨47,24,.ro,0,16777215⟩], 0x0⟩

/-- PM_WEAR: USED_S [13:0], BUDGET_S [27:14], SLOT [34:28] -/
def rPmWear : RegDesc :=
  ⟨"PM_WEAR", 0x300018, [], [⟨13,0,.ro,0,16383⟩,
    ⟨27,14,.ro,0,16383⟩,
    ⟨34,28,.ro,0,127⟩], 0xCA80000⟩

/-- PM_SPRINT_CNT: GRANTED [15:0], DENIED [31:16], LAST_CAUSE [35:32] -/
def rPmSprintCnt : RegDesc :=
  ⟨"PM_SPRINT_CNT", 0x300020, [], [⟨15,0,.rc,0,65535⟩,
    ⟨31,16,.rc,0,65535⟩,
    ⟨35,32,.ro,0,15⟩], 0x0⟩

/-- PM_CAP: CAP_W [10:0], LIMIT_W [26:16] -/
def rPmCap : RegDesc :=
  ⟨"PM_CAP", 0x300028, [], [⟨10,0,.ro,0,2047⟩,
    ⟨26,16,.ro,0,2047⟩], 0x44C0000⟩

/-- PM_PACE: TE_DUTY [8:0], STACK_DUTY [17:9], PACED_MS [63:32] -/
def rPmPace : RegDesc :=
  ⟨"PM_PACE", 0x300030, [], [⟨8,0,.ro,0,511⟩,
    ⟨17,9,.ro,0,511⟩,
    ⟨63,32,.rc,0,4294967295⟩], 0x20100⟩

/-- PM_THERM: LIMIT_C [6:0], STACK_LIMIT_C [14:8] -/
def rPmTherm : RegDesc :=
  ⟨"PM_THERM", 0x300038, [], [⟨6,0,.rw,85,105⟩,
    ⟨14,8,.rw,80,95⟩], 0x5F69⟩

/-- PM_THERM_MODEL: TAU_MS [15:0], R_PKG_MKW [27:16], R_SE_MKW [39:28] -/
def rPmThermModel : RegDesc :=
  ⟨"PM_THERM_MODEL", 0x300040, [], [⟨15,0,.ro,0,65535⟩,
    ⟨27,16,.ro,0,4095⟩,
    ⟨39,28,.ro,0,4095⟩], 0xBC014125C⟩

/-- PM_ELEC: SE_RATED_A [11:0], SE_EXCURSION_A [23:12], EXCURSION_CNT [39:24] -/
def rPmElec : RegDesc :=
  ⟨"PM_ELEC", 0x300048, [], [⟨11,0,.ro,0,4095⟩,
    ⟨23,12,.ro,0,4095⟩,
    ⟨39,24,.rc,0,65535⟩], 0x6D6000⟩

/-- PM_VSE: NOM_MV [9:0], SPR_MV [19:10], NOW_MV [29:20] -/
def rPmVse : RegDesc :=
  ⟨"PM_VSE", 0x300050, [], [⟨9,0,.ro,0,1023⟩,
    ⟨19,10,.ro,0,1023⟩,
    ⟨29,20,.ro,0,1023⟩], 0x0⟩

/-- PM_SLEEP: PLL_STOP_EN [0:0], STACK_SR_EN [1:1], PLL_IDLE_MS [31:16], SR_IDLE_US [47:32] -/
def rPmSleep : RegDesc :=
  ⟨"PM_SLEEP", 0x300058, [], [⟨0,0,.rw,0,1⟩,
    ⟨1,1,.rw,0,1⟩,
    ⟨31,16,.rw,1,60000⟩,
    ⟨47,32,.rw,10,65535⟩], 0x64000A0000⟩

/-- PM_HOLDUP_REQ: REQ_MJ [15:0] -/
def rPmHoldupReq : RegDesc :=
  ⟨"PM_HOLDUP_REQ", 0x300060, [], [⟨15,0,.rw,0,65535⟩], 0x9C4⟩

/-- PM_HOLDUP_CFG: SOURCE [1:0], VR [5:2], CAP_MF [21:6], VMIN_MV [37:22], DIV_X16 [45:38] -/
def rPmHoldupCfg : RegDesc :=
  ⟨"PM_HOLDUP_CFG", 0x300068, [], [⟨1,0,.rw,0,2⟩,
    ⟨5,2,.rw,0,15⟩,
    ⟨21,6,.rw,0,65535⟩,
    ⟨37,22,.rw,0,65535⟩,
    ⟨45,38,.rw,16,255⟩], 0x40000000000⟩

/-- PM_HOLDUP_STATUS: ENERGY_MJ [15:0], OK [16:16], REFUSED [47:32] -/
def rPmHoldupStatus : RegDesc :=
  ⟨"PM_HOLDUP_STATUS", 0x300070, [], [⟨15,0,.ro,0,65535⟩,
    ⟨16,16,.ro,0,1⟩,
    ⟨47,32,.rc,0,65535⟩], 0x0⟩

/-- PM_ENERGY: MJ [63:0] -/
def rPmEnergy : RegDesc :=
  ⟨"PM_ENERGY", 0x300078, [], [⟨63,0,.ro,0,18446744073709551615⟩], 0x0⟩

/-- PM_DIE_TEMP: MAX_C [7:0], PEAK_C [15:8] -/
def rPmDieTemp : RegDesc :=
  ⟨"PM_DIE_TEMP", 0x300100, [(0x8, 12)], [⟨7,0,.ro,0,255⟩,
    ⟨15,8,.rc,0,255⟩], 0x0⟩

/-- PM_VR0: ADDR [6:0], PAGE [14:7], RAIL [18:15], VALID [19:19], RATED_A [31:20] -/
def rPmVr0 : RegDesc :=
  ⟨"PM_VR0", 0x300200, [(0x10, 16)], [⟨6,0,.ro,0,127⟩,
    ⟨14,7,.ro,0,255⟩,
    ⟨18,15,.ro,0,15⟩,
    ⟨19,19,.ro,0,1⟩,
    ⟨31,20,.ro,0,4095⟩], 0x0⟩

/-- PM_VR1: VOUT_MV [15:0], IOUT_A [27:16], POUT_W [39:28], TEMP_C [47:40], MISSED [55:48] -/
def rPmVr1 : RegDesc :=
  ⟨"PM_VR1", 0x300208, [(0x10, 16)], [⟨15,0,.ro,0,65535⟩,
    ⟨27,16,.ro,0,4095⟩,
    ⟨39,28,.ro,0,4095⟩,
    ⟨47,40,.ro,0,255⟩,
    ⟨55,48,.ro,0,255⟩], 0x0⟩

/-- GL_STATUS: READY [0:0], SHUTTER [2:1], REF_LOSS [3:3], D2D_FAILED [4:4], RESET_STORM [5:5], HOST_LOST [6:6], PHASE [15:8], RAIL_FAULT [23:16] -/
def rGlStatus : RegDesc :=
  ⟨"GL_STATUS", 0x8, [], [⟨0,0,.ro,0,1⟩,
    ⟨2,1,.ro,0,3⟩,
    ⟨3,3,.ro,0,1⟩,
    ⟨4,4,.ro,0,1⟩,
    ⟨5,5,.ro,0,1⟩,
    ⟨6,6,.ro,0,1⟩,
    ⟨15,8,.ro,0,255⟩,
    ⟨23,16,.ro,0,255⟩], 0x0⟩

/-- GL_RESET_CAUSE: LAST [3:0], FATAL_CODE [11:4], WARM_COUNT [27:12], THERM_TRIP [28:28] -/
def rGlResetCause : RegDesc :=
  ⟨"GL_RESET_CAUSE", 0x10, [], [⟨3,0,.ro,0,15⟩,
    ⟨11,4,.ro,0,255⟩,
    ⟨27,12,.ro,0,65535⟩,
    ⟨28,28,.ro,0,1⟩], 0x0⟩

/-- GL_ERR: RSVD_WRITE [0:0] -/
def rGlErr : RegDesc :=
  ⟨"GL_ERR", 0x20, [], [⟨0,0,.w1c,0,1⟩], 0x0⟩

/-- GL_READY_TIME: US [31:0] -/
def rGlReadyTime : RegDesc :=
  ⟨"GL_READY_TIME", 0x28, [], [⟨31,0,.ro,0,4294967295⟩], 0x0⟩

/-- GL_HOTPLUG: HOST_LOSS_MS [15:0], AUTO_CLOSE_EN [16:16] -/
def rGlHotplug : RegDesc :=
  ⟨"GL_HOTPLUG", 0x30, [], [⟨15,0,.rw,10,60000⟩,
    ⟨16,16,.rw,0,1⟩], 0x103E8⟩

/-- GL_SHUTTER: SUCCESSOR [19:0], SUCCESSOR_EN [20:20], HANDED_OFF [39:21], RELEASED [58:40] -/
def rGlShutter : RegDesc :=
  ⟨"GL_SHUTTER", 0x38, [], [⟨19,0,.rw,0,1048575⟩,
    ⟨20,20,.rw,0,1⟩,
    ⟨39,21,.ro,0,524287⟩,
    ⟨58,40,.ro,0,524287⟩], 0x0⟩

/-- GL_STRAP: AUX0_MODE [0:0], AUX1_MODE [1:1], MB_MODE [2:2], MB_ADDR [4:3] -/
def rGlStrap : RegDesc :=
  ⟨"GL_STRAP", 0x40, [], [⟨0,0,.ro,0,1⟩,
    ⟨1,1,.ro,0,1⟩,
    ⟨2,2,.ro,0,1⟩,
    ⟨4,3,.ro,0,3⟩], 0x0⟩

/-- GL_PORT_STATUS: STATE [1:0], RATE [3:2], WIDTH [8:4], MODE [10:9], FLIT [11:11], DEVICES [15:12], CORR_CNT [47:16], LINK_DOWNS [63:48] -/
def rGlPortStatus : RegDesc :=
  ⟨"GL_PORT_STATUS", 0x400, [(0x8, 4)], [⟨1,0,.ro,0,3⟩,
    ⟨3,2,.ro,0,3⟩,
    ⟨8,4,.ro,0,31⟩,
    ⟨10,9,.ro,0,3⟩,
    ⟨11,11,.ro,0,1⟩,
    ⟨15,12,.ro,0,15⟩,
    ⟨47,16,.rc,0,4294967295⟩,
    ⟨63,48,.rc,0,65535⟩], 0x0⟩

/-- GL_ID: VENDOR [15:0], PART [31:16], REVISION [39:32] -/
def rGlId : RegDesc :=
  ⟨"GL_ID", 0x0, [], [⟨15,0,.ro,0,65535⟩,
    ⟨31,16,.ro,0,65535⟩,
    ⟨39,32,.ro,0,255⟩], 0x124004D4C⟩

/-- Registers of R474, part 1. -/
def regsPart1 : List RegDesc :=
  [rGlD2dStatus, rPgCtrl, rPgStatus, rPgSeqStatus, rPgFreeWm, rPgTailCtrl, rPgReclaim, rPgDescBase, rPgFrameUse, rPgFallbackCnt, rPgCowCnt, rPgErr, rPgFrameSel, rPgFrameInfo, rTeCtrl, rTeStatus, rTeContext, rTeFault, rTeFaultAddr, rTeBusyNs, rTePwr, rTeId, rTeTileCnt, rTeParity, rTeNumctl, rTeSrseed, rTeNumstat, rTeSatcnt, rTeAttnCtrl, rTePaneSent, rTePaneMerged, rTePaneEvtCnt, rTePaneLat, rTeAttnErr, rTuCtrl, rCuCtrl, rTuStatus, rCuStatus, rTuContext, rCuContext]

/-- Registers of R474, part 2. -/
def regsPart2 : List RegDesc :=
  [rTuFault, rCuFault, rTuFaultAddr, rCuFaultAddr, rTuBusyNs, rCuBusyNs, rTuPwr, rCuPwr, rTuId, rCuId, rTuPosCnt, rCuBytes, rCuCheckCnt, rTuSpecCtrl, rTuSpecCnt, rTuEvtCnt, rTuGrammarMap, rTuImgStatus, rTuAdpStatus, rTuSwitchLat, rMcCtrl, rMcStatus, rMcTrain, rMcEccCnt, rMcEccAddr, rMcEccCtrl, rMcScrub, rMcRepair, rMcBytes, rMcTierCtrl, rMcTierStatus, rMcTierPorts, rMcPauseCnt, rMcTierPolicy, rMcTierCnt, rMcTierUse, rEpCtrl, rEpStatus, rEpLinkCtrl, rEpTrain]

/-- Registers of R474, part 3. -/
def regsPart3 : List RegDesc :=
  [rEpFecCnt, rEpTxBytes, rEpRxBytes, rEpTxPkts, rEpRxPkts, rEpRxDrop0, rEpRxDrop1, rEpCrypt, rEpRetx, rEpSelf, rEpTxCtrl, rEpLife, rEpCcCtrl, rEpCcWnd, rEpCcPath, rEpCcCnt, rEpTimeCtrl, rEpTimeStatus, rEpTimeNow, rEpTimeSet, rEpRoute, rFlCtrl, rFlLoadTimeout, rFlAtomicRetry, rFlDeadHold, rFlAccessCnt, rFlFaultCnt, rFlAtomicCache, rFlAtomicCnt, rFlRegions, rFlSeqCnt, rFlDomain, rFlQuad, rFlQuadStatus, rFlCtx, rXeCtrl, rXeStatus, rXeContext, rXeFault, rXeFaultAddr]

/-- Registers of R474, part 4. -/
def regsPart4 : List RegDesc :=
  [rXeBusyNs, rXePwr, rXeId, rXeLoad, rXeMsgCnt, rXeRetxCnt, rXeQpCfg, rXeTrack, rXeRxCnt, rXeWinCnt, rXeQpCnt, rXeQpSel, rXeQpInfo, rXeQpInfo2, rXeWinStatus, rXeArmCtr, rQpDbSqPi, rQpDbCqCi, rQpDbRxCi, rHlScore, rHlThresh, rHlCtrl, rHlProgress, rHlUsefulNs, rHlWallNs, rLtCtrl, rLtHinge, rLtLease, rLtCount, rLtHingeCnt, rLtFenceCnt, rLtRebuildCtrl, rLtRebuildStatus, rLtDegradedCnt, rLtMgrEp, rLtMgrReplica, rJrStatus, rJrQueryId, rJrQuery, rJrCkptCnt]

/-- Registers of R474, part 5. -/
def regsPart5 : List RegDesc :=
  [rMtCtx, rMtShare, rMtAlloc, rMtSave, rMtFault, rMtFaultTime, rMtUse, rMtStepCnt, rMtTeNs, rMtXeNs, rMtTuNs, rMtCuNs, rMtStackBytes, rMtTier2Bytes, rMtFrameMs, rMtFabTx, rMtFabRx, rGlMeterMode, rMtPool, rMtSched, rMtDefer, rMtCompSel, rMtCompHeldNs, rMtCompEngineNs, rTsCtrl, rTsQuantum, rTsShape, rTsPolC, rTsPolP, rTsGreen, rTsYellow, rTsRed, rTsDrop, rTsCtx, rCqDbSqTail, rCqDbCqHead, rCqCtrl, rCqSqBase, rCqCqBase, rCqStatus]

/-- Registers of R474, part 6. -/
def regsPart6 : List RegDesc :=
  [rCqErr, rEqCtrl, rEqBase, rEqHead, rEqStatus, rCqEqMap, rCqTxnCtrl, rCqTxnStatus, rCqPlanStatus, rGlMode, rIcSrc, rIcVec, rIcHostCause, rHpIdleHint, rIcPrigroup, rIcHostEoi, rIcErr, rIcCoreClaim, rIcCoreEoi, rIcCoreMask, rIcCoreStack, rIcCoreStatus, rIcCoreMod, rSpRetCtrl, rSpEccCnt, rSpErr, rSpEccAddr, rSpAptCnt, rSpBankPwr, rSpBankState, rSpApt0, rSpApt1, rSpApt2, rSpCtxSram0, rSpCtxSram1, rScLc, rScLcCtrl, rScLcStatus, rScLcNonce, rScDeviceId]

/-- Registers of R474, part 7. -/
def regsPart7 : List RegDesc :=
  [rScTamper, rScTamperCtrl, rScBoot, rScKeyStatus, rScSpdmCnt, rScLcToken, rScDbGrant, rPmStatus, rPmSprintCtrl, rPmSprintRemain, rPmWear, rPmSprintCnt, rPmCap, rPmPace, rPmTherm, rPmThermModel, rPmElec, rPmVse, rPmSleep, rPmHoldupReq, rPmHoldupCfg, rPmHoldupStatus, rPmEnergy, rPmDieTemp, rPmVr0, rPmVr1, rGlStatus, rGlResetCause, rGlErr, rGlReadyTime, rGlHotplug, rGlShutter, rGlStrap, rGlPortStatus, rGlId]

/-- Every register of BAR0 (R474): no other address holds one (R469). -/
def allRegs : List RegDesc :=
  regsPart1 ++ regsPart2 ++ regsPart3 ++ regsPart4 ++ regsPart5 ++ regsPart6 ++ regsPart7

/-- Address of a register with no index. -/
def ra0 (d : RegDesc) : Nat := d.base

/-- Address of instance i of a register. -/
def ra1 (d : RegDesc) (i : Nat) : Nat :=
  match d.dims with
  | (st, _) :: _ => d.base + i * st
  | [] => d.base

/-- Address of instance (i, k) of a register with two indexes. -/
def ra2 (d : RegDesc) (i k : Nat) : Nat :=
  match d.dims with
  | (st, _) :: (st', _) :: _ => d.base + i * st + k * st'
  | (st, _) :: [] => d.base + i * st
  | [] => d.base

/-- The indexes at which an address meets a register, when it does. -/
def regMatch (d : RegDesc) (a : Nat) : Option (Nat × Nat) :=
  if a < d.base then none
  else
    let o := a - d.base
    match d.dims with
    | [] => if o = 0 then some (0, 0) else none
    | (st, n) :: [] => if o % st = 0 ∧ o / st < n then some (o / st, 0) else none
    | (st, n) :: (st', n') :: _ =>
      let i := o / st
      let r := o % st
      if i < n ∧ r % st' = 0 ∧ r / st' < n' then some (i, r / st') else none

/-- The register at an address: a description and its indexes (R469). -/
def findReg (a : Nat) : List RegDesc → Option (RegDesc × Nat × Nat)
  | [] => none
  | d :: ds =>
    match regMatch d a with
    | some (i, k) => some (d, i, k)
    | none => findReg a ds

/-- Mask of a field. -/
def fieldMask (f : RegField) : Nat := (2 ^ (f.hi + 1 - f.lo) - 1) * 2 ^ f.lo

/-- Mask of every bit of a register that some field defines; the rest is reserved (R9). -/
def definedMask (d : RegDesc) : Nat := d.fields.foldl (fun m f => m ||| fieldMask f) 0

/-- Type of interrupt source n by R365: 0 edge, 1 level, 2 reserved. -/
def srcType (n : Nat) : Nat :=
  if n < 0x140 then 0
  else if n < 0x200 then 1
  else if n < 0x22D then 0
  else if n < 0x230 then 1
  else if n < 0x232 then 0
  else if n = 0x232 then 1
  else if n = 0x233 then 0
  else if n = 0x234 then 1
  else if n < 0x23A then 0
  else if n < 0x300 then 2
  else 0

/-- Reset value of TS[p]_QUANTUM[k] (R474). -/
def tsQuantumReset (k : Nat) : Nat :=
  if k = 0 ∨ k = 7 then 0x40400 else if k = 1 then 0x8000
  else if k = 4 then 0x4000 else if k = 6 then 0x1000 else 0x2000

/-- Reset value of TS[p]_SHAPE[k] (R474). -/
def tsShapeReset (k : Nat) : Nat :=
  if k = 0 then 0x0000000200001388 else if k = 7 then 0x00000002000003E8 else 0x0000000200000000

/-- Value of a register at the release of a cold reset (R470, R472, R474), marks F, S and B aside. -/
def resetValue (d : RegDesc) (i k : Nat) : Nat :=
  if d.base = 0xB00000 ∧ i = 0 then 1
  else if d.base = 0xB00008 ∧ i = 0 then 0x1000100010001000
  else if d.base = 0x200000 then (if srcType i = 0 then 0x8080 else if srcType i = 1 then 0x100008080 else 0)
  else if d.base = 0x900100 then tsQuantumReset k
  else if d.base = 0x900200 then tsShapeReset k
  else if d.base = 0x400038 then 0x10000 + 0x1000 + (i / 32) * 0x100 + i
  else if d.base = 0x500038 then 0x10000 + 0x2000 + (i / 32) * 0x100 + i
  else if d.base = 0x600038 then 0x10000 + 0x3000 + (i / 8) * 0x100 + i
  else if d.base = 0x610038 then 0x10000 + 0x4000 + (2 + i / 4) * 0x100 + i
  else d.reset

end Sys2Proof.Machine
end

