-- ==== Sys2Proof/Machine/State.lean ====
section
/-! DEFINITION. The state of the SN2400 as plain data, the reasons a step can stop, and the state after a power-on
reset. -/
namespace Sys2Proof.Machine

/-- Why the machine stops with a fault. No command of this block faults the machine: unreserved addresses have an
effect the manual gives (R25), so the one constructor is for the reader's bookkeeping and is raised by no meaning. -/
inductive Fault where
  /-- Raised by no meaning: safe. -/
  | none
deriving DecidableEq, Repr

/-- Why the model gives a command no meaning. -/
inductive Refusal where
  /-- Raised only by the dispatch table for a row that has no meaning yet: safe. -/
  | notModelled (mnemonic : String)
deriving DecidableEq, Repr

structure State where
  now : Nat
  regs : NTable Word
  mem : List Host.Cell
  freeCtr : Nat
  host : HostS
  intr : IntrS
  pg : PagesS
  mt : ShareS
  fab : FabS
  st : StepS
  ce : CellS
  gl : GlobalS
  pending : List Instr
deriving DecidableEq, Repr

/-- The registers whose reset value fuses and straps give (marks F and S of R470); every other register reads the value of R474
until it is written. -/
def State.resetRegs : NTable Word :=
  tput (tput (tput (tput [] (ra0 rScLc) Config.lifecycleFuses) (ra0 rScDeviceId) Config.deviceId) (ra0 rPmVse) Config.vseFuses)
    (ra0 rGlStrap) Config.straps

/-- The controller when a power-on reset releases (R421, R429 step 1, R470): nothing is brought up, configuration flash is as it
left manufacture, and no command waits. Values the manual does not give are named in the assumption log, entry 1. -/
def State.reset : State :=
  { now := 0
    regs := State.resetRegs
    mem := []
    freeCtr := 0
    host := { rings := [], eqs := [], seqnos := [], opens := [], cmdCtr := 1, txns := [], txnEnds := [], changes := [],
              changeCtr := 0, deferred := [], out := [] }
    intr := { hostPend := [], corePend := [], asserted := [], levels := [], active := [], wfi := [], vecs := [], unmasked := [],
              pba := [] }
    pg := { tableBuilt := false, firmware := [], frames := [], trailers := [], seqs := [], admitCtr := 0, poison := [], slots := [], spills := [],
            prefetches := [], sums := [], reports := [], index := [], holdJobs := [], bgSpill := false, lastTick := 0 }
    mt := { faults := [], vt := [], work := [], shape := [], ctxBucket := [], polC := [], polP := [], drr := [], comps := [], ppsOut := 0, teLive := [],
            teSaved := [], runs := [], sramAt := 0, bankAt := [], stackAt := [] }
    fab := { ports := [], keys := ⟨[], none, none, none⟩, time := ⟨0, none, 0, 0, 0, false, [], 0, false, 0, 0, false⟩, dests := [], txCtr := 0,
             txs := [], wire := [], qps := [], qpLast := [], msgs := [], wins := [], tracks := [], fw := [], fwCtr := 0,
             fwFail := [], inbox := [], recalled := [], accs := [], accWins := [], atomics := [], regions := [],
             dir := [], lines := [], probes := [], dead := [] }
    st := { plans := [], steps := [], stepCtr := 0, panes := [], paneCtr := 0, jobs := [], jobCtr := 0, accs := [], passes := [],
            images := [], adapters := [], current := [], grammars := [], teImage := [], counted := [] }
    ce := { reqCtr := 0, reqs := [], jobCtr := 0, gates := [], homes := [], copies := [], seen := [], leases := [], own := [],
            regs := [], former := [], hinges := [], hingeCtr := 0, ledger := [], regionDir := [], groups := [], members := [],
            logs := [], mirrors := [], stripes := [], logJobs := [], admits := [], rebuilds := [], unreach := [], probeAt := 0,
            renewAt := 0, held := [], padded := [], jr := [], jrOps := [], jrWaits := [], boot := 0, nextOp := 0,
            penalty := [], decayAt := 0, progress := [], useful := 0, coldAt := 0 }
    gl := { close := ⟨0, 0, false, [], 0, 0, [], [], [], 0, 0⟩, hp := .down, hpOutAt := none,
            cxl := [⟨none, [], []⟩, ⟨none, [], []⟩, ⟨none, [], []⟩]
            flash := { busy := none, queue := [], boot := 0, jr := [], txns := [], wear := (List.replicate 97 0, 0), repairs := [],
                       trip := none, holdup := none, retry := [], retryAt := 0, sense := 0, vcap := [] }
            power := { target := 0, stepAt := 0, asks := [], maxMs := 0, maxFrom := 0, cause := none, rearm := false,
                       slots := List.replicate 97 0, slot := 0, slotAt := 0, expired := 0, resAt := 0, excursions := [],
                       thermLimit := none, overAt := none, polls := [], hotSince := [], pacedUs := 0, stopTiles := false,
                       energyUj := 0 }
            sleep := ⟨[], unitKeys, [], [(0, 0), (1, 0)], [], [], []⟩
            sec := { conditions := [], deadbolt := false, sessions := [], sessCtr := 0, out := [],
                     lcPending := false, policy := false, ownerHash := Config.ownerHash }
            phase := 1, warm := false, resetAt := 0, fatals := [], hpWiped := false, mbOffset := none, mbOut := [],
            predictAt := none, perst := false, pins := [], scrubAt := [], rowErrs := [], uart := ⟨[], []⟩ }
    pending := [] }

/-- The outcome of a command. -/
abbrev Out := Host.Outcome State Fault Refusal

end Sys2Proof.Machine
end

