-- ==== Sys2Proof/Machine/Ops.lean ====
section
/-! DEFINITION. The named operations every meaning is made of: device time, registers, memory, interrupt sources,
replies and events. -/
namespace Sys2Proof.Machine

/-- The next free value, and the state that has used it (assumption log, entry 3). -/
def fresh (s : State) : Word × State := (Config.freeValue s.freeCtr, { s with freeCtr := s.freeCtr + 1 })

/-! ### One part of the state at a time -/

def modHost (s : State) (f : HostS → HostS) : State := { s with host := f s.host }
def modIntr (s : State) (f : IntrS → IntrS) : State := { s with intr := f s.intr }
def modPg (s : State) (f : PagesS → PagesS) : State := { s with pg := f s.pg }
def modMt (s : State) (f : ShareS → ShareS) : State := { s with mt := f s.mt }
def modFab (s : State) (f : FabS → FabS) : State := { s with fab := f s.fab }
def modSt (s : State) (f : StepS → StepS) : State := { s with st := f s.st }
def modCe (s : State) (f : CellS → CellS) : State := { s with ce := f s.ce }
def modGl (s : State) (f : GlobalS → GlobalS) : State := { s with gl := f s.gl }
def modSleep (s : State) (f : SleepS → SleepS) : State := modGl s fun g => { g with sleep := f g.sleep }

/-! ### Registers -/

/-- The stored value of a register: what was last put there, or its reset value (R470). -/
def rdReg (s : State) (d : RegDesc) (i k : Nat) : Word :=
  tgetD s.regs (ra2 d i k) (word (resetValue d i k))

/-- Put a value into a register. -/
def wrReg (s : State) (d : RegDesc) (i k : Nat) (w : Word) : State :=
  { s with regs := tput s.regs (ra2 d i k) w }

/-- Field [hi:lo] of a stored register. -/
def rf (s : State) (d : RegDesc) (i hi lo : Nat) : Nat := fld (rdReg s d i 0) hi lo

/-- Put a value into a field of a register. -/
def wf (s : State) (d : RegDesc) (i hi lo v : Nat) : State :=
  wrReg s d i 0 (setFld (rdReg s d i 0) hi lo v)

/-- Bit n of a stored register. -/
def rbit (s : State) (d : RegDesc) (i n : Nat) : Bool := wbit (rdReg s d i 0) n

/-- Add n to a counter field, saturating at its greatest value. -/
def bump (s : State) (d : RegDesc) (i hi lo n : Nat) : State :=
  wf s d i hi lo (sat (hi + 1 - lo) (rf s d i hi lo + n))

/-- Add n to a counter field that wraps. -/
def bumpWrap (s : State) (d : RegDesc) (i hi lo n : Nat) : State :=
  wf s d i hi lo (rf s d i hi lo + n)

/-- As bump, for a register with two indexes. -/
def bump2 (s : State) (d : RegDesc) (i k hi lo n : Nat) : State :=
  let w := rdReg s d i k
  wrReg s d i k (setFld w hi lo (sat (hi + 1 - lo) (fld w hi lo + n)))

/-- Add n to a 64-bit meter that wraps (R330). -/
def meter (s : State) (d : RegDesc) (c k n : Nat) : State :=
  let w := rdReg s d c k
  wrReg s d c k (word (w.toNat + n))

/-- Return a register to its reset value (R421, R314). -/
def resetReg (s : State) (d : RegDesc) (i k : Nat) : State :=
  { s with regs := tdel s.regs (ra2 d i k) }

/-! ### The address space -/

/-- GiB mapped from port i: 0 T2P, 1 AUX0, 2 AUX1. -/
def portGib (s : State) (i : Nat) : Nat := rf s rMcTierPorts 0 (13 * i + 12) (13 * i)

/-- GiB of the tier-2 window that are attached. -/
def tierGib (s : State) : Nat := portGib s 0 + portGib s 1 + portGib s 2

/-- Slots the mapped capacity gives (R155). -/
def slotsTotal (s : State) : Nat := Nat.min maxSlots (((List.range 3).map (portGib s)).foldl (· + ·) 0 * 2 ^ 30 / slotBytes)

/-- The region an address lies in now (R22): tier-2 addresses above the attached capacity behave as reserved. -/
def areaOf (s : State) (a : Nat) : Region :=
  match regionOf a with
  | .tier2 => if a < tier2Base + tierGib s * 2 ^ 30 then .tier2 else .reserved
  | r => r

/-! ### Time -/

/-- Composition tags of ACTIVE contexts that hold a frame, a queue pair or an allocation (R331). -/
def heldTags (s : State) : List Nat :=
  ((List.range 256).filterMap fun c =>
    if rf s rMtCtx c 1 0 = 1 ∧ ((rdReg s rMtAlloc c 0).toNat ≠ 0 ∨ (s.pg.frames.any fun kv => kv.2.ctx == c && kv.2.st != .free) = true ∨
        (s.fab.qps.any fun kv => kv.2.ctx == c) = true) then some (rf s rMtCtx c 55 32)
    else none).eraseDups

/-- The PPS output rises at each whole second of device time that passes while EP_TIME_CTRL.PPS_OUT_EN is set (R200). -/
def ppsDrive (s : State) (t : Nat) : ShareS :=
  if rbit s rEpTimeCtrl 0 17 ∧ s.now / 1000000000 < t / 1000000000 then { s.mt with ppsOut := t / 1000000000 } else s.mt

/-- Whether something runs that keeps banks awake: a step, a command, a message or a pane request (R382). -/
def sramBusy (s : State) : Bool :=
  s.st.steps.any (fun x => x.2.running) || !s.st.jobs.isEmpty || !s.host.opens.isEmpty ||
    !s.fab.tracks.isEmpty || !s.fab.msgs.isEmpty || !s.fab.fw.isEmpty

/-- Device time moves on to t (R7); it never moves back here. In COMPOSITION mode the held time of tags grows with it, and what
kept the SRAM awake until now is noted (R382). -/
def tick (s : State) (t : Nat) : State :=
  let dt := t - s.now
  let s := if dt = 0 ∨ rf s rGlMeterMode 0 0 0 = 0 then s
    else modMt s fun m => { m with comps := (heldTags s).foldl (fun cs g =>
      let x := tgetD cs g ⟨0, 0⟩
      tput cs g { x with heldNs := (x.heldNs + dt) % 2 ^ 64 }) m.comps }
  let m := ppsDrive s t
  { s with now := Nat.max s.now t, mt := { m with sramAt := if sramBusy s then Nat.max s.now t else m.sramAt } }

/-! ### Memory -/

/-- n bytes of local memory. -/
def rdMem (s : State) (a n : Nat) : List Byte := readBytes s.mem a n

/-- Write bytes of local memory. -/
def wrMem (s : State) (a : Nat) (bs : List Byte) : State := { s with mem := writeBytes s.mem a bs }

/-- A little-endian word of n bytes of local memory. -/
def rdNat (s : State) (a n : Nat) : Nat := ofLE (readBytes s.mem a n)

/-- Zero-fill n bytes of local memory. -/
def zeroMem (s : State) (a n : Nat) : State := { s with mem := zeroBytes s.mem a n }

/-- Copy n bytes of local memory. -/
def copyMem (s : State) (src dst n : Nat) : State := { s with mem := copyBytes s.mem src dst n }

/-! ### Interrupt sources (R365–R373) -/

def addSorted (x : Nat) : List Nat → List Nat
  | [] => [x]
  | y :: ys => if x < y then x :: y :: ys else if x = y then y :: ys else y :: addSorted x ys

/-- The vector and enable of a source's host route: those of its ring or event queue for sources 0x000–0x13F (R366). -/
def hostRoute (s : State) (n : Nat) : Nat × Bool :=
  if n < 0x100 then (rf s rCqCtrl n 42 32, rbit s rCqCtrl n 43)
  else if n < 0x140 then (rf s rEqCtrl (n - 0x100) 16 6, rbit s rEqCtrl (n - 0x100) 17)
  else if n < 0x300 then (rf s rIcSrc n 26 16, rbit s rIcSrc n 27)
  else (0, false)

/-- Whether the condition of a level source holds now (R365). -/
def levelHolds (s : State) (n : Nat) : Bool :=
  if n < 0x140 then false
  else if n < 0x180 then rbit s rTeFault (n - 0x140) 16
  else if n < 0x1C0 then rbit s rXeFault (n - 0x180) 16
  else if n < 0x1D0 then rbit s rTuFault (n - 0x1C0) 16
  else if n < 0x1E8 then rbit s rCuFault (n - 0x1D0) 16
  else if n < 0x200 then rbit s rMcEccAddr (n - 0x1E8) 63
  else if n = 0x22D then rdReg s rGlErr 0 0 != 0
  else if n = 0x22E then rdReg s rPgErr 0 0 != 0
  else if n = 0x22F then rdReg s rTeAttnErr 0 0 != 0
  else s.intr.levels.contains n

/-- Whether a source is a level source: R365, and IC_SRC.TYPE for the firmware sources. -/
def isLevel (s : State) (n : Nat) : Bool :=
  if n < 0x300 then srcType n == 1 else rbit s rIcSrc n 32

/-- One request of a vector, for the moderation of R372. -/
def countRequest (s : State) (v : Nat) : State :=
  let e := tgetD s.intr.vecs v ⟨0, 0, false⟩
  let e := if e.count = 0 then { e with firstAt := s.now, timedOut := false } else e
  { s with intr := { s.intr with vecs := tput s.intr.vecs v { e with count := e.count + 1 } } }

/-- A core in WFI wakes when an enabled source routed to it becomes pending, whatever its masks (R370). -/
def wakeCore (s : State) (n : Nat) : State :=
  if rbit s rIcSrc n 31 then
    { s with intr := { s.intr with wfi := s.intr.wfi.filter (· != rf s rIcSrc n 30 28) } }
  else s

/-- An edge source's condition occurs: both routes become pending, enabled or not (R366), and the vector of an
enabled host route has one more request (R371). -/
def raiseEdge (s : State) (n : Nat) : State :=
  let s := { s with intr := { s.intr with
    hostPend := if n < 0x300 then addSorted n s.intr.hostPend else s.intr.hostPend,
    corePend := addSorted n s.intr.corePend } }
  let s := if (hostRoute s n).2 then countRequest s (hostRoute s n).1 else s
  wakeCore s n

/-- Sample a level source: a change from clear to asserted makes both routes pending and counts a request; a cleared
condition withdraws them (R365, R371, R376). -/
def sampleLevel (s : State) (n : Nat) : State :=
  let was := s.intr.asserted.contains n
  let is := levelHolds s n
  if is && !was then
    let s := { s with intr := { s.intr with
      asserted := addSorted n s.intr.asserted, corePend := addSorted n s.intr.corePend } }
    let s := if (hostRoute s n).2 then countRequest s (hostRoute s n).1 else s
    wakeCore s n
  else if !is && was then
    { s with intr := { s.intr with
      asserted := s.intr.asserted.filter (· != n), corePend := s.intr.corePend.filter (· != n) } }
  else s

/-- A level condition that no register holds changes (R365: a hot die sensor, low hold-up energy). -/
def setLevel (s : State) (n : Nat) (on : Bool) : State :=
  let l := s.intr.levels.filter (· != n)
  sampleLevel { s with intr := { s.intr with levels := if on then addSorted n l else l } } n

/-- Whether a source is requested on its host route: enabled and pending (R371). -/
def requested (s : State) (n : Nat) : Bool :=
  (hostRoute s n).2 && (if isLevel s n then s.intr.asserted.contains n else s.intr.hostPend.contains n)

/-! ### Error flags -/

/-- Set bits of an error register and sample the level source that reports it. -/
def setErr (s : State) (d : RegDesc) (src n : Nat) : State :=
  sampleLevel (wrReg s d 0 0 (word ((rdReg s d 0 0).toNat ||| 2 ^ n))) src

/-- GL_ERR.RSVD_WRITE (R9, R446). -/
def rsvdWrite (s : State) : State := setErr s rGlErr irqGlErr 0

/-- A PG_ERR bit (R64). -/
def pgErr (s : State) (n : Nat) : State := setErr s rPgErr irqPgErr n

/-! ### Contexts and status -/

/-- MT[c]_CTX.STATE: 0 ABSENT, 1 ACTIVE, 2 FAULTED (R308). Context 0 is ACTIVE from bring-up. -/
def ctxState (s : State) (c : Nat) : Nat := rf s rMtCtx c 1 0

/-- GL_STATUS.SHUTTER: 0 CLOSED, 1 CLOSING, 2 OPEN (R432). -/
def shutter (s : State) : Nat := rf s rGlStatus 0 2 1

/-- GL_MODE.MODE (R364). -/
def mode (s : State) : Nat := rf s rGlMode 0 1 0

/-- GL_MODE.ROLE (R4): 0 PROMPT, 1 GENERATION, 2 CACHE. -/
def role (s : State) : Nat := rf s rGlMode 0 3 2

/-- This controller's endpoint (R204). -/
def self (s : State) : Nat := rf s rEpSelf 0 19 0

/-! ### Writes to the host -/

/-- Add one item to what was written over HP (newest first). -/
def toHost (s : State) (o : HostOut) : State := { s with host := { s.host with out := o :: s.host.out } }

/-- The ring's indexes and flags. -/
def ring (s : State) (q : Nat) : RingS := tgetD s.host.rings q ⟨0, 0, 0, 0, 0, false, false, false⟩

def setRing (s : State) (q : Nat) (r : RingS) : State :=
  { s with host := { s.host with rings := tput s.host.rings q r } }

/-- PHASE of entry index of a queue of the given depth: 1 on the first pass, inverting on each pass (R342, R360). -/
def phaseOf (index log2 : Nat) : Bool := (index >>> log2) % 2 == 0

/-- The 32 bytes of a reply entry, little-endian (R6, R342). -/
def replyBytes (phase : Bool) (sqHead : Nat) (r : Reply) : List Byte :=
  toLE 8 (r.tag + r.status * 2 ^ 16 + r.detail * 2 ^ 32 + r.opcode * 2 ^ 48 + b2n phase * 2 ^ 63) ++ toLE 8 sqHead ++ toLE 8 r.result0 ++
    toLE 8 r.result1

/-- The 32 bytes of an event entry, little-endian (R6, R360). -/
def eventBytes (phase : Bool) (e : Event) : List Byte :=
  toLE 8 (e.source + e.seqno * 2 ^ 12 + e.type * 2 ^ 44 + b2n phase * 2 ^ 63) ++
    toLE 8 (e.context + e.status * 2 ^ 16 + e.arg0 * 2 ^ 32) ++ toLE 8 e.time ++ toLE 8 e.arg1

/-- Write one reply entry for a command of ring q taken under generation gen: discarded when the ring was disabled or
re-enabled since (R364); it raises the ring's interrupt source (R365). -/
def putReply (s : State) (q gen : Nat) (r : Reply) : State :=
  let e := ring s q
  if rbit s rCqCtrl q 0 && e.gen == gen then
    let s := toHost s (.reply q e.cqTail (replyBytes (phaseOf e.cqTail (rf s rCqCtrl q 28 24)) e.sqHead r))
    let s := setRing s q { e with cqTail := (e.cqTail + 1) % 2 ^ 32 }
    raiseEdge s (irqReply q)
  else s

/-! ### Events (R360–R363) -/

/-- The event queue's indexes and held events. -/
def evq (s : State) (e : Nat) : EqS := tgetD s.host.eqs e ⟨0, 0, [], 0, 0⟩

def setEvq (s : State) (e : Nat) (q : EqS) : State :=
  { s with host := { s.host with eqs := tput s.host.eqs e q } }

/-- Whether event queue e has room: fewer than its depth entries are in use (R363). -/
def evRoom (s : State) (e : Nat) : Bool :=
  decide (sub32 (evq s e).tail (evq s e).head < 2 ^ rf s rEqCtrl e 5 1)

/-- Write one event entry to queue e, which has room. -/
def putEvent (s : State) (e : Nat) (ev : Event) : State :=
  let q := evq s e
  let s := toHost s (.event e q.tail (eventBytes (phaseOf q.tail (rf s rEqCtrl e 5 1)) ev))
  let s := setEvq s e { q with tail := (q.tail + 1) % 2 ^ 32 }
  raiseEdge s (irqEvent e)

/-- Queue or hold an event of an enabled queue: written when nothing is held and there is room, else held up to 4,096,
else dropped and counted (R363). -/
def deliver (s : State) (e : Nat) (ev : Event) : State :=
  let q := evq s e
  if q.held.isEmpty && q.lostReport == 0 && evRoom s e then putEvent s e ev
  else if q.held.length < 4096 then setEvq s e { q with held := q.held ++ [ev] }
  else setEvq s e { q with lost := sat 16 (q.lost + 1), lostReport := q.lostReport + 1 }

/-- Raise an event: number it in its source's order, find its queue (queue 0 for device-wide events and for a
disabled queue), and deliver or count it (R360–R363). -/
def raise (s : State) (source type ctx status arg0 arg1 : Nat) : State :=
  let n := tgetD s.host.seqnos source 0
  let s := { s with host := { s.host with seqnos := tput s.host.seqnos source ((n + 1) % 2 ^ 32) } }
  let ev : Event := ⟨source, n, type, ctx, status, arg0 % 2 ^ 32, s.now, arg1 % 2 ^ 64⟩
  let s := if type = evPredictive then modGl s fun g => { g with predictAt := some s.now } else s
  let want := if source = srcDevice then 0 else rf s rCqEqMap ctx 5 0
  if rbit s rEqCtrl want 0 then deliver s want ev
  else if rbit s rEqCtrl 0 0 then deliver s 0 ev
  else let q := evq s 0; setEvq s 0 { q with lost := sat 16 (q.lost + 1), lostReport := q.lostReport + 1 }

/-- A device-wide event. -/
def raiseDev (s : State) (type status arg0 arg1 : Nat) : State := raise s srcDevice type 0 status arg0 arg1

/-- An event of context c. -/
def raiseCtx (s : State) (c type status arg0 arg1 : Nat) : State := raise s (srcContext c) type c status arg0 arg1

/-- An event of a sequence of context c. -/
def raiseSeq (s : State) (c type status arg0 arg1 : Nat) : State := raise s (srcSequence c) type c status arg0 arg1

end Sys2Proof.Machine
end

