-- ==== Sys2Proof/Machine/Operands.lean ====
section
/-! DEFINITION. The operand forms of a command entry (R340) and the checks every command passes (R341), the replies a
command writes (R342, R343), and the checks and staging of transactions (R356). -/
namespace Sys2Proof.Machine

/-- The command an entry of ring q holds: eight little-endian words (R6, R340). -/
def cmdOf (q : Nat) (e : CmdEntry) : Cmd :=
  let w (i : Nat) : Word := word (w64At e.bytes (8 * i))
  ⟨q, w 0, w 1, w 2, w 3, w 4, w 5, w 6, w 7, e.buf, e.buf2⟩

/-- OPCODE of a command's header. -/
def cOpcode (c : Cmd) : Nat := fld c.w0 7 0
/-- FENCE. -/
def cFence (c : Cmd) : Bool := wbit c.w0 8
/-- PERSIST. -/
def cPersist (c : Cmd) : Bool := wbit c.w0 9
/-- TAG. -/
def cTag (c : Cmd) : Nat := fld c.w0 31 16
/-- CONTEXT of the header. -/
def cCtx (c : Cmd) : Nat := fld c.w0 39 32
/-- TXN. -/
def cTxn (c : Cmd) : Nat := fld c.w0 47 40
/-- PARAM_LEN. -/
def cParamLen (c : Cmd) : Nat := fld c.w0 63 48

/-- Parameter word i, from 1 to 6. -/
def cWord (c : Cmd) : Nat → Word
  | 1 => c.w1
  | 2 => c.w2
  | 3 => c.w3
  | 4 => c.w4
  | 5 => c.w5
  | _ => c.w6

/-- Kind of the address in word i (R340): 0 host, 1 local, 2 fabric. -/
def cKind (c : Cmd) (i : Nat) : Nat := fld c.w7 (2 * i - 1) (2 * i - 2)

/-- The command with its header's OPCODE replaced: a row of the table fixes the opcode. -/
def withOpcode (c : Cmd) (op : Nat) : Cmd := { c with w0 := setFld c.w0 7 0 op }

/-- What R354 says of an opcode's entry: whether it runs only on admin rings, the bits of W1 to W4 its parameters use
(W5 and W6 are used by none), and for each word that holds an address the kinds it allows. -/
structure OpInfo where
  admin : Bool
  m1 : Nat
  m2 : Nat
  m3 : Nat
  m4 : Nat
  kinds : List (Nat × List Nat)
deriving DecidableEq, Repr

def ones (n : Nat) : Nat := 2 ^ n - 1

/-- The opcodes of R354 with their entry forms; an unlisted opcode has none. -/
def opInfo : Nat → Option OpInfo
  | 0x00 => some ⟨true, ones 64, 0, 0, 0, [(1, [0, 1])]⟩
  | 0x01 => some ⟨true, ones 2, 0, 0, 0, []⟩
  | 0x02 => some ⟨true, ones 2, 0, 0, 0, []⟩
  | 0x08 => some ⟨true, 0, 0, 0, 0, []⟩
  | 0x09 => some ⟨true, 0, 0, 0, 0, []⟩
  | 0x0A => some ⟨true, 0, 0, 0, 0, []⟩
  | 0x0C => some ⟨true, ones 32, 0, 0, 0, []⟩
  | 0x0D => some ⟨true, 0, 0, 0, 0, []⟩
  | 0x0E => some ⟨true, 0, 0, 0, 0, []⟩
  | 0x0F => some ⟨true, 0, 0, 0, 0, []⟩
  | 0x10 => some ⟨false, ones 62, 0xFFFFFFFF00FFFFFF, 0, 0, []⟩
  | 0x11 => some ⟨false, ones 32, ones 64, ones 23, 0, [(2, [0, 1])]⟩
  | 0x12 => some ⟨false, ones 32, ones 23, ones 2, 0, []⟩
  | 0x13 => some ⟨false, ones 32, ones 17, 0, 0, []⟩
  | 0x14 => some ⟨false, ones 32, 0, 0, 0, []⟩
  | 0x15 => some ⟨false, ones 32, 0, 0, 0, []⟩
  | 0x16 => some ⟨false, ones 32, 0, 0, 0, []⟩
  | 0x17 => some ⟨false, ones 32, 0, 0, 0, []⟩
  | 0x18 => some ⟨false, ones 32, ones 64, 0, 0, [(2, [0, 1])]⟩
  | 0x30 => some ⟨false, ones 64, ones 32, 0, 0, [(1, [0, 1])]⟩
  | 0x31 => some ⟨false, ones 12, 0, 0, 0, []⟩
  | 0x32 => some ⟨false, ones 12, ones 64, ones 64, 0, [(2, [0, 1]), (3, [0, 1])]⟩
  | 0x40 => some ⟨false, ones 64, ones 41, 0, 0, [(1, [0, 2])]⟩
  | 0x41 => some ⟨false, ones 8, 0, 0, 0, []⟩
  | 0x44 => some ⟨false, ones 64, ones 2, 0, 0, [(1, [0, 2])]⟩
  | 0x45 => some ⟨false, ones 64, ones 2, 0, 0, [(1, [0, 2])]⟩
  | 0x46 => some ⟨false, ones 16, 0, 0, 0, []⟩
  | 0x48 => some ⟨false, ones 64, ones 38, 0, 0, [(1, [0, 1])]⟩
  | 0x50 => some ⟨false, ones 64, ones 64, ones 64, ones 27, [(1, [0, 1]), (2, [0, 1]), (3, [0, 1])]⟩
  | 0x51 => some ⟨false, ones 18, ones 39, ones 22, 0, []⟩
  | 0x52 => some ⟨false, ones 16, 0, 0, 0, []⟩
  | 0x54 => some ⟨false, ones 64, ones 64, ones 25, 0, [(1, [1])]⟩
  | 0x55 => some ⟨false, ones 32, 0, 0, 0, []⟩
  | 0x56 => some ⟨false, ones 32, 0, 0, 0, []⟩
  | 0x58 => some ⟨false, ones 64, ones 22, 0, 0, [(1, [1])]⟩
  | 0x59 => some ⟨false, ones 64, 0xFFFFFFFF00000007, 0, 0, [(1, [2])]⟩
  | 0x5A => some ⟨false, ones 64, ones 1, 0, 0, []⟩
  | 0x5B => some ⟨false, ones 64, ones 21, ones 32, 0, []⟩
  | 0x5C => some ⟨false, ones 64, ones 21, ones 32, 0, []⟩
  | 0x70 => some ⟨true, ones 18, ones 60, ones 43, 0, []⟩
  | 0x71 => some ⟨true, ones 8, ones 44, ones 41, ones 7, []⟩
  | 0x72 => some ⟨true, ones 8, ones 64, ones 16, 0, []⟩
  | 0x73 => some ⟨true, ones 10, ones 43, 0, 0, []⟩
  | 0x74 => some ⟨true, ones 33, ones 64, ones 41, ones 28, []⟩
  | 0x75 => some ⟨true, ones 8, 0, 0, 0, []⟩
  | 0x80 => some ⟨true, ones 32, 0, 0, 0, []⟩
  | 0x81 => some ⟨true, 0, 0, 0, 0, []⟩
  | 0x82 => some ⟨true, ones 11, 0, 0, 0, []⟩
  | 0xE0 => some ⟨true, ones 64, ones 64, 0, 0, []⟩
  | 0xE1 => some ⟨true, ones 25, ones 64, 0, 0, [(2, [0])]⟩
  | _ => none

/-- Address kinds opcode op allows in word i of command c. An object word (LATCH_QUERY, LATCH_ASSIGN, HINGE_OFFER) is a
fabric address when its REGION bit is 1, and a sequence ID otherwise. -/
def kindsAllowed (op : Nat) (c : Cmd) (info : OpInfo) (i : Nat) : List Nat :=
  if (op = 0x5A ∨ op = 0x5B ∨ op = 0x5C) ∧ i = 1 then (if wbit c.w2 0 then [2] else [0])
  else if (op = 0x50 ∧ i = 3 ∧ c.w3 = 0) then [0]
  else match info.kinds.find? (·.1 = i) with
    | some (_, ks) => ks
    | none => [0]

/-- The ranges of staging SRAM context c holds, as (base, bytes) (R381, SP_CTX_SRAM). -/
def ctxSram (s : State) (c : Nat) : List (Nat × Nat) :=
  [(rf s rSpCtxSram0 c 43 0, rf s rSpCtxSram0 c 61 44 * 1024), (rf s rSpCtxSram1 c 43 0, rf s rSpCtxSram1 c 61 44 * 1024)]

/-- A frame's record: FREE with generation 0 when nothing was recorded. -/
def frame (s : State) (f : Nat) : Frame := tgetD s.pg.frames f ⟨.free, 0, 0, 0, 0, 0, .none, 0⟩

/-- Whether n bytes at a local address lie inside context c's allocation (R340): frames charged to it or its staging
SRAM. -/
def inAlloc (s : State) (c a n : Nat) : Bool :=
  match areaOf s a with
  | .stack _ =>
    (List.range (cdiv (a % frameBytes + Nat.max n 1) frameBytes)).all fun j =>
      let f := frame s (a / frameBytes + j)
      f.st != .free && f.ctx == c
  | .sram _ => (ctxSram s c).any fun r => decide (r.1 ≤ a ∧ a + n ≤ r.1 + r.2)
  | _ => false

/-- Opcodes a closed Shutter lets through (R341 check 5, R433). -/
def adminRange (op : Nat) : Bool :=
  op ≤ 0x0F || (0x70 ≤ op && op ≤ 0x75) || (0xE0 ≤ op && op ≤ 0xEF)

/-- Opcodes that fail while the Shutter is CLOSING (R433); STEP_SUBMIT joins them once DRAIN_MS has passed. -/
def closingRefuses (s : State) (op : Nat) : Bool :=
  [0x10, 0x12, 0x40, 0x44, 0x45, 0x48, 0x30, 0x50, 0x54, 0x58].contains op ||
    (op == 0x32 && s.gl.close.drained)

/-- Opcodes that may be staged in a transaction (R356). -/
def transactable (op : Nat) : Bool := [0x02, 0x70, 0x71, 0x72, 0x73, 0x82].contains op

/-- Check 2 of R341: lengths, reserved bits, unused words, address kinds, PERSIST (and R10). -/
def formOk (s : State) (op : Nat) (c : Cmd) (i : OpInfo) : Bool :=
  cParamLen c == 56 && fld c.w0 15 10 == 0 &&
  (c.w1.toNat &&& i.m1) == c.w1.toNat && (c.w2.toNat &&& i.m2) == c.w2.toNat &&
  (c.w3.toNat &&& i.m3) == c.w3.toNat && (c.w4.toNat &&& i.m4) == c.w4.toNat &&
  c.w5 == 0 && c.w6 == 0 && fld c.w7 63 12 == 0 &&
  ([1, 2, 3, 4, 5, 6].all fun j =>
    (kindsAllowed op c i j).contains (cKind c j) &&
      (cKind c j != 1 || op == 0x58 || ((cWord c j).toNat < 2 ^ 44 && inAlloc s (cCtx c) (cWord c j).toNat 1))) &&
  (!cPersist c || op == 0x09)

/-- Checks 1 to 5 of R341, in order: the status and detail of the first failure. -/
def checkCmd (s : State) (op : Nat) (c : Cmd) : Option (Nat × Nat) :=
  match opInfo op with
  | none => some (sInvalidOpcode, 0)
  | some i =>
    let bound := rf s rCqCtrl c.ring 15 8
    if !formOk s op c i then some (sInvalidParam, 0)
    else if bound != 0 && (cCtx c != bound || i.admin) then some (sInvalidContext, 0)
    else if ctxState s (cCtx c) = 0 then some (sInvalidContext, 0)
    else if ctxState s (cCtx c) = 2 && !(([0x74, 0x75, 0x18, 0x17] : List Nat).contains op) then some (sContextFault, 0)
    else if (shutter s = 0 || rbit s rGlStatus 0 4) && !adminRange op then some (sShutterClosed, 0)
    else if shutter s = 1 && closingRefuses s op then some (sShutterClosed, 0)
    else if s.gl.sec.lcPending && !(decide (op < 0x10) || decide (0xE0 ≤ op)) then some (sShutterClosed, 0)
    else none

/-! ### Replies -/

/-- Take a command: record it open until its final reply, and give it a number (R339, R343). -/
def takeCmd (s : State) (op : Nat) (c : Cmd) (w : Wait) : Nat × State :=
  let id := s.host.cmdCtr
  (id, { s with host := { s.host with cmdCtr := id + 1, opens := s.host.opens ++
    [{ id := id, gen := (ring s c.ring).gen, opcode := op, cmd := c, pended := false, wait := w }] } })

/-- The open command with a number. -/
def openCmd (s : State) (id : Nat) : Option OpenCmd := s.host.opens.reverse.find? (·.id == id)

/-- Write a command's final reply and close it (R343). -/
def finish (s : State) (id status detail r0 r1 : Nat) : State :=
  match openCmd s id with
  | none => s
  | some o =>
    let s := { s with host := { s.host with opens := s.host.opens.filter (·.id != id) } }
    putReply s o.cmd.ring o.gen ⟨cTag o.cmd, status, detail, o.opcode, r0 % 2 ^ 64, r1 % 2 ^ 64⟩

/-- Final reply OK with no results. -/
def finishOk (s : State) (id : Nat) : State := finish s id sOk 0 0 0

/-- Reply PENDING and record what the command now waits for (R343). -/
def pend (s : State) (id : Nat) (w : Wait) : State :=
  match openCmd s id with
  | none => s
  | some o =>
    let s := modHost s fun h =>
      { h with opens := h.opens.map fun x => if x.id == id then { x with pended := true, wait := w } else x }
    if o.pended then s
    else putReply s o.cmd.ring o.gen ⟨cTag o.cmd, sPending, 0, o.opcode, 0, 0⟩

/-- Record what an open command waits for, without a reply. -/
def waitFor (s : State) (id : Nat) (w : Wait) : State :=
  modHost s fun h => { h with opens := h.opens.map fun x => if x.id == id then { x with wait := w } else x }

/-- Finish every open command that waits for w. -/
def finishAll (s : State) (w : Wait) (status detail r0 r1 : Nat) : State :=
  ((s.host.opens.filter (·.wait == w)).map (·.id)).foldl (fun s id => finish s id status detail r0 r1) s

/-- A command that fails at one of its own checks (R341 check 7): nothing else takes effect. -/
def fail (s : State) (id status detail : Nat) : State := finish s id status detail 0 0

/-! ### Transactions -/

/-- Check 6 of R341 for a nonzero TXN: none, or the failure of R356. -/
def txnCheck (s : State) (op : Nat) (c : Cmd) : Option (Nat × Nat) :=
  if cTxn c = 0 ∨ op = 0x09 ∨ op = 0x0A then none
  else if !transactable op then some (sInvalidParam, 0)
  else match tget s.host.txns (cTxn c) with
    | some t =>
      if t.ring != c.ring || t.committing then some (sInvalidParam, 0)
      else if t.staged.length ≥ 64 then some (sTxnLimit, 3)
      else none
    | none => match tget s.host.txnEnds (cTxn c) with
      | some e => if e.ring != c.ring then some (sInvalidParam, 0)
        else if e.how = 1 then some (sTxnTimeout, 0) else some (sTxnAborted, 0)
      | none => some (sInvalidParam, 0)

/-- Stage a checked command in its transaction: reply OK with its index, change nothing (R356). -/
def stageCmd (s : State) (id op : Nat) (c : Cmd) : State :=
  match tget s.host.txns (cTxn c) with
  | none => fail s id sInvalidParam 0
  | some t =>
    let s := { s with host := { s.host with
      txns := tput s.host.txns (cTxn c) { t with staged := t.staged ++ [(op, c)] } } }
    finish s id sOk t.staged.length 0 0

/-- Run an opcode on a taken command: checks 1 to 6 of R341 in order, then the opcode's own operation, or staging for
a command under a transaction once its range checks pass. -/
def runOp (op : Nat) (range : Cmd → State → Option (Nat × Nat)) (act : Nat → Cmd → State → State) (c : Cmd)
    (s : State) : State :=
  let c := withOpcode c op
  let (id, s) := takeCmd s op c .none
  match checkCmd s op c with
  | some (st, d) => fail s id st d
  | none => match txnCheck s op c with
    | some (st, d) => fail s id st d
    | none => match range c s with
      | some (st, d) => fail s id st d
      | none => if cTxn c ≠ 0 ∧ transactable op then stageCmd s id op c else act id c s

/-- No range check of its own. -/
def noRange : Cmd → State → Option (Nat × Nat) := fun _ _ => none

/-- Record that an object was changed now, for the conflict check of R357. Objects: 0 the device; 1,000 + 8 × port +
class a shaper or policer; 2,000 + c a context bucket; 3,000 + c a context. -/
def touch (s : State) (obj : Nat) : State :=
  let n := s.host.changeCtr + 1
  { s with host := { s.host with changeCtr := n, changes := tput s.host.changes obj n } }

/-- The bytes a command's address word names: local memory, or what the read of the host or fabric returned. -/
def cmdBytes (s : State) (c : Cmd) (i n : Nat) (b : Option (List Byte)) : Option (List Byte) :=
  if cKind c i = 1 then
    (if inAlloc s (cCtx c) (cWord c i).toNat n then some (rdMem s (cWord c i).toNat n) else none)
  else b.map fun l => slice l 0 n

/-- Write bytes to the buffer an address word names: local memory or the host. -/
def cmdWrite (s : State) (c : Cmd) (i : Nat) (bs : List Byte) : State :=
  if cKind c i = 1 then wrMem s (cWord c i).toNat bs else toHost s (.data (cWord c i).toNat bs)

end Sys2Proof.Machine
end

