-- ==== Sys2Proof/Machine/Numfmt.lean ====
section
/-! DEFINITION. Number formats and arithmetic (R67–R78): exact decoding of the eight formats, rounding to nearest with
saturation, FP32 operations with a single rounding, correctly rounded functions, MX blocks and their packing. -/
namespace Sys2Proof.Machine

/-- An extended real: a NaN, an infinity, or a signed magnitude n / d (d > 0; zero keeps its sign). -/
inductive Num where
  | nan
  | inf (neg : Bool)
  | fin (neg : Bool) (n d : Nat)
deriving DecidableEq, Repr

/-- Exponent bits, mantissa bits, bias of a format code (R67). -/
def fmtExp : Nat → Nat
  | 0 => 8 | 1 => 8 | 2 => 5 | 3 => 4 | 4 => 5 | 5 => 3 | 6 => 2 | _ => 0
def fmtMan : Nat → Nat
  | 0 => 23 | 1 => 7 | 2 => 10 | 3 => 3 | 4 => 2 | 5 => 2 | 6 => 1 | _ => 0
def fmtBias : Nat → Nat
  | 0 => 127 | 1 => 127 | 2 => 15 | 3 => 7 | 4 => 15 | 5 => 3 | 6 => 1 | _ => 0
/-- Bits of one element. -/
def fmtWidth (f : Nat) : Nat := if f = 7 then 8 else 1 + fmtExp f + fmtMan f
/-- Formats with infinities (R67). -/
def fmtInf (f : Nat) : Bool := f == 0 || f == 1 || f == 2 || f == 4
/-- Code, sign aside, of the largest finite value (R67). -/
def fmtMax : Nat → Nat
  | 0 => 0x7F7FFFFF | 1 => 0x7F7F | 2 => 0x7BFF | 3 => 0x7E | 4 => 0x7B | 5 => 0x1F | 6 => 0x7 | _ => 127
/-- Canonical NaN code (R73). MX elements have none: the block scale carries it. -/
def fmtNan : Nat → Nat
  | 0 => 0x7FC00000 | 1 => 0x7FC0 | 2 => 0x7E00 | 3 => 0x7F | 4 => 0x7E | _ => 0

/-- n × 2^(a − b) as a fraction. -/
def scaled (n a b : Nat) : Nat × Nat := if b ≤ a then (n * 2 ^ (a - b), 1) else (n, 2 ^ (b - a))

/-- The magnitude of a code with exponent field e and mantissa m of a format, as a fraction (R67, R74: subnormals are
honoured). -/
def magOf (f e m : Nat) : Nat × Nat :=
  if e = 0 then scaled m 1 (fmtBias f + fmtMan f) else scaled (2 ^ fmtMan f + m) e (fmtBias f + fmtMan f)

/-- The value of a code of a format (R67). -/
def decode (f code : Nat) : Num :=
  if f = 7 then
    let v := signed 8 code
    .fin (decide (v < 0)) v.natAbs 1
  else
    let m := bits code (fmtMan f - 1) 0
    let e := bits code (fmtMan f + fmtExp f - 1) (fmtMan f)
    let neg := bit code (fmtMan f + fmtExp f)
    if fmtInf f && e == 2 ^ fmtExp f - 1 then (if m = 0 then .inf neg else .nan)
    else if f == 3 && e == 15 && m == 7 then .nan
    else let p := magOf f e m; .fin neg p.1 p.2

/-- floor(log2(n / d)) as floor + 2000 (so that it is a natural number); n, d > 0. -/
def flog2 (n d : Nat) : Nat :=
  let k := 2000 + log2 n - log2 d
  -- 2^(k−2000) ≤ n/d holds for k or k − 1
  if (if 2000 ≤ k then d * 2 ^ (k - 2000) ≤ n else d ≤ n * 2 ^ (2000 - k)) then k else k - 1

/-- Round n / d to an integer multiple of 2^(e − 2000), to nearest, ties to even. -/
def roundAt (n d e : Nat) : Nat :=
  let p := if 2000 ≤ e then (n, d * 2 ^ (e - 2000)) else (n * 2 ^ (2000 - e), d)
  let q := p.1 / p.2
  let r := p.1 % p.2
  if 2 * r > p.2 ∨ (2 * r = p.2 ∧ q % 2 = 1) then q + 1 else q

/-- Truncate n / d to a multiple of 2^(e − 2000). -/
def truncAt (n d e : Nat) : Nat :=
  let p := if 2000 ≤ e then (n, d * 2 ^ (e - 2000)) else (n * 2 ^ (2000 - e), d)
  p.1 / p.2

/-- A conversion's result: the code, whether the element saturated (R71), whether it is a NaN (R73). -/
structure Conv where
  code : Nat
  sat : Bool
  nan : Bool
deriving DecidableEq, Repr

/-- Encode a magnitude already rounded to q × 2^(e − 2000) in a format, e the exponent of its last place. -/
def encodeMag (f : Nat) (neg : Bool) (q e : Nat) : Conv :=
  let s := b2n neg * 2 ^ (fmtMan f + fmtExp f)
  -- q has at most one bit more than the significand
  let q' := if q ≥ 2 ^ (fmtMan f + 1) then q / 2 else q
  let e' := if q ≥ 2 ^ (fmtMan f + 1) then e + 1 else e
  let expField := if q' < 2 ^ fmtMan f then 0 else e' + fmtMan f + fmtBias f - 2000
  let code := expField * 2 ^ fmtMan f + (q' % 2 ^ fmtMan f)
  if code > fmtMax f then ⟨s + fmtMax f, true, false⟩ else ⟨s + code, false, false⟩

/-- Convert a value to a format, to nearest with ties to even (R71–R73). MX element codes are those of the element
alone; a NaN there is the block's business (R73). -/
def convert (f : Nat) (x : Num) : Conv :=
  match x with
  | .nan => ⟨fmtNan f, false, true⟩
  | .inf neg =>
    if f = 7 then ⟨if neg then 0x80 else 127, true, false⟩
    else
      let s := b2n neg * 2 ^ (fmtMan f + fmtExp f)
      if fmtInf f then ⟨s + (2 ^ fmtExp f - 1) * 2 ^ fmtMan f, false, false⟩ else ⟨s + fmtMax f, true, false⟩
  | .fin neg n d =>
    if f = 7 then
      let q := roundAt n d 2000
      if neg then (if q > 128 then ⟨0x80, true, false⟩ else ⟨unsigned 8 (-(q : Int)), false, false⟩)
      else (if q > 127 then ⟨127, true, false⟩ else ⟨q, false, false⟩)
    else if n = 0 then ⟨b2n neg * 2 ^ (fmtMan f + fmtExp f), false, false⟩
    else
      let lowest := 2001 - fmtBias f          -- exponent of the smallest normal, offset 2000
      let e := Nat.max (flog2 n d) lowest - fmtMan f
      encodeMag f neg (roundAt n d e) e

/-- FP32 result of an operation: round, then flush a subnormal to zero when FTZ is 1 (R74). -/
def toF32 (ftz : Bool) (x : Num) : Conv :=
  let c := convert 0 x
  if ftz && !c.nan && decide (c.code % 2 ^ 31 < 2 ^ 23) then { c with code := c.code / 2 ^ 31 * 2 ^ 31 } else c

/-- A fraction in lowest terms. -/
def reduce (n d : Nat) : Nat × Nat := let g := Nat.gcd n d; if g = 0 then (n, d) else (n / g, d / g)

def mkFin (neg : Bool) (n d : Nat) : Num := let p := reduce n d; .fin neg p.1 p.2

def negNum : Num → Num
  | .nan => .nan
  | .inf s => .inf (!s)
  | .fin s n d => .fin (!s) n d

/-- The integer of a sign and a magnitude. -/
def sInt (neg : Bool) (n : Nat) : Int := if neg then -(n : Int) else (n : Int)

/-- Exact sum (R70, R72). An exact zero is +0 unless both terms are −0. -/
def addNum : Num → Num → Num
  | .nan, _ => .nan
  | _, .nan => .nan
  | .inf a, .inf b => if a = b then .inf a else .nan
  | .inf a, _ => .inf a
  | _, .inf b => .inf b
  | .fin s n d, .fin t m e =>
    let x : Int := sInt s (n * e) + sInt t (m * d)
    if x = 0 then .fin (s && t) 0 1 else mkFin (decide (x < 0)) x.natAbs (d * e)

/-- Exact product (R70, R72). -/
def mulNum : Num → Num → Num
  | .nan, _ => .nan
  | _, .nan => .nan
  | .inf a, .inf b => .inf (a != b)
  | .inf a, .fin t m _ => if m = 0 then .nan else .inf (a != t)
  | .fin s n _, .inf b => if n = 0 then .nan else .inf (s != b)
  | .fin s n d, .fin t m e => mkFin (s != t) (n * m) (d * e)

/-- Exact quotient; a finite nonzero value over zero is an infinity, zero over zero and infinity over infinity NaN. -/
def divNum : Num → Num → Num
  | .nan, _ => .nan
  | _, .nan => .nan
  | .inf _, .inf _ => .nan
  | .inf a, .fin t _ _ => .inf (a != t)
  | .fin s _ _, .inf b => .fin (s != b) 0 1
  | .fin s n d, .fin t m e =>
    if m = 0 then (if n = 0 then .nan else .inf (s != t)) else mkFin (s != t) (n * e) (d * m)

/-- a < b; a NaN is never smaller or larger (R73); −0 equals +0. -/
def ltNum : Num → Num → Bool
  | .nan, _ => false
  | _, .nan => false
  | .inf a, .inf b => a && !b
  | .inf a, .fin _ _ _ => a
  | .fin _ _ _, .inf b => !b
  | .fin s n d, .fin t m e =>
    decide (sInt s (n * e) < sInt t (m * d))

/-- Whether two values are equal as numbers. -/
def eqNum (a b : Num) : Bool :=
  !ltNum a b && !ltNum b a && !(match a, b with | .nan, _ => true | _, .nan => true | _, _ => false)

def isNan : Num → Bool
  | .nan => true
  | _ => false

/-! ### FP32 operations: each takes and gives codes, with one rounding (R70, R71, R74) -/

def f32 (c : Nat) : Num := decode 0 c
def fadd (ftz : Bool) (a b : Nat) : Conv := toF32 ftz (addNum (f32 a) (f32 b))
def fmul (ftz : Bool) (a b : Nat) : Conv := toF32 ftz (mulNum (f32 a) (f32 b))
def fdiv (ftz : Bool) (a b : Nat) : Conv := toF32 ftz (divNum (f32 a) (f32 b))

/-- The maximum and the minimum of IEEE 754 (R78): a NaN gives NaN, and −0 is below +0. -/
def maxNum (a b : Num) : Num :=
  match a, b with
  | .nan, _ => .nan
  | _, .nan => .nan
  | .fin s 0 _, .fin t 0 _ => .fin (s && t) 0 1
  | _, _ => if ltNum a b then b else a
def minNum (a b : Num) : Num :=
  match a, b with
  | .nan, _ => .nan
  | _, .nan => .nan
  | .fin s 0 _, .fin t 0 _ => .fin (s || t) 0 1
  | _, _ => if ltNum b a then b else a
def fmax (ftz : Bool) (a b : Nat) : Conv := toF32 ftz (maxNum (f32 a) (f32 b))
def fmin (ftz : Bool) (a b : Nat) : Conv := toF32 ftz (minNum (f32 a) (f32 b))

/-- The FP32 result of a function of R78, with R74's flush; what it counted stays counted. -/
def funcOut (ftz : Bool) (x : Conv) : Conv := { toF32 ftz (f32 x.code) with sat := x.sat, nan := x.nan }

/-! ### Correctly rounded functions (R78): rational enclosures refined until both ends round alike -/

/-- Integer square root by bits. -/
def isqrtGo (n : Nat) : Nat → Nat → Nat
  | 0, r => r
  | k + 1, r => if (r + 2 ^ k) * (r + 2 ^ k) ≤ n then isqrtGo n k (r + 2 ^ k) else isqrtGo n k r

def isqrt (n : Nat) : Nat := isqrtGo n (log2 n / 2 + 1) 0

/-- Terms of exp's series: (term low, term high, sum low, sum high) after i terms. -/
def expTerms (n d p : Nat) : Nat → Nat × Nat × Nat × Nat
  | 0 => (2 ^ p, 2 ^ p, 2 ^ p, 2 ^ p)
  | i + 1 =>
    let (tl, th, sl, sh) := expTerms n d p i
    let tl := tl * n / (d * (i + 1))
    let th := cdiv (th * n) (d * (i + 1))
    (tl, th, sl + tl, sh + th)

/-- Square an enclosure k times, in units of 2^−p. -/
def squareUp (p : Nat) : Nat → Nat × Nat → Nat × Nat
  | 0, x => x
  | k + 1, (lo, hi) => squareUp p k (lo * lo / 2 ^ p, cdiv (hi * hi) (2 ^ p))

/-- Enclosure of exp(n / d), n / d ≥ 0, in units of 2^−p: the argument is halved until below 1/2, the series is summed,
and the result squared back. -/
def expPos (n d p : Nat) : Nat × Nat :=
  let k := (flog2 (n + 1) d + 2) - 2000
  let (_, th, sl, sh) := expTerms n (d * 2 ^ k) p (p / 2 + 8)
  squareUp p k (sl, sh + 2 * th + 2)

/-- Enclosure of exp of a signed rational as two fractions. -/
def expIv (neg : Bool) (n d p : Nat) : (Nat × Nat) × (Nat × Nat) :=
  let (lo, hi) := expPos n d p
  if neg then ((2 ^ p, hi), (2 ^ p, lo)) else ((lo, 2 ^ p), (hi, 2 ^ p))

/-- Round an enclosure of a value of known sign to FP32, when both ends round alike. -/
def roundIv (neg : Bool) (lo hi : Nat × Nat) : Option Conv :=
  let a := convert 0 (.fin neg lo.1 lo.2)
  let b := convert 0 (.fin neg hi.1 hi.2)
  if a = b then some a else none

/-- Refine until the two ends agree: the precision doubles at each try. -/
def refine (g : Nat → Option Conv) : Nat → Nat → Conv
  | 0, _ => ⟨fmtNan 0, false, true⟩
  | k + 1, p => match g p with
    | some c => c
    | none => refine g k (2 * p)

/-- exp, correctly rounded (R78). -/
def fexp (x : Num) : Conv :=
  match x with
  | .nan => convert 0 .nan
  | .inf true => ⟨0, false, false⟩
  | .inf false => convert 0 (.inf false)
  | .fin neg n d =>
    if n = 0 then convert 0 (.fin false 1 1)
    else if neg ∧ 200 * d < n then ⟨0, false, false⟩
    else if ¬neg ∧ 200 * d < n then ⟨fmtMax 0, true, false⟩
    else refine (fun p => let (lo, hi) := expIv neg n d p; roundIv false lo hi) 8 64

/-- Terms of 2·atanh(n / d) in units of 2^−p: odd powers, low and high. -/
def atanhTerms (n d p : Nat) : Nat → Nat × Nat × Nat × Nat
  | 0 => (2 * n * 2 ^ p / d, cdiv (2 * n * 2 ^ p) d, 2 * n * 2 ^ p / d, cdiv (2 * n * 2 ^ p) d)
  | i + 1 =>
    let (tl, th, sl, sh) := atanhTerms n d p i
    let tl := tl * n * n / (d * d)
    let th := cdiv (th * n * n) (d * d)
    (tl, th, sl + tl / (2 * i + 3), sh + cdiv th (2 * i + 3))

/-- Enclosure of 2·atanh(n / d), 0 ≤ n / d ≤ 1/3, in units of 2^−p. -/
def atanh2 (n d p : Nat) : Nat × Nat :=
  let (_, th, sl, sh) := atanhTerms n d p (p / 3 + 4)
  (sl, sh + th + 2)

/-- log, correctly rounded (R78): of n / d = m × 2^k with 1 ≤ m < 2. -/
def flog (x : Num) : Conv :=
  match x with
  | .nan => convert 0 .nan
  | .inf true => convert 0 .nan
  | .inf false => convert 0 (.inf false)
  | .fin neg n d =>
    if n = 0 then convert 0 (.inf true)
    else if neg then convert 0 .nan
    else if n = d then ⟨0, false, false⟩
    else
      let k := flog2 n d
      let m := if 2000 ≤ k then (n, d * 2 ^ (k - 2000)) else (n * 2 ^ (2000 - k), d)
      refine (fun p =>
        let (al, ah) := atanh2 (m.1 - m.2) (m.1 + m.2) p
        let (bl, bh) := atanh2 1 3 p
        if 2000 ≤ k then
          roundIv false (al + (k - 2000) * bl, 2 ^ p) (ah + (k - 2000) * bh, 2 ^ p)
        else
          let lo := (2000 - k) * bl - ah
          let hi := (2000 - k) * bh - al
          if lo = 0 then none else roundIv true (lo, 2 ^ p) (hi, 2 ^ p)) 8 96

/-- recip, correctly rounded (R78). -/
def frecip (x : Num) : Conv :=
  match x with
  | .nan => convert 0 .nan
  | .inf s => convert 0 (.fin s 0 1)
  | .fin s n d => if n = 0 then convert 0 (.inf s) else convert 0 (.fin s d n)

/-- rsqrt, correctly rounded (R78). rsqrt(−0) is not stated by R78: the limit −∞ of IEEE 754 (log entry 6). -/
def frsqrt (x : Num) : Conv :=
  match x with
  | .nan => convert 0 .nan
  | .inf true => convert 0 .nan
  | .inf false => ⟨0, false, false⟩
  | .fin s n d =>
    if n = 0 then convert 0 (.inf s)
    else if s then convert 0 .nan
    else refine (fun p =>
      let r := isqrt (d * 4 ^ p / n)
      if r * r * n = d * 4 ^ p then some (convert 0 (.fin false r (2 ^ p)))
      else roundIv false (r, 2 ^ p) (r + 1, 2 ^ p)) 8 256

/-- x ÷ (1 + e^−y) for an enclosure of e^−y: what silu and gelu share. -/
def overOnePlus (n d : Nat) (e : (Nat × Nat) × (Nat × Nat)) : (Nat × Nat) × (Nat × Nat) :=
  ((n * e.2.2, d * (e.2.2 + e.2.1)), (n * e.1.2, d * (e.1.2 + e.1.1)))

/-- silu(x) = x ÷ (1 + e^−x), correctly rounded (R78). -/
def fsilu (x : Num) : Conv :=
  match x with
  | .nan => convert 0 .nan
  | .inf true => convert 0 (.fin true 0 1)
  | .inf false => convert 0 (.inf false)
  | .fin s n d =>
    if n = 0 then convert 0 (.fin s 0 1)
    else if s ∧ 300 * d < n then convert 0 (.fin true 0 1)
    else if 300 * d < n then convert 0 (.fin false n d)
    else refine (fun p => let (lo, hi) := overOnePlus n d (expIv (!s) n d p); roundIv s lo hi) 8 96

/-- Terms of atan(1 / q) in units of 2^−p (alternating): sum of even and of odd terms. -/
def atanTerms (q p : Nat) : Nat → Nat × Nat
  | 0 => (2 ^ p / q, 0)
  | i + 1 =>
    let (a, b) := atanTerms q p i
    let t := 2 ^ p / (q ^ (2 * i + 3) * (2 * i + 3))
    if i % 2 = 0 then (a, b + t) else (a + t, b)

/-- Enclosure of π in units of 2^−p, by Machin's formula; the slack covers truncation of every term. -/
def piIv (p : Nat) : Nat × Nat :=
  let n := p / 4 + 4
  let (a, b) := atanTerms 5 p n
  let (c, d) := atanTerms 239 p n
  let v := 16 * (a - b) - 4 * (c - d)
  (v - 64 * (n + 2), v + 64 * (n + 2))

/-- gelu(x) = x ÷ (1 + e^−2y), y = √(2/π) (x + 0.044715 x³): the tanh form of R78, correctly rounded. -/
def fgelu (x : Num) : Conv :=
  match x with
  | .nan => convert 0 .nan
  | .inf true => convert 0 (.fin true 0 1)
  | .inf false => convert 0 (.inf false)
  | .fin s n d =>
    if n = 0 then convert 0 (.fin s 0 1)
    else if s ∧ 300 * d < n then convert 0 (.fin true 0 1)
    else if 300 * d < n then convert 0 (.fin false n d)
    else refine (fun p =>
      let (pl, ph) := piIv p
      -- √(2/π) in units of 2^−p
      let cl := isqrt (2 * 8 ^ p / ph)
      let ch := isqrt (2 * 8 ^ p / pl) + 1
      -- 2 (x + 0.044715 x³) = 2 n (10^6 d² + 44715 n²) / (10^6 d³)
      let un := 2 * n * (1000000 * d * d + 44715 * n * n)
      let ud := 1000000 * d * d * d
      let eLo := expIv (!s) (un * (if s then cl else ch)) (ud * 2 ^ p) p
      let eHi := expIv (!s) (un * (if s then ch else cl)) (ud * 2 ^ p) p
      let e := (eLo.1, eHi.2)
      let (lo, hi) := overOnePlus n d e
      roundIv s lo hi) 8 128

/-! ### MX blocks (R68, R75, R76) -/

/-- The value of an MX element under a scale byte (R68). -/
def mxValue (f scale code : Nat) : Num :=
  if scale = 0xFF then .nan
  else match decode f code with
    | .fin s n d => let p := scaled n scale 127; mkFin s p.1 (d * p.2)
    | x => x

/-- Largest magnitude among the finite elements of a block, as a fraction. -/
def amax : List Num → Nat × Nat
  | [] => (0, 1)
  | .fin _ n d :: t => let m := amax t; if m.1 * d < n * m.2 then (n, d) else m
  | _ :: t => amax t

/-- A written MX block: scale byte, element codes, saturations counted, NaN seen. -/
structure MxBlock where
  scale : Nat
  elems : List Nat
  sats : Nat
  nan : Bool
deriving DecidableEq, Repr

/-- Round a quotient's magnitude to an element format; rnd is the 16-bit random value of stochastic rounding, none for
round to nearest. The clamp to the largest element is not a saturation (R75 step 4, R76). -/
def mxElem (f : Nat) (neg : Bool) (n d : Nat) (rnd : Option Nat) : Nat :=
  let s := b2n neg * 2 ^ (fmtMan f + fmtExp f)
  if n = 0 then s
  else
    let lowest := 2001 - fmtBias f
    let e := Nat.max (flog2 n d) lowest - fmtMan f
    match rnd with
    | none => (encodeMag f neg (roundAt n d e) e).code
    | some r =>
      -- add r / 2^16 of a unit in the last place, then truncate
      let u := if 2000 ≤ e then (r * 2 ^ (e - 2000), 65536) else (r, 65536 * 2 ^ (2000 - e))
      let n' := n * u.2 + u.1 * d
      let d' := d * u.2
      (encodeMag f neg (truncAt n' d' e) e).code

/-- Write one 32-element MX block (R75). rnds gives the random value of each element, or none. -/
def mxBlock (f : Nat) (xs : List Num) (rnds : Option (List Nat)) : MxBlock :=
  if xs.any isNan then ⟨0xFF, xs.map fun _ => 0, 0, true⟩
  else
    let m := amax xs
    let emax := if f = 6 then 2 else 4
    let sc := if m.1 = 0 then 127 else Nat.max (flog2 m.1 m.2 + 127) (2000 + emax) - (2000 + emax)
    let p := scaled 1 127 sc
    let els := (List.range xs.length).map fun i =>
      match xs.getD i .nan with
      | .fin s n d => mxElem f s (n * p.1) (d * p.2) (rnds.map fun l => l.getD i 0)
      | .inf s => b2n s * 2 ^ (fmtMan f + fmtExp f) + fmtMax f
      | .nan => 0
    ⟨sc, els, (xs.filter fun x => match x with | .inf _ => true | _ => false).length, false⟩

/-- Bits of a list of element codes of width w, packed least significant first (R68). -/
def packElems (w : Nat) (cs : List Nat) : Nat := cs.foldr (fun c a => c % 2 ^ w + a * 2 ^ w) 0

/-- A row of element codes as bytes (R68). -/
def packRow (f : Nat) (cs : List Nat) : List Byte := toLE (cs.length * fmtWidth f / 8) (packElems (fmtWidth f) cs)

/-- n element codes from packed bytes (R68). -/
def unpackRow (f : Nat) (bs : List Byte) (n : Nat) : List Nat :=
  let w := ofLE bs
  (List.range n).map fun i => bits w (fmtWidth f * (i + 1) - 1) (fmtWidth f * i)

/-- Bytes one element of a non-MX format takes. -/
def elemBytes (f : Nat) : Nat := fmtWidth f / 8

/-- The value of a row of n elements: element bytes, and for MX formats its scale bytes (R68). -/
def rowValues (f : Nat) (elems scales : List Byte) (n : Nat) : List Num :=
  let cs := unpackRow f elems n
  if f = 5 ∨ f = 6 then
    (List.range n).map fun i => mxValue f ((scales.getD (i / 32) 0).toNat) (cs.getD i 0)
  else cs.map (decode f)

/-! ### Dot products (R70) -/

/-- Sum of products exact, over one group of at most 16 positions. -/
def groupSum : List Num → List Num → Num
  | a :: as, b :: bs => match as, bs with
    | [], _ => mulNum a b
    | _, [] => mulNum a b
    | _, _ => addNum (mulNum a b) (groupSum as bs)
  | _, _ => .fin false 0 1

/-- An accumulator and what its roundings counted. -/
structure Acc where
  code : Nat
  sats : Nat
  nan : Bool
deriving DecidableEq, Repr

def accConv (a : Acc) (c : Conv) : Acc := ⟨c.code, a.sats + b2n c.sat, a.nan || c.nan⟩

/-- A dot product added into an accumulator, 16 K positions at a time, each group rounded once to FP32 and then added
with a second rounding (R70). fuel bounds the groups. DESIGN CHOICE (log entry 110): each rounding that saturates counts (R71). -/
def dotGroups (ftz : Bool) : Nat → Acc → List Num → List Num → Acc
  | 0, acc, _, _ => acc
  | k + 1, acc, as, bs =>
    if as.isEmpty ∨ bs.isEmpty then acc
    else
      let g := toF32 ftz (groupSum (as.take 16) (bs.take 16))
      let acc := { acc with sats := acc.sats + b2n g.sat, nan := acc.nan || g.nan }
      dotGroups ftz k (accConv acc (fadd ftz acc.code g.code)) (as.drop 16) (bs.drop 16)

/-- A dot product of two FP32 rows: one fused multiply-add per K position (R70). -/
def dotFma (ftz : Bool) : Acc → List Num → List Num → Acc
  | acc, a :: as, b :: bs => dotFma ftz (accConv acc (toF32 ftz (addNum (mulNum a b) (f32 acc.code)))) as bs
  | acc, _, _ => acc

/-- The dot product of R70 for operands of formats fa and fb. -/
def dot (ftz : Bool) (fa fb : Nat) (acc : Acc) (as bs : List Num) : Acc :=
  if fa = 0 ∨ fb = 0 then dotFma ftz acc as bs else dotGroups ftz (as.length / 16 + 1) acc as bs

end Sys2Proof.Machine
end

