-- ==== Sys2Proof/Machine/TokenMath.lean ====
section
/-! DEFINITION. The choice pipeline of a token unit (R117–R122), masks and grammars (R123–R127), speculative
verification and its adaptation (R129–R133). Values are FP32 codes. -/
namespace Sys2Proof.Machine

/-- A choice record's fields (R118). -/
structure ChoiceRec where
  temp : Nat
  topP : Nat
  minP : Nat
  topK : Nat
  greedy : Bool
  hostMask : Bool
  allowList : Bool
  useGrammar : Bool
  grammarId : Nat
  draftMax : Nat
  penPrompt : Bool
  rep : Nat
  freq : Nat
  pres : Nat
  penWindow : Nat
  seed : Nat
  maskAddr : Nat
  allowCount : Nat
deriving DecidableEq, Repr

/-- Read a choice record's 64 bytes (R118). -/
def choiceOf (b : List Byte) : ChoiceRec :=
  let w1 := w64At b 8
  ⟨leAt b 0 4, leAt b 4 4, leAt b 8 4, bits w1 42 32, bit w1 43, bit w1 44, bit w1 45, bit w1 46, bits w1 52 47,
   bits w1 57 53, bit w1 58, leAt b 0x10 4, leAt b 0x14 4, leAt b 0x18 4, leAt b 0x1C 2, w64At b 0x20, w64At b 0x28,
   bits (w64At b 0x30) 12 0⟩

/-- lo ≤ x ≤ hi for an FP32 code, NaN and infinities failing (R118). -/
def inRange32 (x : Nat) (lo hi : Num) : Bool :=
  match f32 x with
  | .fin s n d => !ltNum (.fin s n d) lo && !ltNum hi (.fin s n d)
  | _ => false

def numI (neg : Bool) (n : Nat) : Num := .fin neg n 1

/-- Bytes R123 places from MASK_ADDR. -/
def maskBytes (r : ChoiceRec) (v : Nat) : Nat :=
  if r.allowList then (if r.hostMask then 4 * cdiv v 32 else 0) + 4 * r.allowCount
  else if r.hostMask then cdiv v 8 else 0

/-- The checks of R118 in ascending offset: the offset of the first failing field. grammarOk says whether a grammar ID
is resident and the slot's context's; maskOk whether a range lies in the context's memory. -/
def choiceCheck (b : List Byte) (v : Nat) (grammarOk : Nat → Bool) (maskOk : Nat → Nat → Bool) : Option Nat :=
  let r := choiceOf b
  let checks : List (Bool × Nat) :=
    [(inRange32 r.temp (numI false 0) (numI false 100), 0x00),
     (inRange32 r.topP (numI false 0) (numI false 1) && ltNum (numI false 0) (f32 r.topP), 0x04),
     (inRange32 r.minP (numI false 0) (numI false 1) && ltNum (f32 r.minP) (numI false 1), 0x08),
     (decide (r.topK ≤ 1024), 0x0C),
     (!r.useGrammar || grammarOk r.grammarId, 0x0D),
     (decide (r.draftMax ≤ 16), 0x0E),
     (bits (w64At b 8) 63 59 == 0, 0x0F),
     (inRange32 r.rep (numI false 1) (numI false 10), 0x10),
     (inRange32 r.freq (numI true 10) (numI false 10), 0x14),
     (inRange32 r.pres (numI true 10) (numI false 10), 0x18),
     (leAt b 0x1E 2 == 0, 0x1E),
     (decide (r.maskAddr < 2 ^ 44) && (!(r.hostMask || r.allowList) || maskOk r.maskAddr (maskBytes r v)), 0x28),
     (if r.allowList then decide (1 ≤ r.allowCount ∧ r.allowCount ≤ 4096) else r.allowCount == 0, 0x30),
     (bits (w64At b 0x30) 63 13 == 0, 0x31),
     (w64At b 0x38 == 0, 0x38)]
  (checks.find? (fun c => !c.1)).map (·.2)

/-! ### Grammars (R125, R126) -/

/-- Header fields of a grammar table (R125). -/
def gramStates (b : List Byte) : Nat := bits (w64At b 8) 16 0
def gramEntries (b : List Byte) : Nat := bits (w64At b 8) 39 17
def gramStart (b : List Byte) : Nat := bits (w64At b 8) 55 40
def gramVocab (b : List Byte) : Nat := bits (w64At b 0x10) 18 0
/-- Words of state q and of entry i. -/
def gramState (b : List Byte) (q : Nat) : Nat := w64At b (64 + 16 * q)
def gramDefault (b : List Byte) (q : Nat) : Nat := w64At b (64 + 16 * q + 8)
def gramEntry (b : List Byte) (i : Nat) : Nat := w64At b (64 + 16 * gramStates b + 8 * i)

/-- The rule of R125 on one state and its entries. -/
def gramStateOk (b : List Byte) (q : Nat) : Bool :=
  let w := gramState b q
  let first := bits w 31 0
  let n := bits w 54 32
  let d := gramDefault b q
  decide (first + n ≤ gramEntries b) && bits w 63 57 == 0 && bits d 63 16 == 0 &&
    decide (bits d 15 0 < gramStates b) && (bit w 56 || bits d 15 0 == 0) &&
    ((List.range n).all fun j => j == 0 ||
      decide (bits (gramEntry b (first + j - 1)) 35 18 < bits (gramEntry b (first + j)) 17 0))

/-- The rule of R125 on one entry. -/
def gramEntryOk (b : List Byte) (i : Nat) : Bool :=
  let w := gramEntry b i
  decide (bits w 17 0 < gramVocab b) && decide (bits w 17 0 ≤ bits w 35 18) && decide (bits w 35 18 < gramVocab b) &&
    decide (bits w 51 36 < gramStates b) && (!bit w 52 || bits w 51 36 == 0) && bits w 63 53 == 0

/-- Every rule of R125 on a table of the given length, TABLE_CRC included. -/
def gramOk (b : List Byte) : Bool :=
  leAt b 0 4 == 0x47524D31 && leAt b 4 2 == 1 && leAt b 6 2 == 0 &&
    decide (1 ≤ gramStates b ∧ gramStates b ≤ 65536) && decide (gramEntries b ≤ 4194304) &&
    decide (gramStart b < gramStates b) && bits (w64At b 8) 63 56 == 0 &&
    decide (1 ≤ gramVocab b ∧ gramVocab b ≤ 262144) && bits (w64At b 0x10) 63 19 == 0 && leAt b 0x1C 4 == 0 &&
    (slice b 0x20 32).all (· == 0) && b.length == 64 + 16 * gramStates b + 8 * gramEntries b &&
    leAt b 0x18 4 == crc32c (b.drop 64) &&
    (List.range (gramStates b)).all (gramStateOk b) && (List.range (gramEntries b)).all (gramEntryOk b)

/-- Where a token leads from a state: none when it is disallowed (R125). -/
def gramNext (b : List Byte) (q tok : Nat) : Option Nat :=
  let w := gramState b q
  match (List.range (bits w 54 32)).find? fun j =>
      let e := gramEntry b (bits w 31 0 + j)
      decide (bits e 17 0 ≤ tok ∧ tok ≤ bits e 35 18) with
  | some j => let e := gramEntry b (bits w 31 0 + j); if bit e 52 then none else some (bits e 51 36)
  | none => if bit w 56 then some (bits (gramDefault b q) 15 0) else none

/-- Whether a state accepts: a plan stop token is allowed only there (R126). -/
def gramAccept (b : List Byte) (q : Nat) : Bool := bit (gramState b q) 55

/-! ### Masks (R123, R124) -/

/-- What masks a slot has: host bitmask bytes, allowed IDs, and the grammar's table and state. -/
structure Masks where
  host : Option (List Byte)
  allow : Option (List Nat)
  gram : Option (List Byte × Nat)
deriving DecidableEq, Repr

/-- Whether every enabled mask source allows a token; a stop token under a grammar only in an accepting state
(R123, R126). -/
def allowed (m : Masks) (stops : List Nat) (tok : Nat) : Bool :=
  (match m.host with | some b => bit ((b.getD (tok / 8) 0).toNat) (tok % 8) | none => true) &&
  (match m.allow with | some l => l.contains tok | none => true) &&
  (match m.gram with
   | some (b, q) => if stops.contains tok then gramAccept b q else (gramNext b q tok).isSome
   | none => true)

/-- Index of the first bad entry of an allow-list (R124): reserved bits, an ID at or above V, or out of order. -/
def badAllow (v : Nat) : List Nat → Nat → Nat → Option Nat
  | [], _, _ => none
  | e :: es, i, prev =>
    if e ≥ 2 ^ 18 ∨ e ≥ v ∨ (i > 0 ∧ e ≤ prev) then some i else badAllow v es (i + 1) e

/-! ### The pipeline (R117) -/

/-- A candidate: token and FP32 value or probability. -/
abbrev Cand := Nat × Nat

/-- What widening a position's logits finds (R117 stage 1): candidates, NaN seen, infinities clamped. -/
structure Widened where
  cands : List Cand
  nan : Bool
  sats : Nat
deriving DecidableEq, Repr

/-- Stage 1: widen to FP32, exclude NaN and −∞, clamp +∞. fmt is the logit format, codes in token order. -/
def widen (fmt : Nat) (codes : List Nat) : Widened :=
  (List.range codes.length).foldr (fun t w =>
    match decode fmt (codes.getD t 0) with
    | .nan => { w with nan := true }
    | .inf true => w
    | .inf false => { w with cands := (t, 0x7F7FFFFF) :: w.cands, sats := w.sats + 1 }
    | x => { w with cands := (t, (convert 0 x).code) :: w.cands }) ⟨[], false, 0⟩

/-- Occurrences of a token in the counted part of the token log (R119): the last PEN_WINDOW entries, prompt entries
(bit 18) only when PEN_PROMPT is 1, drafts added. -/
def penCount (r : ChoiceRec) (log drafts : List Nat) (tok : Nat) : Nat :=
  if r.penWindow = 0 then 0
  else
    let win := log.drop (log.length - r.penWindow)
    (win.filter fun e => bits e 17 0 == tok && (r.penPrompt || !bit e 18)).length +
      (drafts.filter (· == tok)).length

/-- Stage 2 (R119), one FP32 rounding an operation. -/
def penalise (r : ChoiceRec) (log drafts : List Nat) (c : Cand) : Cand :=
  let n := penCount r log drafts c.1
  if n = 0 then c
  else
    let x := c.2
    let x := if ltNum (numI false 0) (f32 x) then (fdiv false x r.rep).code else (fmul false x r.rep).code
    let nf := (convert 0 (numI false n)).code
    let x := (toF32 false (addNum (f32 x) (negNum (f32 (fmul false nf r.freq).code)))).code
    (c.1, (toF32 false (addNum (f32 x) (negNum (f32 r.pres)))).code)

/-- Larger value first, lower ID among equals. -/
def candLe (a b : Cand) : Bool :=
  if ltNum (f32 b.2) (f32 a.2) then true else if ltNum (f32 a.2) (f32 b.2) then false else decide (a.1 ≤ b.1)

/-- Insert into a list ordered by candLe. -/
def candInsert (x : Cand) : List Cand → List Cand
  | [] => [x]
  | y :: ys => if candLe x y then x :: y :: ys else y :: candInsert x ys

/-- The candidate order of R120: descending, lower ID first among equals. -/
def candSort (l : List Cand) : List Cand := l.foldr candInsert []

/-- Sum of FP32 codes in order, one rounding an addition (R117 stage 7). -/
def sumF (l : List Nat) : Nat := l.foldl (fun a x => (fadd false a x).code) 0

/-- Normalise terms: each times fl(recip(sum)) (R117 stage 7, R130), under the context's FTZ (R74, R78). -/
def normalise (ftz : Bool) (l : List Cand) : List Cand :=
  let inv := (funcOut ftz (frecip (f32 (sumF (l.map (·.2)))))).code
  l.map fun c => (c.1, (fmul ftz c.2 inv).code)

/-- The shortest prefix whose cumulative probability reaches TOP_P; the first is always kept (R120). -/
def topPrefix (p : Nat) : List Cand → Nat → List Cand
  | [], _ => []
  | c :: cs, acc =>
    let acc := (fadd false acc c.2).code
    if ltNum (f32 acc) (f32 p) then c :: topPrefix p cs acc else [c]

/-- Stages 5 to 8: the final candidate distribution (R117, R120): filters that are off are skipped. The softmax is of FP32 differences, under
the context's FTZ (R74, R78). -/
def distribution (ftz : Bool) (r : ChoiceRec) (l : List Cand) : List Cand :=
  let l := l.map fun c => (c.1, (fdiv false c.2 r.temp).code)
  let l := candSort l
  let l := if r.topK = 0 then l else l.take r.topK
  match l with
  | [] => []
  | top :: _ =>
    let e := l.map fun c => (c.1, (funcOut ftz (fexp (f32 (toF32 ftz (addNum (f32 c.2) (negNum (f32 top.2)))).code))).code)
    let p := candSort (normalise ftz e)
    let p := if r.topP = 0x3F800000 then p else topPrefix r.topP p 0
    match p with
    | [] => []
    | b :: _ =>
      let th := (fmul false r.minP b.2).code
      p.filter fun c => !ltNum (f32 c.2) (f32 th)

/-! ### The generator and the sampler (R121, R122) -/

/-- mix of R121. -/
def mix64 (z : Nat) : Nat :=
  let z := ((z ^^^ (z >>> 30)) * 0xBF58476D1CE4E5B9) % 2 ^ 64
  let z := ((z ^^^ (z >>> 27)) * 0x94D049BB133111EB) % 2 ^ 64
  z ^^^ (z >>> 31)

/-- The uniform draw u of R121, as an FP32 code. -/
def uniform (seed position draw : Nat) : Nat :=
  let z := (seed + 0x9E3779B97F4A7C15 * (position * 4 + draw + 1)) % 2 ^ 64
  (convert 0 (.fin false (mix64 z >>> 40) 16777216)).code

/-- Walk the candidates: the first whose running sum exceeds the threshold, else the last (R122). -/
def sampleGo (th : Nat) : List Cand → Nat → Option Nat → Option Nat
  | [], _, last => last
  | c :: cs, acc, _ =>
    let acc := (fadd false acc c.2).code
    if ltNum (f32 th) (f32 acc) then some c.1 else sampleGo th cs acc (some c.1)

/-- The sampler of R122. -/
def sample (u : Nat) (l : List Cand) : Option Nat :=
  sampleGo (fmul false u (sumF (l.map (·.2)))).code l 0 none

/-- Greedy choice (R117 stage 4): largest value, lowest ID on a tie. -/
def greedyPick (l : List Cand) : Option Nat := (candSort l).head?.map (·.1)

/-- Whether the record chooses greedily. -/
def isGreedy (r : ChoiceRec) : Bool := r.greedy || r.temp % 2 ^ 31 == 0

/-- Values of a position after stages 1 to 3. -/
def masked (r : ChoiceRec) (fmt : Nat) (codes log drafts : List Nat) (m : Masks) (stops : List Nat) : Widened :=
  let w := widen fmt codes
  { w with cands := (w.cands.map (penalise r log drafts)).filter fun c => allowed m stops c.1 }

/-- Probability of a token in a distribution, 0 when it is no candidate. -/
def probOf (l : List Cand) (t : Nat) : Nat := ((l.find? (·.1 == t)).map (·.2)).getD 0

/-- The residual distribution r(v) = max(0, p(v) − q(v)), in candidate order (R130). -/
def residual (p q : List Cand) : List Cand :=
  candSort ((p.map fun c =>
    (c.1, (toF32 false (addNum (f32 c.2) (negNum (f32 (probOf q c.1))))).code)).filter fun c =>
      ltNum (numI false 0) (f32 c.2))

/-- Whether draft t is accepted: u < p(t) ÷ q(t) (R130). DESIGN CHOICE (log entry 119): the quotient is rounded to FP32 before it is compared. -/
def acceptDraft (u : Nat) (p q : List Cand) (t : Nat) : Bool :=
  ltNum (f32 u) (f32 (fdiv false (probOf p t) (probOf q t)).code)

/-- What a slot's verification emits: tokens, accepted drafts, MASK_EMPTY seen. -/
structure Verified where
  tokens : List Nat
  accepted : Nat
  empty : Bool
deriving DecidableEq, Repr

/-- Choose one token from a position's masked values with the given draw (R117). -/
def choose (ftz : Bool) (r : ChoiceRec) (pos draw : Nat) (vals : List Cand) : Option Nat :=
  if isGreedy r then greedyPick vals else sample (uniform r.seed pos draw) (distribution ftz r vals)

/-- The token a draft sequence proposes at a position from its distribution q under the slot's choice record (R121): with draw 3, or
greedily. -/
def draftToken (r : ChoiceRec) (pos : Nat) (q : List Cand) : Option Nat :=
  if isGreedy r then greedyPick q else sample (uniform r.seed pos 3) (candSort q)

/-- The drafts from position pos on, each with its distribution; a distribution that gives no token ends them. -/
def draftList (r : ChoiceRec) : Nat → List (List Cand) → List (Nat × List Cand)
  | _, [] => []
  | pos, q :: qs => match draftToken r pos q with
    | some d => (d, candSort q) :: draftList r (pos + 1) qs
    | none => []

/-- Verify drafts from position pos on: vals gives each position's masked values as a function of the drafts before
it, drafts the proposed tokens with their distributions q (R130, R131). -/
def verify (ftz : Bool) (r : ChoiceRec) (vals : Nat → List Cand) : List (Nat × List Cand) → Nat → Nat → Verified
  | [], i, pos =>
    match choose ftz r pos 0 (vals i) with
    | some t => ⟨[t], 0, false⟩
    | none => ⟨[], 0, true⟩
  | (d, q) :: ds, i, pos =>
    let v := vals i
    if v.isEmpty then ⟨[], 0, true⟩
    else if isGreedy r then
      (if greedyPick v = some d then
        let x := verify ftz r vals ds (i + 1) (pos + 1)
        { x with tokens := d :: x.tokens, accepted := x.accepted + 1 }
       else ⟨(greedyPick v).toList, 0, false⟩)
    else
      let p := distribution ftz r v
      if acceptDraft (uniform r.seed pos 1) p q d then
        let x := verify ftz r vals ds (i + 1) (pos + 1)
        { x with tokens := d :: x.tokens, accepted := x.accepted + 1 }
      else
        let res := residual p q
        let from_ := if res.isEmpty then p else normalise ftz res
        ⟨(sample (uniform r.seed pos 2) from_).toList, 0, false⟩

/-- Emission ends at the first stop token or at a limit (R132); drafts after it count as rejected. -/
def cutAtStop (stops : List Nat) : List Nat → List Nat
  | [] => []
  | t :: ts => if stops.contains t then [t] else t :: cutAtStop stops ts

/-! ### Draft adaptation (R129, R133) -/

/-- DRAFT_LEN, REJECT_STREAK, ACCEPT_STREAK, PROBE_COUNT of a choice state (R128). -/
structure Adapt where
  draftLen : Nat
  reject : Nat
  accept : Nat
  probe : Nat
deriving DecidableEq, Repr

/-- Drafts of a step (R129): the lowest of DRAFT_LEN, DRAFT_MAX and the limit of R60; a 64th step at length 0 probes
with one (R133). permitted is R129's three conditions. -/
def draftCount (a : Adapt) (draftMax length : Nat) (permitted : Bool) : Nat :=
  if !permitted then 0
  else if a.draftLen = 0 then (if a.probe = 63 ∧ draftMax > 0 ∧ 4194304 - length - 1 > 0 then 1 else 0)
  else Nat.min (Nat.min a.draftLen draftMax) (4194304 - length - 1)

/-- The update after a step that ran d drafts and accepted a (R133). -/
def adapt (s : Adapt) (d a draftMax : Nat) : Adapt :=
  if s.draftLen = 0 then
    (if s.probe = 63 ∧ d = 1 then ⟨if a = 1 then Nat.min 2 draftMax else 0, s.reject, s.accept, 0⟩
     else { s with probe := Nat.min 63 (s.probe + 1) })
  else if d = 0 then s
  else if a = 0 then
    (if s.reject + 1 = 4 then { s with draftLen := s.draftLen / 2, reject := 0, accept := 0 }
     else { s with reject := s.reject + 1, accept := 0 })
  else if a = d then
    (if s.accept + 1 = 8 then { s with draftLen := Nat.min (2 * s.draftLen) draftMax, accept := 0, reject := 0 }
     else { s with accept := s.accept + 1, reject := 0 })
  else { s with reject := 0, accept := 0 }

end Sys2Proof.Machine
end

