-- ==== Sys2Proof/Machine/Fabric.lean ====
section
/-! DEFINITION. Ebesh: frames, paths, egress and ingress (R181–R196, R325–R328). -/
namespace Sys2Proof.Machine

/-! ### Packet types (R185) -/

def ptWrite : Nat := 0x01
def ptWriteImm : Nat := 0x02
def ptReadReq : Nat := 0x03
def ptReadResp : Nat := 0x04
def ptAtomicReq : Nat := 0x05
def ptAtomicResp : Nat := 0x06
def ptFlushReq : Nat := 0x07
def ptFlushResp : Nat := 0x08
def ptSend : Nat := 0x09
def ptAck : Nat := 0x0A
def ptNak : Nat := 0x0B
def ptLoadReq : Nat := 0x10
def ptLoadResp : Nat := 0x11
def ptStore : Nat := 0x12
def ptStoreResp : Nat := 0x13
def ptCoherence : Nat := 0x14
def ptPaneReq : Nat := 0x20
def ptControl : Nat := 0x21
def ptTimeSync : Nat := 0x30
def ptTimeReq : Nat := 0x31
def ptTimeResp : Nat := 0x32

/-- Types with a Multi-packet mark. -/
def multiPkt (t : Nat) : Bool := [0x01, 0x02, 0x04, 0x09, 0x20, 0x21].contains t
/-- The time types. -/
def timeType (t : Nat) : Bool := [0x30, 0x31, 0x32].contains t
/-- ACK, NAK and the time types: always green, never windowed, never policed (R186, R193, R328). -/
def plainType (t : Nat) : Bool := [0x0A, 0x0B, 0x30, 0x31, 0x32].contains t
/-- Whether a payload of n bytes is within the limits of a type (R185). -/
def payloadFits (t n : Nat) : Bool :=
  if multiPkt t then decide (n ≤ 4096)
  else if t = 0x05 ∨ t = 0x06 then n == 8 || n == 16
  else if t = 0x11 ∨ t = 0x12 then decide (1 ≤ n ∧ n ≤ 64)
  else if t = 0x14 then n == 0 || n == 64
  else n == 0
/-- Listed types. -/
def typeListed (t : Nat) : Bool :=
  [0x01, 0x02, 0x03, 0x04, 0x05, 0x06, 0x07, 0x08, 0x09, 0x0A, 0x0B, 0x10, 0x11, 0x12, 0x13, 0x14, 0x20, 0x21, 0x30,
   0x31, 0x32].contains t

/-- Windowed types (R193). -/
def windowed (p : Pkt) : Bool := !p.payload.isEmpty || [0x03, 0x10, 0x07].contains p.type

/-! ### Frames (R181–R183) -/

/-- The 48 header bytes (R182), with CRC as given. -/
def headerBytes (p : Pkt) (hop crc : Nat) : List Byte :=
  toLE 8 (1 + (p.type % 256) * 2 ^ 4 + (p.tc % 8) * 2 ^ 12 + (p.colour % 4) * 2 ^ 15 + (hop % 64) * 2 ^ 17 +
    b2n p.retx * 2 ^ 23 + (p.src % 2 ^ 20) * 2 ^ 24 + (p.dst % 2 ^ 20) * 2 ^ 44) ++
  toLE 8 (p.qp % 2 ^ 16 + (p.msn % 2 ^ 24) * 2 ^ 16 + (p.entropy % 2 ^ 16) * 2 ^ 40) ++
  toLE 8 (p.offset % 2 ^ 32 + (p.length % 2 ^ 32) * 2 ^ 32) ++
  toLE 8 (p.winIdx % 2 ^ 24 + (p.winGen % 256) * 2 ^ 24 + (p.sendTs % 2 ^ 32) * 2 ^ 32) ++
  toLE 8 p.opWord ++ toLE 8 (p.payload.length % 2 ^ 13 + crc * 2 ^ 32)

/-- CRC of a packet: header with HOP_TTL and CRC zero, then every byte after it (R183). -/
def pktCrc (p : Pkt) (after : List Byte) : Nat := crc32c (headerBytes p 0 0 ++ after)

/-- Header bytes as received, with HOP_TTL and CRC taken as zero (R183, R195). -/
def headZero (h : List Byte) : List Byte :=
  toLE 8 (setBits (w64At h 0) 22 17 0) ++ slice h 8 32 ++ toLE 8 (bits (w64At h 0x28) 31 0)

/-- FSW_CHECK: CRC-8, polynomial 0x07, over bytes 0 to 6 (R181). -/
def fswCheck (bs : List Byte) : Nat := (bs.take 7).foldl (crc8Byte 0x07) 0

/-- Frame bytes with start word and padding (R326). -/
def frameSize (payload : Nat) (enc : Bool) : Nat := 8 + 8 * cdiv (48 + payload + (if enc then 24 else 0)) 8

/-- A frame start word. -/
def fswBytes (len : Nat) (enc : Bool) (phase : Nat) : List Byte :=
  let w := toLE 7 (0xEB + len * 2 ^ 8 + b2n enc * 2 ^ 21 + phase * 2 ^ 22)
  w ++ [byte (fswCheck w)]

/-- The bytes of a plain frame. -/
def frameOf (p : Pkt) : List Byte :=
  let len := 48 + p.payload.length
  fswBytes len false 0 ++ headerBytes p p.hopTtl (pktCrc p p.payload) ++ p.payload ++
    List.replicate (8 * cdiv len 8 - len) 0

/-- Nonce of an encrypted frame (R195), most significant first: source, source port, counter, 12 zero bits. -/
def gcmNonce (src port counter : Nat) : Nat := src * 2 ^ 76 + port * 2 ^ 71 + counter * 2 ^ 12

/-- The bytes of an encrypted frame (R181, R183, R195): header, extension, ciphertext and tag under a phase's key. The CRC covers
everything after the header; the associated data is the header with HOP_TTL and CRC zero, as the CRC covers the ciphertext. -/
def sealedFrame (p : Pkt) (phase key port counter : Nat) : List Byte :=
  let len := 72 + p.payload.length
  let after := toLE 8 (port + counter * 2 ^ 5) ++
    slice (Config.gcmSeal key (gcmNonce p.src port counter) (headerBytes p 0 0) p.payload) 0 (p.payload.length + 16)
  fswBytes len true phase ++ headerBytes p p.hopTtl (pktCrc p after) ++ after ++ List.replicate (8 * cdiv len 8 - len) 0

/-- A frame relayed with its hop count lowered and no other byte changed (R183, R190). -/
def hopDown (fr : List Byte) : List Byte :=
  let w := w64At fr 8
  slice fr 0 8 ++ toLE 8 (setBits w 22 17 (bits w 22 17 - 1)) ++ slice fr 16 (8 * cdiv (bits (w64At fr 0) 20 8) 8 - 8)

/-- A packet's header and payload read from 48 bytes and a payload. -/
def pktOf (h payload : List Byte) : Pkt :=
  let a := w64At h 0
  let b := w64At h 8
  let c := w64At h 0x10
  let d := w64At h 0x18
  ⟨bits a 11 4, bits a 14 12, bits a 16 15, bits a 22 17, bit a 23, bits a 43 24, bits a 63 44, bits b 15 0,
   bits b 39 16, bits b 55 40, bits c 31 0, bits c 63 32, bits d 23 0, bits d 31 24, bits d 63 32, w64At h 0x20, payload⟩

/-! ### Ports, routes and paths (R190–R192) -/

def portUp (s : State) (n : Nat) : Bool := rbit s rEpCtrl n 0 && rf s rEpStatus n 1 0 == 2

/-- The first VALID route that matches an endpoint (R190). -/
def routeOf (s : State) (d : Nat) : Option Word :=
  ((List.range 64).map fun i => rdReg s rEpRoute i 0).find? fun w =>
    wbit w 63 && (fld w 19 0) >>> (20 - fld w 24 20) == d >>> (20 - fld w 24 20)

/-- Ports of a destination's port set that are up, rising (R191). -/
def portsUp (s : State) (d : Nat) : List Nat :=
  (List.range 24).filter fun n =>
    portUp s n && (match routeOf s d with | some w => wbit w (25 + n) | none => true)

/-- Egress port of path p of destination d (R191); 24 is internal delivery (R184). -/
def pathPort (s : State) (d p : Nat) : Option Nat :=
  if d = self s then some 24
  else
    let u := portsUp s d
    if u.isEmpty then none else some (u.getD ((d + p) % u.length) 0)

/-- Entropy of a path (R191). -/
def pathEntropy (s : State) (d p r : Nat) : Nat :=
  mix64 ((self s * 2 ^ 40 + d * 2 ^ 20 + p * 2 ^ 8 + r) % 2 ^ 64) % 2 ^ 16

/-- A new path: initial window, weight 16 (R192). -/
def newPath (s : State) : Path := ⟨rf s rEpCcWnd 0 23 0, 16, 0, 0, 0, 0, 0, 0⟩

def setDest (s : State) (d : Nat) (x : Dest) : State := modFab s fun f => { f with dests := tput f.dests d x }

/-- A destination's state, created at its first windowed packet; a full table gives the state of the destination idle
longest with nothing in flight (R192). -/
def ensureDest (s : State) (d : Nat) : Option Dest × State :=
  let mk (s : State) : Dest :=
    ⟨(List.range (rf s rEpCcPath 0 4 0)).map (fun p => (p, newPath s)), [], s.now⟩
  match tget s.fab.dests d with
  | some x => let x := { x with lastUsed := s.now }; (some x, setDest s d x)
  | none =>
    if s.fab.dests.length < 8192 then (some (mk s), setDest s d (mk s))
    else
      let idle := s.fab.dests.filter fun kv => kv.2.paths.all fun q => q.2.inflight == 0
      match sortBy (fun a b : Nat × Dest => decide (a.2.lastUsed ≤ b.2.lastUsed)) idle with
      | [] => (none, s)
      | v :: _ =>
        let s := modFab s fun f => { f with dests := tdel f.dests v.1 }
        (some (mk s), setDest s d (mk s))

/-- pick of R191; bytes gives the frame bytes on each path, whose ports need not all encrypt. -/
def pickPath (x : Dest) (bytes : Nat → Nat) : Option Nat :=
  x.paths.foldl (fun best kv =>
    let p := kv.2
    if p.inflight + bytes kv.1 > p.wnd then best
    else match best with
      | none => some kv.1
      | some b =>
        let q := tgetD x.paths b p
        if p.sent * q.weight < q.sent * p.weight then some kv.1 else best) none

/-- Count bytes on a path; when a path's count reaches 2^32 all of them are halved (R191). -/
def chargePath (x : Dest) (p bytes : Nat) : Dest :=
  let ps := tmod x.paths p fun q => { q with inflight := q.inflight + bytes, sent := q.sent + bytes }
  let ps := if ps.any (fun q => decide (q.2.sent ≥ 2 ^ 32)) then ps.map (fun q => (q.1, { q.2 with sent := q.2.sent / 2 }))
    else ps
  { x with paths := ps }

/-! ### Egress queues (R326) -/

def drr (s : State) (port : Nat) : DrrS := tgetD s.mt.drr port ⟨[], [], [], 1⟩

def setDrr (s : State) (port : Nat) (d : DrrS) : State := modMt s fun m => { m with drr := tput m.drr port d }

/-- Whether a port encrypts what it sends (R195); internal delivery does not. -/
def portEnc (s : State) (port : Nat) : Bool := port < 24 && rbit s rEpCrypt port 0

/-- Put a packet into a port's egress queue. -/
def toEgress (s : State) (port ctx : Nat) (p : Pkt) (tx : Option Nat) : State :=
  let d := drr s port
  setDrr s port { d with queue := d.queue ++ [⟨p.tc, ctx, frameSize p.payload.length (portEnc s port), p, tx, none⟩] }

def updTx (s : State) (id : Nat) (f : TxPkt → TxPkt) : State :=
  modFab s fun x => { x with txs := x.txs.map fun t => if t.id == id then f t else t }

/-- Try to give a built packet a path and put it into the egress queue of the path's port (R191, R193). -/
def tryTx (s : State) (id : Nat) : State :=
  match s.fab.txs.find? (·.id == id) with
  | none => s
  | some t =>
    if t.st ≠ 0 then s
    else if t.pkt.dst = self s then
      toEgress (updTx s id fun t => { t with st := 1, bytes := 0 }) 24 t.ctx t.pkt (some id)
    else
      match ensureDest s t.pkt.dst with
      | (none, s) => s
      | (some x, s) =>
        let bytes := fun p => frameSize t.pkt.payload.length (((pathPort s t.pkt.dst p).map (portEnc s)).getD false)
        match pickPath x bytes with
        | none => s
        | some p => match pathPort s t.pkt.dst p with
          | none => s
          | some port =>
            let q := tgetD x.paths p (newPath s)
            let pkt := { t.pkt with entropy := pathEntropy s t.pkt.dst p q.rerolls }
            let s := setDest s t.pkt.dst (chargePath x p (bytes p))
            let s := updTx s id fun t => { t with st := 1, path := p, bytes := bytes p, pkt := pkt }
            toEgress s port t.ctx pkt (some id)

/-- Try every waiting packet of a destination, in the order they were built. -/
def flushDest (s : State) (d : Nat) : State :=
  ((s.fab.txs.filter fun t => t.pkt.dst == d && t.st == 0).map (·.id)).foldl tryTx s

/-- Packets whose destination has no state try again: a destination with nothing in flight may be displaced now (R192). -/
def flushNew (s : State) : State :=
  (((s.fab.txs.filter fun t => t.st == 0 && !thas s.fab.dests t.pkt.dst).map (·.pkt.dst)).eraseDups).foldl flushDest s

/-- Fields every packet this controller builds shares (R182, R190). -/
def mkPkt (s : State) (type tc dst qp msn offset length winIdx winGen opWord : Nat) (payload : List Byte) : Pkt :=
  ⟨type, tc, 0, rf s rEpTxCtrl 0 5 0, false, self s, dst, qp, msn, 0, offset, length, winIdx, winGen, 0, opWord, payload⟩

/-- Send an unwindowed packet on some path of its destination (the choice is open: log entry 5). -/
def sendPlain (s : State) (ctx : Nat) (p : Pkt) : State :=
  let (w, s) := fresh s
  let n := Nat.max 1 (rf s rEpCcPath 0 4 0)
  match pathPort s p.dst (w.toNat % n) with
  | none => s
  | some port => toEgress s port ctx { p with entropy := pathEntropy s p.dst (w.toNat % n) 0 } none

/-- Send a packet: windowed types are recorded until acknowledged or answered. qp is the local queue pair. -/
def sendPkt (s : State) (qp : Option Nat) (ctx : Nat) (p : Pkt) : State :=
  if windowed p then
    let id := s.fab.txCtr
    let s := modFab s fun f => { f with txCtr := id + 1, txs := f.txs ++ [⟨id, p, qp, ctx, 0, 0, 0, 0, 0, false, 0⟩] }
    tryTx s id
  else sendPlain s ctx p

/-- MTU (R204). -/
def mtu (s : State) : Nat := 1024 * 2 ^ rf s rEpTxCtrl 0 7 6

/-- Drop a packet's record, freeing its bytes in flight on its path. -/
def dropTx (s : State) (id : Nat) : State :=
  match s.fab.txs.find? (·.id == id) with
  | none => s
  | some t =>
    let s := modFab s fun f => { f with
      txs := f.txs.filter (·.id != id),
      dests := if t.st = 0 then f.dests else tmod f.dests t.pkt.dst fun x =>
        { x with paths := tmod x.paths t.path fun q => { q with inflight := q.inflight - t.bytes } } }
    flushNew (flushDest s t.pkt.dst)

/-! ### Congestion control (R193, R194) -/

/-- on_ack of R193 on one path: rtt is the sample, base the lowest of the window, acked the frame bytes covered. -/
def ackPath (s : State) (rtt base acked : Nat) (p : Path) : Path × Bool :=
  let c := rdReg s rEpCcCtrl 0 0
  let w := rdReg s rEpCcWnd 0 0
  let target := base + fld c 15 0
  if rtt > target then
    if s.now - p.lastDec ≥ rtt then
      let dec := Nat.min (p.wnd * fld c 23 16 * (rtt - target) / (256 * rtt)) (p.wnd * fld c 31 24 / 256)
      let weight := if rtt > target + fld c 63 48 then Nat.max 1 (p.weight / 2) else p.weight
      ({ p with wnd := Nat.max (p.wnd - dec) (fld w 63 48), lastDec := s.now, weight := weight,
                oneSince := if weight = 1 ∧ p.weight ≠ 1 then s.now else p.oneSince }, true)
    else (p, false)
  else
    let p := { p with wnd := Nat.min (p.wnd + fld c 47 32 * acked / p.wnd) (fld w 47 24), oneSince := s.now }
    (if s.now - p.lastInc ≥ rtt then { p with weight := Nat.min 64 (p.weight + 1), lastInc := s.now } else p, false)

/-- An acknowledgement of bytes on path p of d whose newest packet carried the given timestamp (R193). -/
def onAck (s : State) (d p echo acked : Nat) : State :=
  match tget s.fab.dests d with
  | none => s
  | some x =>
    let rtt := ((s.now / 4 + 2 ^ 32 - echo) % 2 ^ 32) * 4
    let win := rf s rEpCcPath 0 15 8 * 1000000
    let samples := (s.now, rtt) :: x.samples.filter fun v => decide (s.now ≤ v.1 + win)
    let base := samples.foldl (fun m v => Nat.min m v.2) rtt
    match tget x.paths p with
    | none => s
    | some q =>
      let (q, dec) := ackPath s rtt base acked { q with inflight := q.inflight - acked }
      let s := setDest s d { x with samples := samples, paths := tput x.paths p q, lastUsed := s.now }
      if dec then bump s rEpCcCnt 0 31 0 1 else s

/-- A retransmission timeout charged to a path (R194). -/
def chargeTimeout (s : State) (d p : Nat) : State :=
  let s := modFab s fun f => { f with dests := tmod f.dests d fun x => { x with paths := tmod x.paths p fun q =>
    { q with wnd := rf s rEpCcWnd 0 63 48, weight := Nat.max 1 (q.weight / 4),
             oneSince := if q.weight / 4 ≤ 1 ∧ q.weight ≠ 1 then s.now else q.oneSince } } }
  bump s rEpCcCnt 0 47 32 1

/-- A port's paths move to another port with their reroll counts incremented when it goes down (R191): packets in its
queue are lost. -/
def portLost (s : State) (port : Nat) (before : Nat → Option Nat → Bool) : State :=
  let s := modFab s fun f => { f with dests := f.dests.map fun kv => (kv.1, { kv.2 with paths := kv.2.paths.map fun q =>
    (q.1, if before kv.1 (some q.1) then { q.2 with rerolls := q.2.rerolls + 1 } else q.2) }) }
  let lost := (drr s port).queue.filterMap (·.tx)
  let s := setDrr s port { drr s port with queue := [] }
  lost.foldl (fun s id => updTx s id fun t => { t with st := 2, sentAt := s.now }) s

/-! ### Token buckets (R326, R328) -/

/-- A bucket at time t: refilled at rate MB/s (1,000 units a byte) up to burst bytes; full when nothing is recorded. -/
def refill (b : Option Bucket) (rate burst t : Nat) : Nat :=
  match b with
  | none => burst * 1000
  | some b => Nat.min (burst * 1000) (b.level + rate * (t - b.at_))

def shapeKey (port k : Nat) : Nat := port * 8 + k

/-- Content of a class's shaper bucket, in 1/1,000 byte; a rate of 0 means always full (R326). -/
def shapeLevel (s : State) (port k : Nat) : Option Nat :=
  let w := rdReg s rTsShape port k
  if fld w 16 0 = 0 then none else some (refill (tget s.mt.shape (shapeKey port k)) (fld w 16 0) (fld w 40 17) s.now)

/-- Content of a context's bucket when its mode is on. -/
def ctxLevel (s : State) (c : Nat) : Option (Nat × Nat) :=
  let w := rdReg s rTsCtx c 0
  if c = 0 ∨ fld w 42 41 = 0 then none
  else some (fld w 42 41, if fld w 16 0 = 0 then fld w 40 17 * 1000
    else refill (tget s.mt.ctxBucket c) (fld w 16 0) (fld w 40 17) s.now)

/-- conforms of R326. -/
def conforms (s : State) (port k : Nat) (f : EgFrame) : Bool :=
  (match shapeLevel s port k with | none => true | some l => decide (f.bytes * 1000 ≤ l)) &&
  (match ctxLevel s f.ctx with | some (1, l) => decide (f.bytes * 1000 ≤ l) | _ => true)

def headOf (d : DrrS) (k : Nat) : Option EgFrame := d.queue.find? (·.cls == k)

/-- The deficit loop of next_frame (R326) over the non-strict classes in ring order. -/
def drrLoop (s : State) (port : Nat) (ok : EgFrame → Bool) : Nat → DrrS → Option Nat × DrrS
  | 0, d => (none, d)
  | fuel + 1, d =>
    let k := d.ring
    let q := rdReg s rTsQuantum port k
    let next (d : DrrS) : DrrS := { d with ring := (k + 1) % 8 }
    if (k = 0 ∨ k = 7) ∧ wbit q 18 then drrLoop s port ok fuel (next d)
    else match headOf d k with
      | none => drrLoop s port ok fuel (next { d with started := d.started.filter (· != k), deficit := tput d.deficit k 0 })
      | some f =>
        let d := if d.started.contains k then d
          else { d with started := addSorted k d.started,
                        deficit := tput d.deficit k (Nat.min (tgetD d.deficit k 0 + fld q 17 0) (fld q 17 0 + 4176)) }
        if f.bytes ≤ tgetD d.deficit k 0 && conforms s port k f && ok f then
          (some k, { d with deficit := tput d.deficit k (tgetD d.deficit k 0 - f.bytes) })
        else drrLoop s port ok fuel (next { d with started := d.started.filter (· != k) })

/-- Which frames may leave now (R189): none while EP_SELF.LOCK is 0; only TC7 until device time first locks. -/
def maySend (s : State) (f : EgFrame) : Bool :=
  rbit s rEpSelf 0 20 && (s.fab.time.locked || f.cls == 7 || timeType f.pkt.type)

/-- The class next_frame takes, with the deficits it leaves (R326). -/
def nextClass (s : State) (port : Nat) : Option Nat × DrrS :=
  let d := drr s port
  let strict (k : Nat) : Bool := wbit (rdReg s rTsQuantum port k) 18 &&
    (match headOf d k with | some f => conforms s port k f && maySend s f | none => false)
  if strict 0 then (some 0, d)
  else if strict 7 then (some 7, d)
  else drrLoop s port (maySend s) 512 d

/-- Take bytes from a bucket. -/
def drainBucket (s : State) (level bytes : Nat) : Bucket := ⟨level - bytes * 1000, s.now⟩

/-- What a packet's leaving starts: the life of its message with its first packet (R246), the age of its rack access (R221, R222),
and its queue pair's last use (R237). -/
def noteSent (s : State) (t : TxPkt) : State :=
  let resp (x : TxPkt) : Bool := x.pkt.type == ptReadResp
  let mine := s.fab.txs.filter fun x => x.qp == t.qp && x.pkt.msn == t.pkt.msn && resp x == resp t
  modFab s fun f => match t.qp with
    | some n => { f with
        qps := tmod f.qps n fun q => { q with lastPkt := some s.now }
        msgs := f.msgs.map fun m =>
          if m.qp == n && m.msn == t.pkt.msn && (m.kind == 4) == resp t &&
              (mine.all fun x => x.st != 2 && x.tries == 0 && x.sentAt == 0) &&
              (!multiPkt t.pkt.type || mine.length == Nat.max 1 m.left) then { m with firstAt := s.now } else m }
    | none => { f with accs := tmod f.accs t.pkt.dst fun a => { a with out := a.out.map fun x =>
        if x.msn == t.pkt.msn && x.pkt.type == t.pkt.type then
          { x with sentAt := s.now, firstAt := if x.sends = 0 then s.now else x.firstAt, sends := Nat.max 1 x.sends }
        else x } }

/-- Take a frame of class k from a port's queue: buckets, colour, timestamp, encryption counter, counters and meters
(R195, R326, R327, R330). A relayed frame leaves as it is (R190, R195). -/
def takeEgress (s : State) (port k : Nat) (d : DrrS) : State :=
  match headOf d k with
  | none => s
  | some f =>
    let s := setDrr s port { d with queue := delFirst (fun x => x.cls == k) d.queue }
    let s := match shapeLevel s port k with
      | none => s
      | some l => modMt s fun m => { m with shape := tput m.shape (shapeKey port k) (drainBucket s l f.bytes) }
    let lvl := ctxLevel s f.ctx
    let yellow := match lvl with | some (2, l) => decide (l < f.bytes * 1000) | _ => false
    let s := match lvl with
      | none => s
      | some (_, l) => modMt s fun m => { m with ctxBucket := tput m.ctxBucket f.ctx (drainBucket s l f.bytes) }
    let enc := portEnc s port && f.transit.isNone
    let phase := rf s rScKeyStatus 0 18 18
    let ps := tgetD s.fab.ports port ⟨0, [], 0, true, [0, 0], 0⟩
    let cnt := ps.counter.getD phase 0
    let stamped := f.pkt.type == ptTimeSync || f.pkt.type == ptTimeReq
    let pkt := if f.transit.isSome then f.pkt
      else { f.pkt with opWord := if stamped then s.now else f.pkt.opWord, colour := if yellow && !plainType f.pkt.type then 1 else 0, sendTs := (s.now / 4) % 2 ^ 32 }
    let frame := f.transit.getD
      (if enc then sealedFrame pkt phase (tgetD s.fab.keys.keys phase 0) port cnt else frameOf pkt)
    let s := modFab s fun x => { x with
      ports := if enc then tput x.ports port { ps with counter := ps.counter.set phase (cnt + 1) } else x.ports,
      time := if f.pkt.type = ptTimeReq then { x.time with t3 := s.now } else x.time,
      wire := ⟨frame, port, pkt, enc, phase, cnt⟩ :: x.wire }
    let s := match f.tx with
      | none => s
      | some id =>
        let s := (s.fab.txs.find? (·.id == id)).elim s (noteSent s)
        updTx s id fun t => { t with st := 2, sentAt := s.now, pkt := pkt }
    if port < 24 then
      let s := bumpWrap s rEpTxBytes port 63 0 f.bytes
      let s := bumpWrap s rEpTxPkts port 63 0 1
      let s := if pkt.retx then bump s rEpRetx port 31 0 1 else s
      meter s rMtFabTx f.ctx k f.bytes
    else meter s rMtFabTx f.ctx k f.bytes

/-- A port picks its next frame (R326), when it is up and may send; a port whose counter is used up sends nothing
encrypted (R195), and a port with TX_EN sends nothing of its own while no key is installed (R390). -/
def egressNext (s : State) (port : Nat) : State :=
  let phase := rf s rScKeyStatus 0 18 18
  let blocked := portEnc s port &&
    (!(thas s.fab.keys.keys phase) ||
      decide ((tgetD s.fab.ports port ⟨0, [], 0, true, [0, 0], 0⟩).counter.getD phase 0 ≥ 2 ^ 59))
  if port > 24 ∨ (port < 24 ∧ portUp s port = false) ∨ blocked then s
  else match nextClass s port with
    | (some k, d) => takeEgress s port k d
    | (none, d) => setDrr s port d

/-! ### Receiving (R187, R188, R328) -/

/-- The ingress marker (R328): 0 green, 1 yellow, 2 red, and the buckets' contents after. -/
def colourOf (aware : Bool) (colour tc tp b : Nat) : Nat × Nat × Nat :=
  if (aware && colour == 2) || tp < b then (2, tc, tp)
  else if (aware && colour == 1) || tc < b then (1, tc, tp - b)
  else (0, tc - b, tp - b)

/-- Police an accepted packet of class k at a port: whether it is admitted (R328). How full the ingress buffer is depends on the
port's timing: a free value in percent (log entry 3). -/
def police (s : State) (port : Nat) (p : Pkt) (bytes : Nat) : Bool × State :=
  let k := p.tc
  let c := rdReg s rTsPolC port k
  let q := rdReg s rTsPolP port k
  if plainType p.type then (true, s)
  else if !wbit c 43 then (true, bump2 s rTsGreen port k 63 0 1)
  else
    let tc := refill (tget s.mt.polC (shapeKey port k)) (fld c 16 0) (fld c 40 17) s.now
    let tp := refill (tget s.mt.polP (shapeKey port k)) (fld q 16 0) (fld q 40 17) s.now
    let (res, tc, tp) := colourOf (wbit c 42) p.colour tc tp (bytes * 1000)
    let s := modMt s fun m => { m with
      polC := tput m.polC (shapeKey port k) ⟨tc, s.now⟩, polP := tput m.polP (shapeKey port k) ⟨tp, s.now⟩ }
    if res = 0 then (true, bump2 s rTsGreen port k 63 0 1)
    else if res = 1 then (true, bump2 s rTsYellow port k 63 0 1)
    else
      let s := bump2 s rTsRed port k 63 0 1
      let (w, s) := fresh s
      if !wbit c 41 || decide (w.toNat % 101 > rf s rTsCtrl port 6 0) then (false, bump2 s rTsDrop port k 63 0 1) else (true, s)

/-- Check 4 of R187 on a header and payload. OFFSET + PAYLOAD_LEN ≤ LENGTH (R184) is asked of packets that carry a payload, atomics
apart: R215 gives a CAS64 16 bytes for a LENGTH of 8, and an ACK's OFFSET and LENGTH name what it covers (R247). -/
def headerOk (h : List Byte) (p : Pkt) : Bool :=
  let end_ := p.offset + p.payload.length
  bits (w64At h 0) 3 0 == 1 && typeListed p.type && p.colour != 3 && bits (w64At h 8) 63 56 == 0 &&
    bits (w64At h 0x28) 31 13 == 0 && payloadFits p.type p.payload.length &&
    (p.payload.isEmpty || p.type == ptAtomicReq || p.type == ptAtomicResp || decide (end_ ≤ p.length)) &&
    (!multiPkt p.type || (decide (end_ ≤ p.length) && p.offset % 256 == 0 &&
      (end_ == p.length || (p.payload.length % 256 == 0 && !p.payload.isEmpty)))) &&
    (p.type != ptAtomicReq || decide (bits p.opWord 46 44 < 4)) &&
    (!(p.type == ptLoadReq || p.type == ptStore) || bit p.opWord 47) &&
    (p.type != ptCoherence || decide (1 ≤ bits p.opWord 47 44 ∧ bits p.opWord 47 44 ≤ 9))

/-- Age of a packet in 4 ns units, signed (R188). -/
def ageOf (s : State) (ts : Nat) : Int := (BitVec.ofNat 32 (s.now / 4) - BitVec.ofNat 32 ts).toInt

/-- Check 6 of R187: aged or from the future. -/
def lifeCheck (s : State) (port : Nat) (p : Pkt) : Bool × State :=
  let a := ageOf s p.sendTs
  if a > (rf s rEpLife 0 19 0 : Int) then (false, if port < 24 then bump s rEpRxDrop0 port 47 32 1 else s)
  else if a < -(rf s rEpLife 0 35 20 : Int) then (false, if port < 24 then bump s rEpRxDrop0 port 63 48 1 else s)
  else (true, s)

/-- A count for a port, none for internal delivery. -/
def portBump (s : State) (d : RegDesc) (port hi lo : Nat) : State := if port < 24 then bump s d port hi lo 1 else s

/-- Relay a packet for another endpoint (R190): its frame, otherwise unchanged, waits in the queue of the port it leaves by, whose
classes and first lock it obeys (R189, R326). No context is named for it: context 0 is charged (log entry 102). -/
def relay (s : State) (port : Nat) (p : Pkt) (fr : List Byte) : State :=
  match routeOf s p.dst with
  | none => portBump s rEpRxDrop1 port 63 48
  | some w =>
    if p.hopTtl = 0 then portBump s rEpRxDrop1 port 47 32
    else
      let ups := (List.range 24).filter fun n => wbit w (25 + n) && portUp s n
      if ups.isEmpty then s
      else
        let out := ups.getD (p.entropy % ups.length) 0
        let d := drr s out
        setDrr s out { d with queue := d.queue ++ [⟨p.tc, 0, 8 + 8 * cdiv (bits (w64At fr 0) 20 8) 8,
          { p with hopTtl := p.hopTtl - 1 }, none, some (hopDown fr)⟩] }

/-- Parts of an arriving frame: packet, header bytes, whether it was encrypted. -/
structure Frame0 where
  pkt : Pkt
  head : List Byte
  enc : Bool
  phase : Nat
  bytes : Nat
deriving DecidableEq, Repr

/-- Checks 1 to 4 of R187 on a frame's bytes, start word first: the packet, or none with the drop counted. A relay
does not apply check 3. The first packet of the phase staged last starts the previous phase's 8 ms (R196). -/
def recvFrame (s : State) (port : Nat) (fr : List Byte) : Option Frame0 × State :=
  let w := w64At fr 0
  let len := bits w 20 8
  let enc := bit w 21
  let h := slice fr 8 48
  let plen := bits (w64At h 0x28) 12 0
  let after := slice fr 56 (len - 48)
  let cipher := pktOf h (slice fr 56 plen)
  if bits w 7 0 ≠ 0xEB ∨ bits w 55 23 ≠ 0 ∨ fswCheck fr ≠ bits w 63 56 then
    let ps := tgetD s.fab.ports port ⟨0, [], 0, true, [0, 0], 0⟩
    (none, modFab s fun f => { f with ports := tput f.ports port { ps with synced := false } })
  else
  let s := if port < 24 then modFab s fun f => { f with ports := tmod f.ports port fun p => { p with synced := true } } else s
  if len ≠ 48 + plen + (if enc then 24 else 0) ∨ fr.length < 8 + len ∨
      crc32c (headZero h ++ after) ≠ leAt h 0x2C 4 then
    (none, portBump s rEpRxDrop0 port 15 0)
  else
    let here := cipher.dst == self s
    let phase := bits w 22 22
    if !enc && port < 24 && rbit s rEpCrypt port 1 then (none, portBump s rEpRxDrop1 port 31 16)
    else
      let ext := w64At fr 56
      let nonce := gcmNonce cipher.src (bits ext 4 0) (bits ext 63 5)
      let opened : Option (List Byte) :=
        if !enc || !here then some (slice fr (if enc then 64 else 56) plen)
        else match tget s.fab.keys.keys phase with
          | none => none
          | some key => Config.gcmOpen key nonce (headZero h)
              (slice fr 64 (plen + 16))
      match opened with
      | none => (none, portBump s rEpRxDrop1 port 15 0)
      | some pay =>
        let p := pktOf h pay
        if !headerOk h p then (none, portBump s rEpRxDrop0 port 31 16)
        else
          let s := if enc && here && s.fab.keys.newest == some phase && s.fab.keys.seenPhase != some phase then
              modFab s fun f => { f with keys := { f.keys with seenPhase := some phase, newSeen := some s.now } }
            else s
          (some ⟨p, h, enc, phase, frameSize plen enc⟩, s)

/-- Check 7 of R187 on a frame for this endpoint, and what its receipt counts: the packet, unless the policer drops it. Any packet
ends the dead hold of its source (R223). Context charge is charged for the bytes received (R330). -/
def receiveHere (s : State) (port : Nat) (f : Frame0) (charge : Nat) : Option Pkt × State :=
  match (if port < 24 then police s port f.pkt f.bytes else (true, s)) with
  | (false, s) => (none, s)
  | (true, s) =>
    let s := if port < 24 then bumpWrap (bumpWrap s rEpRxBytes port 63 0 f.bytes) rEpRxPkts port 63 0 1 else s
    let s := meter s rMtFabRx charge f.pkt.tc f.bytes
    (some f.pkt, modFab s fun x => { x with accs := tmod x.accs f.pkt.src fun a => { a with deadTo := 0 } })

/-- What becomes of a frame that passed checks 1 to 4 of R187: dropped by its age (check 6), relayed if DST is another endpoint
(check 5), else taken here. -/
def receiveFrame (s : State) (port : Nat) (fr : List Byte) (charge : Pkt → Nat) (f : Frame0) : Option Pkt × State :=
  match lifeCheck s port f.pkt with
  | (false, s) => (none, s)
  | (true, s) => if f.pkt.dst ≠ self s then (none, relay s port f.pkt fr) else receiveHere s port f (charge f.pkt)

/-- Every check of R187: the packet for this endpoint's transport, or none. A packet for another endpoint is relayed
after check 6. The ports accept nothing while EP_SELF.LOCK is 0 or the port is not up (R189). -/
def receive (s : State) (port : Nat) (fr : List Byte) (charge : Pkt → Nat) : Option Pkt × State :=
  if rbit s rEpSelf 0 20 = false ∨ (port < 24 ∧ portUp s port = false) ∨ port > 24 then (none, s)
  else match recvFrame s port fr with
    | (none, s) => (none, s)
    | (some f, s) => receiveFrame s port fr charge f

end Sys2Proof.Machine
end

