-- ==== Sys2Proof/Machine/Pages.lean ====
section
/-! DEFINITION. Page geometry, handles, trailers, frame states, leases, reference counts and reclamation
(R33–R44, R56, R62). -/
namespace Sys2Proof.Machine

/-! ### Geometry (R33–R35) -/

/-- bytes_per_element in 1/32 of a byte, shared scales included (R33); 0 for an unlisted code. -/
def bpe32 : Nat → Nat
  | 0 => 128
  | 1 => 64
  | 2 => 64
  | 3 => 32
  | 4 => 32
  | 5 => 25
  | 6 => 17
  | 7 => 32
  | _ => 0

/-- Element bytes without scales, in 1/32 of a byte (R35). -/
def elem32 : Nat → Nat
  | 5 => 24
  | 6 => 16
  | f => bpe32 f

/-- Rows of a PAGE_TOKENS code (R39). -/
def ptRows (code : Nat) : Nat := if code = 0 then 16 else if code = 1 then 32 else 64

/-- Whether R33 holds of a page_tokens value. -/
def ptFits (hpp hd fmt pt : Nat) : Bool := decide (2 * hpp * hd * bpe32 fmt * pt ≤ 65536 * 32)

/-- PAGE_TOKENS code of R33: the largest of 16, 32, 64 that fits. -/
def ptChoose (hpp hd fmt : Nat) : Option Nat :=
  if ptFits hpp hd fmt 64 then some 2 else if ptFits hpp hd fmt 32 then some 1
  else if ptFits hpp hd fmt 16 then some 0 else none

/-- Head groups of a geometry. -/
def groups (g : Geometry) : Nat := g.kvHeads / g.hpp

/-- The checks of R34, format code first. -/
def geometryCheck (layers kvHeads hpp hd fmt : Nat) : Option (Nat × Nat) :=
  if fmt ≥ 8 then some (sInvalidFormat, 0)
  else if kvHeads = 0 ∨ ptFits hpp hd fmt 16 = false ∨ hpp < 1 ∨ hpp > 16 ∨ kvHeads % hpp ≠ 0 ∨
      kvHeads / hpp > 256 ∨ layers = 0 ∨ hd = 0 ∨ ((fmt = 5 ∨ fmt = 6) ∧ hd % 32 ≠ 0) then some (sInvalidParam, 0)
  else none

/-- Bytes of one row of one head, elements only (R35). -/
def rowBytes (g : Geometry) : Nat := g.headDim * elem32 g.format / 32

/-- Offset in the payload of the row of token t of head h, K (region 0) or V (region 1) (R35). -/
def rowOffset (g : Geometry) (region h t : Nat) : Nat :=
  (region * g.hpp * ptRows g.ptCode + (h * ptRows g.ptCode + t)) * rowBytes g

/-- SCALE_OFFSET: where scale bytes begin; 0 for formats without scales (R35, R39). -/
def scaleOffset (g : Geometry) : Nat :=
  if g.format = 5 ∨ g.format = 6 then 2 * g.hpp * ptRows g.ptCode * rowBytes g else 0

/-- Offset of the scale bytes of a row (R35). -/
def scaleRowOffset (g : Geometry) (region h t : Nat) : Nat :=
  scaleOffset g + (region * g.hpp * ptRows g.ptCode + (h * ptRows g.ptCode + t)) * (g.headDim / 32)

/-! ### Handles and locators (R36, R37, R49) -/

/-- A page handle (R36). -/
def handle (ep page gen : Nat) : Word := word (ep * 2 ^ 44 + page * 2 ^ 19 + (gen % 256) * 2 ^ 11)

/-- A spilled locator (R49). -/
def locator (ep slot : Nat) : Word := word (ep * 2 ^ 44 + slot * 2 ^ 18 + 1)

/-- What a block-table entry names (R49). -/
inductive Entry where
  | page (ep page gen rsvd : Nat)
  | slot (ep slot : Nat)
  | bad
deriving DecidableEq, Repr

/-- Read a block-table entry (R36, R49): type 0b10, 0b11, a nonzero reserved field of a locator or a SLOT beyond the
window is bad. -/
def entryOf (w : Word) : Entry :=
  if fld w 1 0 = 0 then .page (fld w 63 44) (fld w 43 19) (fld w 18 11) (fld w 10 0)
  else if fld w 1 0 = 1 ∧ fld w 17 2 = 0 ∧ fld w 43 18 < maxSlots then .slot (fld w 63 44) (fld w 43 18)
  else .bad

/-- Whether an entry is a handle whose page number names no frame (R23). -/
def pageTooHigh (w : Word) : Bool := match entryOf w with
  | .page _ f _ _ => decide (numFrames ≤ f)
  | _ => false

/-- Write a frame's record. -/
def setFrame (s : State) (f : Nat) (r : Frame) : State := modPg s fun p => { p with frames := tput p.frames f r }

/-- Check a handle a controller receives, in the order of R37: none, or the status and detail. -/
def handleCheck (s : State) (w : Word) : Option (Nat × Nat) :=
  if fld w 10 0 ≠ 0 then some (sInvalidParam, 0)
  else if fld w 43 19 ≥ numFrames then some (sInvalidParam, 0)
  else
    let f := frame s (fld w 43 19)
    if f.st = .free ∨ f.st = .reserved ∨ f.st = .system ∨ f.gen ≠ fld w 18 11 then some (sNoPage, 2) else none

/-- A handle that R37 refuses as stale also sets PG_ERR.STALE_HANDLE. -/
def noteStale (s : State) : Option (Nat × Nat) → State
  | some (st, d) => if st = sNoPage ∧ d = 2 then pgErr s 4 else s
  | none => s

/-! ### Trailers (R39, R40) -/

/-- STATE code of a frame's trailer. -/
def stateCode : FState → Nat
  | .free => 0
  | .reserved => 1
  | .opened => 2
  | .sealed => 3
  | .freePending => 5
  | .system => 6

/-- An all-zero trailer. -/
def noTrailer : Trailer := ⟨0, 0, 0, 0, 0, 0, 0, 0, 0, 0, 0, 0, 0, 0, 0, 0, 0, 0, 0⟩

/-- Bytes 0x00 to 0x1F of a trailer: what HEADER_CRC covers (R39). -/
def trailerHead (t : Trailer) : List Byte :=
  toLE 8 (t.seq % 2 ^ 32 + (t.layer % 2 ^ 16) * 2 ^ 32 + (t.hg % 256) * 2 ^ 48 + (t.format % 16) * 2 ^ 56 +
    (t.state % 16) * 2 ^ 60) ++
  toLE 8 (t.tokenBase % 2 ^ 24 + (t.fill % 128) * 2 ^ 32 + (t.committed % 128) * 2 ^ 40 + (t.gen % 256) * 2 ^ 48 +
    (t.ptCode % 4) * 2 ^ 56 + (t.headsM1 % 16) * 2 ^ 58) ++
  toLE 8 (t.headDim % 2 ^ 16 + (t.scaleOff % 2 ^ 32) * 2 ^ 16) ++
  toLE 8 t.statsRef

/-- HEADER_CRC of a trailer (R39). -/
def headerCrc (t : Trailer) : Nat := crc32c (trailerHead t)

/-- The 256 trailer bytes (R39). -/
def trailerBytes (t : Trailer) : List Byte :=
  trailerHead t ++ toLE 4 t.payloadCrc ++ toLE 4 t.headerCrc ++ toLE 8 t.sealTime ++
    toLE 8 (t.producer % 2 ^ 20 + (t.context % 256) * 2 ^ 20) ++ List.replicate 200 0

def trailer (s : State) (f : Nat) : Trailer := tgetD s.pg.trailers f noTrailer

/-- Write a trailer: HEADER_CRC is updated on every trailer write (R39). -/
def setTrailer (s : State) (f : Nat) (t : Trailer) : State :=
  modPg s fun p => { p with trailers := tput p.trailers f { t with headerCrc := headerCrc t } }

/-- The trailer of a frame that holds no page: its state, generation and context (R39, R42). -/
def bareTrailer (st gen c : Nat) : Trailer :=
  let t : Trailer := { noTrailer with state := st, gen := gen, context := c }
  { t with headerCrc := headerCrc t }

/-- The payload of a frame. -/
def payload (s : State) (f : Nat) : List Byte := rdMem s (frameAddr f) frameBytes

/-- Whether a frame lies over a 64 B piece marked poisoned (R151). -/
def framePoisoned (s : State) (f : Nat) : Bool :=
  s.pg.poison.any fun a => decide (frameAddr f ≤ a ∧ a < frameAddr f + frameBytes)

/-- The PG_ERR bits a read of a frame's page finds, lowest first (R40): 0 TRAILER_CRC, 1 PAYLOAD_CRC, 2 BAD_STATE. -/
def trailerFaults (s : State) (f : Nat) : List Nat :=
  let t := trailer s f
  (if t.headerCrc ≠ headerCrc t then [0] else []) ++
  (if (frame s f).st = .sealed ∧ t.payloadCrc ≠ crc32c (payload s f) then [1] else []) ++
  (if t.state ≥ 6 ∨ t.ptCode = 3 then [2] else [])

/-- Whether a read treats the page of a frame as poisoned (R40, R151). -/
def pagePoisoned (s : State) (f : Nat) : Bool := framePoisoned s f || (trailerFaults s f != [])

/-- Set the PG_ERR bits a read of a frame finds (R40). -/
def notePoison (s : State) (f : Nat) : State := (trailerFaults s f).foldl pgErr s

/-! ### Free frames -/

/-- Stacks that are OUT_OF_SERVICE: their frames are never allocated (R148). -/
def stackDead (s : State) (n : Nat) : Bool := rf s rMcStatus n 2 0 == 4

/-- Frames in FREE (PG_STATUS.FREE_FRAMES): none until bring-up has built the frame table. -/
def freeFrames (s : State) : Nat :=
  if s.pg.tableBuilt then
    let dead := (List.range 24).filter (stackDead s)
    let fw := (((List.range 24).filter fun k => !stackDead s k).map fun k => (s.pg.firmware.map fun r =>
      Nat.min (r.1 + r.2) ((k + 1) * 0x100000) - Nat.max r.1 (k * 0x100000)).foldl (· + ·) 0).foldl (· + ·) 0
    numFrames - dead.length * 0x100000 - fw -
      tcount (s.pg.frames.filter fun kv => !dead.contains (frameStack kv.1)) (fun r => r.st != .free)
  else 0

/-- Whether a frame is one of the system frames reserved for firmware (R42, R310). -/
def firmwareFrame (s : State) (f : Nat) : Bool := s.pg.firmware.any fun r => decide (r.1 ≤ f ∧ f < r.1 + r.2)

/-- Whether a frame may be taken: FREE, not reserved for firmware (R310), in a stack in service. -/
def isFree (s : State) (f : Nat) : Bool :=
  s.pg.tableBuilt && !firmwareFrame s f && (frame s f).st == .free && !stackDead s (frameStack f)

/-- The first number from a start, of n from lo in a circle, that passes a test. -/
def scan (p : Nat → Bool) (lo n at_ : Nat) : Nat → Option Nat
  | 0 => none
  | fuel + 1 => if p (lo + at_ % n) then some (lo + at_ % n) else scan p lo n (at_ + 1) fuel

/-- A number of n from lo that passes a test; which of them the manual leaves open is a free value (log entry 5). -/
def pick (s : State) (p : Nat → Bool) (lo n : Nat) : Option Nat × State :=
  let (w, s) := fresh s
  (scan p lo n (w.toNat % n) n, s)

/-- Frames charged to context c (MT[c]_USE.FRAMES). -/
def framesUsed (s : State) (c : Nat) : Nat := tcount s.pg.frames fun r => r.st != .free && r.ctx == c

/-- The frame reservation of context c (R309). -/
def framesAlloc (s : State) (c : Nat) : Nat := rf s rMtAlloc c 24 0

/-- Whether context c may take n more frames of its reservation (R310). Firmware's frames are its own. -/
def mayTake (s : State) (c n : Nat) : Bool := c == 0 || decide (framesUsed s c + n ≤ framesAlloc s c)

/-- Frame f, which is FREE, is taken: zero-filled before use (R151), state and charge as given; the generation is unchanged (R38).
The trailer of a frame for a page follows; a system frame has no page trailer (R42). -/
def takeAt (s : State) (f : Nat) (st : FState) (c : Nat) (use : SysUse) (owner : Nat) : State :=
  let s := zeroMem s (frameAddr f) frameBytes
  let s := modPg s fun p => { p with
    poison := p.poison.filter (fun a => a < frameAddr f || frameAddr f + frameBytes ≤ a)
    trailers := if st = .system then p.trailers else tput p.trailers f (bareTrailer (stateCode st) (frame s f).gen c) }
  setFrame s f ⟨st, (frame s f).gen, b2n (st == .opened || st == .sealed || st == .reserved), 0, 0, c, use, owner⟩

/-- Take one FREE frame. -/
def takeFrame (s : State) (st : FState) (c : Nat) (use : SysUse) (owner : Nat) : Option Nat × State :=
  match pick s (isFree s) 0 numFrames with
  | (none, s) => (none, s)
  | (some f, s) => (some f, takeAt s f st c use owner)

/-- Take n frames, all or none. -/
def takeFrames (s : State) (st : FState) (c : Nat) (use : SysUse) (owner : Nat) : Nat → Option (List Nat × State)
  | 0 => some ([], s)
  | n + 1 =>
    match takeFrame s st c use owner with
    | (none, _) => none
    | (some f, s) => match takeFrames s st c use owner n with
      | none => none
      | some (fs, s) => some (f :: fs, s)

/-! ### Leases, reference counts and reclamation (R42–R44) -/

/-- Whether a reader may take a lease now: OPEN, SEALED or FREE-PENDING, and fewer than 65,535 leases (R43). -/
def canLease (s : State) (f : Nat) : Bool :=
  let r := frame s f
  (r.st == .opened || r.st == .sealed || r.st == .freePending) && decide (r.leases < 65535)

/-- Take a read lease; on a FREE-PENDING frame the grace count returns to 0 (R43). -/
def lease (s : State) (f : Nat) : State :=
  let r := frame s f
  setFrame s f { r with leases := r.leases + 1, grace := if r.st = .freePending then 0 else r.grace }

/-- Drop a read lease. -/
def unlease (s : State) (f : Nat) : State :=
  let r := frame s f
  setFrame s f { r with leases := r.leases - 1 }

/-- The system frames that hold a table of the controller's own. -/
def tableFrames (s : State) (u : SysUse) : List Nat := tkeys s.pg.frames fun r => r.st == .system && r.use == u

/-- Release a system frame (R42). -/
def dropSystem (s : State) (f : Nat) : State :=
  if (frame s f).st = .system then
    modPg s fun p => { p with
      frames := tput p.frames f { frame s f with st := .freePending, grace := 0, use := .none }
      trailers := tput p.trailers f (bareTrailer 5 (frame s f).gen (frame s f).ctx) }
  else s

/-- Row-statistics records that pages here name (R39, R41): pages in frames and in tier-2 slots. -/
def statsRefs (s : State) : List Nat :=
  ((s.pg.trailers.filter fun kv => (frame s kv.1).st == .opened || (frame s kv.1).st == .sealed).map (·.2.statsRef)) ++
    ((s.pg.slots.filter fun kv => decide (kv.2.state ≤ 1)).map (·.2.trailer.statsRef))

/-- What marks the frames of a record that takes two of them, the first numbered n, as their owner. -/
def statsPair (n : Nat) : Nat := 2 ^ 32 + n

/-- A page that named a record of row statistics is gone: a statistics frame that no page names goes with it (R41). -/
def dropStats (s : State) (ref : Nat) : State :=
  let n := ref / frameBytes
  if ref = 0 ∨ (statsRefs s).any (fun a => a / frameBytes == n) then s
  else
    let s := if (frame s (n + 1)).use = .stats ∧ (frame s (n + 1)).owner = statsPair n then dropSystem s (n + 1) else s
    if (frame s n).use = .stats then dropSystem s n else s

/-- A frame goes to FREE-PENDING (R42). -/
def toPending (s : State) (f : Nat) : State :=
  let r := frame s f
  let t := trailer s f
  let s := setFrame s f { r with st := .freePending, refs := 0, grace := 0 }
  dropStats (setTrailer s f { t with state := 5 }) t.statsRef

/-- A frame of a sequence's own goes back to RESERVED, or comes to another reserve, with no row in it (R42, R54, R57). -/
def toReserved (s : State) (f : Nat) : State :=
  let t := trailer s f
  let s := modPg s fun p => { p with
    frames := tput p.frames f { frame s f with st := .reserved }
    trailers := tput p.trailers f (bareTrailer 1 (frame s f).gen (frame s f).ctx) }
  dropStats s t.statsRef

/-- Lower a frame's reference count by one; at 0 it goes to FREE-PENDING (R42). -/
def dropRef (s : State) (f : Nat) : State :=
  let r := frame s f
  if r.st = .reserved ∨ r.st = .opened ∨ r.st = .sealed then
    (if r.refs ≤ 1 then toPending s f else setFrame s f { r with refs := r.refs - 1 })
  else s

/-- One FREE-PENDING frame at a reclamation point (R44, R38): FREE with the next generation after two clear points. -/
def reclaimFrame (r : Frame) : Frame :=
  if r.st = .freePending then
    (if r.leases ≠ 0 then { r with grace := 0 }
     else if r.grace + 1 = 2 then ⟨.free, (r.gen + 1) % 256, 0, 0, 0, 0, .none, 0⟩
     else { r with grace := r.grace + 1 })
  else r

/-- One tier-2 slot being released: the same grace as a frame (R42, R159). -/
def reclaimSlot (t : Slot) : Slot := if t.state = 2 then { t with grace := t.grace + 1 } else t

/-- A reclamation point (R44): every FREE-PENDING frame and every slot being released. The trailer of a frame that becomes FREE says so
(R39). -/
def reclaim (s : State) : State :=
  modPg s fun p => { p with
    frames := p.frames.map (fun kv => (kv.1, reclaimFrame kv.2)),
    trailers := (p.frames.filter fun kv => kv.2.st == .freePending && (reclaimFrame kv.2).st == .free).foldl
      (fun t kv => tput t kv.1 (bareTrailer 0 (reclaimFrame kv.2).gen 0)) p.trailers,
    slots := (p.slots.map (fun kv => (kv.1, reclaimSlot kv.2))).filter (fun kv => !(kv.2.state == 2 && decide (kv.2.grace ≥ 2))) }

/-- A tier-2 slot's record. -/
def slot (s : State) (n : Nat) : Option Slot := tget s.pg.slots n

def setSlot (s : State) (n : Nat) (t : Slot) : State := modPg s fun p => { p with slots := tput p.slots n t }

/-- A slot goes through the grace of R44 (R42, R159). -/
def releaseSlot (s : State) (n : Nat) : State :=
  match slot s n with
  | some t => dropStats (setSlot s n { t with state := 2, refs := 0, grace := 0 }) t.trailer.statsRef
  | none => s

/-- Lower a slot's reference count by one; at 0 it is released (R42). -/
def dropSlotRef (s : State) (n : Nat) : State :=
  match slot s n with
  | some t => if t.refs ≤ 1 then releaseSlot s n else setSlot s n { t with refs := t.refs - 1 }
  | none => s

/-! ### Sealing (R56) -/

/-- Zero the rows at or beyond FILL and the bytes the layout does not cover (R35, R56). -/
def zeroBeyond (s : State) (f : Nat) (g : Geometry) (fill : Nat) : State :=
  let rows := ptRows g.ptCode
  let base := frameAddr f
  let s := (List.range (2 * g.hpp)).foldl (fun s h =>
    let s := zeroMem s (base + rowOffset g (h / g.hpp) (h % g.hpp) fill) ((rows - fill) * rowBytes g)
    if g.format = 5 ∨ g.format = 6 then
      zeroMem s (base + scaleRowOffset g (h / g.hpp) (h % g.hpp) fill) ((rows - fill) * (g.headDim / 32))
    else s) s
  let used := 2 * g.hpp * rows * g.headDim * bpe32 g.format / 32
  zeroMem s (base + used) (frameBytes - used)

/-- Geometry named by a trailer. -/
def trailerGeo (t : Trailer) : Geometry := ⟨0, 0, t.headsM1 + 1, t.headDim, t.format, t.ptCode⟩

/-- Payload bytes a page of a geometry uses (R33, R290). -/
def usedBytes (g : Geometry) : Nat := 2 * g.hpp * ptRows g.ptCode * g.headDim * bpe32 g.format / 32

/-- Storage-format bytes that the codec unit of the stack at an address processes (R145; DESIGN CHOICE, log entry 120). -/
def cuWork (s : State) (a n : Nat) : State :=
  match areaOf s a with
  | .stack k => meter s rCuBytes k 0 n
  | _ => s

/-- Seal the page of a frame, in the order of R56: zero, PAYLOAD_CRC, SEAL_TIME, STATE, HEADER_CRC. -/
def sealPage (s : State) (f : Nat) : State :=
  let t := trailer s f
  let s := cuWork (zeroBeyond s f (trailerGeo t) t.fill) (frameAddr f) (usedBytes (trailerGeo t))
  let t := { t with payloadCrc := crc32c (payload s f), sealTime := s.now, state := 3 }
  let s := setTrailer s f t
  setFrame s f { frame s f with st := .sealed }

/-- Write rows of a page: for each (region, head, row) its element bytes, and MX scale bytes (R35). -/
def writeRow (s : State) (f : Nat) (g : Geometry) (region h t : Nat) (elems scales : List Byte) : State :=
  let s := wrMem s (frameAddr f + rowOffset g region h t) elems
  if g.format = 5 ∨ g.format = 6 then wrMem s (frameAddr f + scaleRowOffset g region h t) scales else s

/-- A page's view for a sequence (R62): rows below the lower of FILL and KV_LENGTH − TOKEN_BASE; all rows of its own
OPEN page. -/
def viewRows (kv : Nat) (p : PageRef) : Nat := if p.opened then p.fill else Nat.min p.fill (kv - p.base)

/-- Local address of a tier-2 slot (R49). -/
def slotAddr (n : Nat) : Nat := tier2Base + n * slotBytes

/-! ### Page registers' views (R64) -/

/-- PG_STATUS. -/
def viewPgStatus (s : State) : Nat :=
  freeFrames s % 2 ^ 25 + (tcount s.pg.frames fun r => r.st == .freePending) * 2 ^ 25

/-- Descriptors in use (R46): those of the sequences here, and of admissions under way. -/
def descCount (s : State) : Nat := s.pg.seqs.length + s.ce.admits.length

/-- PG_SEQ_STATUS. -/
def viewPgSeqStatus (s : State) : Nat :=
  descCount s + (tcount s.pg.seqs fun q => q.st == .starved) * 2 ^ 19

/-- PG_FRAME_USE. Firmware's frames are system frames. -/
def viewPgFrameUse (s : State) : Nat :=
  (tcount s.pg.frames fun r => r.st == .reserved || r.st == .opened || r.st == .sealed) +
    ((tcount s.pg.frames fun r => r.st == .system) + (s.pg.firmware.map (·.2)).foldl (· + ·) 0) * 2 ^ 25

/-- PG_FRAME_INFO of the frame PG_FRAME_SEL names. -/
def viewPgFrameInfo (s : State) : Nat :=
  let r := frame s (rf s rPgFrameSel 0 24 0)
  if firmwareFrame s (rf s rPgFrameSel 0 24 0) then 6 else
  stateCode r.st + r.gen * 2 ^ 3 +
    (if r.st = .free ∨ r.st = .system then 0 else r.refs) * 2 ^ 11 + r.leases * 2 ^ 27 + r.grace * 2 ^ 43 +
    (if r.st = .free then 0 else r.ctx) * 2 ^ 45

/-- An access to a stack now: it ends self-refresh (R404). -/
def stackWake (s : State) (k : Nat) : State :=
  let s := modMt s fun m => { m with stackAt := tput m.stackAt k s.now }
  if rf s rMcStatus k 2 0 = 3 then wf s rMcStatus k 2 0 2 else s

/-- An access of n bytes at a local address for a context: the stack's and the context's meters, and the end of
self-refresh (R330, R404). -/
def stackAccess (s : State) (c a n : Nat) : State :=
  match areaOf s a with
  | .stack k =>
    let s := wrReg s rMcBytes k 0 (word ((rdReg s rMcBytes k 0).toNat + n))
    stackWake (meter s rMtStackBytes c 0 n) k
  | _ => s

/-- An access to an SRAM bank now: one in retention starts its wake, 12 µs (R382). -/
def bankWake (s : State) (b : Nat) : State :=
  let s := modMt s fun m => { m with bankAt := tput m.bankAt b s.now }
  if rbit s rSpBankState (b / 64) (b % 64) && !thas s.gl.sleep.bankWake b then
    modSleep s fun x => { x with bankWake := tput x.bankWake b (s.now + 12000) }
  else s

/-- An access to staging SRAM: every bank its 64 B words lie in (R378). -/
def sramAccess (s : State) (a n : Nat) : State :=
  match areaOf s a with
  | .sram die =>
    let off := a - sramBase die
    let banks := (List.range (Nat.min 256 (cdiv (off % 64 + Nat.max n 1) 64))).map fun i => (off / 64 + i) % 256 + die * 256
    banks.foldl bankWake s
  | _ => s

/-- Bytes of local memory that are read or written for a context, as (address, count): the meters of the stack they lie in, or
the SRAM banks they wake. -/
def touchSpan (s : State) (c : Nat) (x : Nat × Nat) : State :=
  if x.2 = 0 then s
  else match areaOf s x.1 with
  | .stack _ => stackAccess s c x.1 x.2
  | .sram _ => sramAccess s x.1 x.2
  | _ => s

/-- Copy rows below v of every head from the payload at one address to another frame (R61, R63). -/
def copyRows (s : State) (srcAddr dst : Nat) (g : Geometry) (v : Nat) : State :=
  (List.range (2 * g.hpp)).foldl (fun s h =>
    let o := rowOffset g (h / g.hpp) (h % g.hpp) 0
    let n := v * rowBytes g
    let s := cuWork (copyMem s (srcAddr + o) (frameAddr dst + o) n) (frameAddr dst) n
    let s := touchSpan (touchSpan s (frame s dst).ctx (srcAddr + o, n)) (frame s dst).ctx (frameAddr dst + o, n)
    if g.format = 5 ∨ g.format = 6 then
      let o := scaleRowOffset g (h / g.hpp) (h % g.hpp) 0
      copyMem s (srcAddr + o) (frameAddr dst + o) (v * (g.headDim / 32))
    else s) s

/-- Write bytes into frames in order. -/
def fillFrames (s : State) (fs : List Nat) (b : List Byte) : State :=
  (List.zip fs (List.range fs.length)).foldl (fun s x =>
    let p := (b.drop (x.2 * frameBytes)).take frameBytes
    stackAccess (wrMem s (frameAddr x.1) p) (frame s x.1).ctx (frameAddr x.1) p.length) s

end Sys2Proof.Machine
end

