-- ==== Sys2Proof/Machine/Queues.lean ====
section
/-! DEFINITION. Queue pairs as sender: rings, work requests, messages, completion, loss and errors (R235–R248,
R261–R263). -/
namespace Sys2Proof.Machine

def qpOf (s : State) (n : Nat) : Option Qp := tget s.fab.qps n

def setQp (s : State) (n : Nat) (q : Qp) : State := modFab s fun f => { f with qps := tput f.qps n q }

def updQp (s : State) (n : Nat) (g : Qp → Qp) : State := modFab s fun f => { f with qps := tmod f.qps n g }

/-- A QP in RESET of a context bound to an XE, with no rings. -/
def blankQp (c xe : Nat) : Qp :=
  ⟨c, xe, 0, (0, 0), (0, 0), (0, 0), 4, 4, 0, 8, none, 0, 0, 0, 100, 7, 64, none, 0, 0, 0, [], 0, 1, 0, 0, [], 0, 0, 1, [], [],
   [], [], false, [], [], none, (0, 0, 0), (0, 0, 0)⟩

/-- Write into a ring of a QP: host memory over HP, or local memory (R239). -/
def ringWrite (s : State) (a : Nat × Nat) (off : Nat) (bs : List Byte) : State :=
  if a.1 = 1 then wrMem s (a.2 + off) bs else toHost s (.data (a.2 + off) bs)

/-- Bytes of a completion entry (R242). -/
def cqeBytes (n : Nat) (phase : Bool) (c : QCqe) : List Byte :=
  toLE 8 c.wrId ++
  toLE 8 (c.status + (c.detail % 2 ^ 16) * 2 ^ 16 + n * 2 ^ 32 + c.opcode * 2 ^ 48 + b2n c.recv * 2 ^ 56 +
    b2n c.immValid * 2 ^ 57 + b2n phase * 2 ^ 63) ++
  (if c.opcode = 5 ∧ !c.recv then toLE 8 c.imm else toLE 4 c.bytes ++ toLE 4 c.imm) ++ toLE 8 c.time

/-- Whether a QP's completion ring has space. -/
def cqRoom (q : Qp) : Bool := decide (sub32 q.cqTail q.cqCi < 2 ^ q.cqLog)

/-- Write a completion entry of QP n, or keep it until the ring has space. -/
def cqPut (s : State) (n : Nat) (c : QCqe) : State :=
  match qpOf s n with
  | none => s
  | some q =>
    if q.ctx = 0 then s
    else if cqRoom q && q.cqWait.isEmpty then
      let s := ringWrite s q.cq ((q.cqTail % 2 ^ q.cqLog) * 32) (cqeBytes n (phaseOf q.cqTail q.cqLog) c)
      updQp s n fun q => { q with cqTail := (q.cqTail + 1) % 2 ^ 32 }
    else updQp s n fun q => { q with cqWait := q.cqWait ++ [c] }

/-- Write kept entries while there is space (CQ_CI). -/
def cqDrain (s : State) (n : Nat) : List QCqe → State
  | [] => s
  | c :: cs =>
    match qpOf s n with
    | none => s
    | some q =>
      if cqRoom q then
        let s := updQp s n fun q => { q with cqWait := [] }
        let s := cqPut s n c
        cqDrain (updQp s n fun q => { q with cqWait := cs }) n cs
      else s

/-- Add 1 to counter j of context c (R261). -/
def addCtr (s : State) (c j : Nat) : State :=
  let i := c * 16 + j
  wf s rXeArmCtr i 31 0 (rf s rXeArmCtr i 31 0 + 1)

/-! ### Work requests (R240, R241) -/

/-- Read a work request's 64 bytes. -/
def workReqOf (b : List Byte) : WorkReq :=
  let a := w64At b 0
  let d := w64At b 0x18
  let k := w64At b 0x20
  ⟨bits a 7 0, bit a 8, bit a 9, bit a 10, bit a 11, bit a 12, bits a 19 16, bits a 23 20, bits a 25 24,
   bits a 15 13 + bits a 31 26, bits a 63 32, w64At b 8, bits (w64At b 0x10) 43 0, bits (w64At b 0x10) 63 44,
   bits d 31 0, bits d 63 32, bits k 31 0, bits k 63 32, w64At b 0x28, w64At b 0x30, w64At b 0x38⟩

/-- Whether n bytes at a local address lie in memory allocated to context c and outside every region (R213, R241). A
context-0 request is firmware's and may name any memory. -/
def localOk (s : State) (c a n : Nat) : Bool :=
  c == 0 || (inAlloc s c a n &&
    (match areaOf s a with
     | .stack _ => (List.range (cdiv (a % frameBytes + Nat.max n 1) frameBytes)).all fun j =>
         (frame s (a / frameBytes + j)).use != .region
     | _ => true))

/-- Whether the OPCODE is listed and every reserved field zero (R10, R240). -/
def workReqForm (w : WorkReq) : Bool := [1, 2, 3, 5, 7, 9].contains w.opcode && w.rsvd == 0 && w.localHi == 0

/-- The checks of R241. -/
def workReqOk (s : State) (c : Nat) (w : WorkReq) : Bool :=
  workReqForm w &&
  (if w.opcode = 1 ∨ w.opcode = 3 then decide (1 ≤ w.length)
   else if w.opcode = 2 then true
   else if w.opcode = 9 then decide (w.length ≤ 1048576)
   else if w.opcode = 7 then w.length == 0
   else w.length == (if w.aop = 3 then 16 else 8)) &&
  (w.opcode == 7 || w.length == 0 || localOk s c w.localAddr w.length) &&
  (w.opcode != 5 || (w.offset % w.length == 0 && w.localAddr % w.length == 0 && !w.hasDeadline))

/-- Messages a work request is cut into (R244). -/
def msgCount (w : WorkReq) : Nat := if w.opcode ≤ 3 then Nat.max 1 (cdiv w.length 1048576) else 1

/-- Condition of R262. -/
def armedReady (s : State) (c : Nat) (w : WorkReq) : Bool :=
  !w.armed || decide (0 ≤ signed 32 (rf s rXeArmCtr (c * 16 + w.armCtr) 31 0 + 2 ^ 32 - w.threshold))

/-! ### Completing work requests (R242, R243) -/

/-- Write the entries of finished work requests at the front of a QP's list, in posting order. -/
def popDone (s : State) (n : Nat) : List (Nat × WrRun) → State
  | [] => updQp s n fun q => { q with wrs := [] }
  | (k, r) :: rest =>
    if r.st = 2 then
      match qpOf s n with
      | none => s
      | some q =>
        let ok := r.status == sOk
        let s := if r.status = sAtomicUnknown then bump s rFlAtomicCnt 0 47 32 1 else s
        let s := if r.wr.ctrOnDone && ok then addCtr s q.ctx r.wr.doneCtr else s
        let s := if r.wr.signaled || !ok then
            cqPut s n ⟨r.wr.wrId, r.status, r.detail, r.wr.opcode, false, false,
              if ok then r.wr.length else r.bytes, if r.wr.opcode = 5 then r.old else 0, s.now⟩
          else s
        popDone (updQp s n fun q => { q with ci := (q.ci + 1) % 2 ^ 32 }) n rest
    else updQp s n fun q => { q with wrs := (k, r) :: rest }

def updWr (s : State) (n k : Nat) (g : WrRun → WrRun) : State :=
  updQp s n fun q => { q with wrs := tmod q.wrs k g }

/-- Outstanding messages of a QP as sender (R245), and of an XE. -/
def outstanding (s : State) (n : Nat) : Nat := (s.fab.msgs.filter fun m => m.qp == n && m.kind != 4).length
def xeOutstanding (s : State) (x : Nat) : Nat :=
  (s.fab.msgs.filter fun m => m.kind != 4 && (match qpOf s m.qp with | some q => q.xe == x | none => false)).length

/-- Remove every packet record of a message. -/
def dropMsgTx (s : State) (n msn : Nat) (resp : Bool) : State :=
  ((s.fab.txs.filter fun t => t.qp == some n && t.pkt.msn == msn && ((t.pkt.type == ptReadResp) == resp)).map (·.id)).foldl
    dropTx s

/-- Enter RESET: nothing outstanding, connection forgotten, the receive window restarts at the next CONNECT. -/
def qpReset (s : State) (n : Nat) : State :=
  let s := ((s.fab.txs.filter fun t => t.qp == some n).map (·.id)).foldl dropTx s
  let s := modFab s fun f => { f with msgs := f.msgs.filter (·.qp != n), tracks := f.tracks.filter (·.qp != n) }
  updQp s n fun q => { q with
    st := 0, wrs := [], txMsn := 1, rxBase := 1, done := [], gone := [], seen := [], held := [], flushBad := false, badFlushes := [],
    reads := [], connect := none, ci := q.pi }

/-- A DRAINING QP whose last work request posted before the drain has completed returns to RESET (R236). -/
def drainCheck (s : State) (n : Nat) : State :=
  match qpOf s n with
  | some q =>
    if q.st = 2 ∧ (q.wrs.filter fun kv => decide (kv.1 < q.drainTo)).isEmpty then
      raiseCtx (qpReset s n) q.ctx evQpDrained 0 n 0
    else s
  | none => s

/-- Finish a work request with a status and write the entries that may now be written. -/
def wrDone (s : State) (n k status detail : Nat) : State :=
  let s := updWr s n k fun r => { r with st := 2, status := status, detail := detail }
  match qpOf s n with
  | some q => drainCheck (popDone s n q.wrs) n
  | none => s

/-- A QP enters ERROR (R236, R238): every work request not complete is completed in posting order, an ATOMIC sent at
least once with ATOMIC_OUTCOME_UNKNOWN, others FLUSHED; firmware messages are undelivered. -/
def qpError (s : State) (n cause : Nat) : State :=
  match qpOf s n with
  | none => s
  | some q =>
    if q.st = 3 then s
    else
      let unknown (r : WrRun) : Bool := r.wr.opcode == 5 && r.msgs.any fun m =>
        s.fab.txs.any fun t => t.qp == some n && t.pkt.msn == m && decide (t.sentAt ≠ 0 ∨ t.st = 2)
      let wrs := q.wrs.map fun kv => (kv.1, if kv.2.st = 2 then kv.2
        else { kv.2 with st := 2, status := if unknown kv.2 then sAtomicUnknown else sFlushed, detail := 0 })
      let s := ((s.fab.txs.filter fun t => t.qp == some n).map (·.id)).foldl dropTx s
      let s := modFab s fun f => { f with
        msgs := f.msgs.filter (·.qp != n), tracks := f.tracks.filter fun t => t.qp != n || t.type != ptReadResp,
        fwFail := f.fwFail ++ ((f.fw.filter (·.qp == some n)).map fun m => (m, cause)), fw := f.fw.filter (·.qp != some n) }
      let s := updQp s n fun q => { q with st := 3, held := [], reads := [] }
      let s := bump s rXeQpCnt 0 15 0 1
      let s := popDone s n wrs
      if q.ctx = 0 then s else raiseCtx s q.ctx evQpError cause n 0

/-- A work request fails with its own status and puts the QP in ERROR (R236). -/
def wrFail (s : State) (n k status detail : Nat) : State :=
  let s := updWr s n k fun r => { r with st := 2, status := status, detail := detail }
  qpError s n status

/-! ### Messages (R244, R245) -/

/-- Build the packets of a multi-packet message from its bytes (R184), in order. -/
def cutPackets (s : State) (q : Nat) (ctx : Nat) (mk : Nat → List Byte → Pkt) (bs : List Byte) : Nat → Nat → State
  | 0, _ => s
  | fuel + 1, off =>
    let piece := (bs.drop off).take (mtu s)
    let s := sendPkt s (some q) ctx (mk off piece)
    if off + piece.length < bs.length then cutPackets s q ctx mk bs fuel (off + piece.length) else s

/-- Start the next message of a running work request: it takes the QP's next MSN. -/
def cutMsg (s : State) (n k : Nat) (q : Qp) (r : WrRun) : State :=
  let w := r.wr
  let m := r.nextMsg
  let off := m * 1048576
  let len := if w.opcode ≤ 3 then Nat.min 1048576 (w.length - off) else w.length
  let msn := q.txMsn
  let last := m + 1 == msgCount w
  let type := if w.opcode = 2 ∧ last = false then ptWrite else w.opcode
  let kind := if w.opcode = 3 then 1 else if w.opcode = 5 then 2 else if w.opcode = 7 then 3 else 0
  let key (opw : Nat) (off len : Nat) (pay : List Byte) : Pkt :=
    mkPkt s type q.tc q.remoteEp q.remoteQp msn off len (w.key % 2 ^ 24) (w.key / 2 ^ 24) opw pay
  let s := updQp s n fun q => { q with txMsn := (q.txMsn + 1) % 2 ^ 24, lastPkt := some s.now }
  let s := updWr s n k fun r => { r with nextMsg := m + 1, msgs := r.msgs ++ [msn] }
  let s := modFab s fun f => { f with
    msgs := f.msgs ++ [⟨n, msn, k, kind, type, w.localAddr + off, len, s.now, cdiv len (mtu s), false⟩] }
  if kind = 0 then
    let bs := rdMem s (w.localAddr + off) len
    let opw := (if w.opcode = 9 then 0 else (w.offset + off) % 2 ^ 32) +
      (if w.opcode = 9 ∨ (w.opcode = 2 ∧ last = true) then w.imm * 2 ^ 32 else 0)
    let mk (o : Nat) (p : List Byte) : Pkt :=
      if w.opcode = 9 then mkPkt s type q.tc q.remoteEp q.remoteQp msn o len 0 0 opw p else key opw o len p
    cutPackets (touchSpan s q.ctx (w.localAddr + off, len)) n q.ctx mk bs (cdiv len 1024 + 1) 0
  else if kind = 1 then
    let s := modFab s fun f => { f with
      tracks := f.tracks ++ [⟨q.remoteEp, n, msn, ptReadResp, len, 0, [], none, s.now, w.localAddr + off, 0, 0, []⟩] }
    sendPkt s (some n) q.ctx (key ((w.offset + off) % 2 ^ 32) 0 len [])
  else if kind = 2 then
    let pay := toLE 8 w.operand ++ (if w.aop ≥ 2 then toLE 8 w.swap else [])
    sendPkt s (some n) q.ctx (key (w.offset + w.aop * 2 ^ 44) 0 w.length pay)
  else sendPkt s (some n) q.ctx (mkPkt s type q.tc q.remoteEp q.remoteQp msn 0 0 0 0 0 [])

/-- Tracking entries in use, READs issued included (R253, R259). -/
def trackRoom (s : State) : Bool := decide (s.fab.tracks.length < 16384)

/-- Whether a QP may start another message now (R245). -/
def mayStart (s : State) (n : Nat) (q : Qp) : Bool :=
  (q.st == 1 || q.st == 2) && decide (outstanding s n < q.maxOut) && decide (xeOutstanding s q.xe < 256)

/-- Cut messages of running work requests of a QP, oldest first, while the limits allow. -/
def pump (s : State) (n : Nat) : Nat → State
  | 0 => s
  | fuel + 1 =>
    match qpOf s n with
    | none => s
    | some q =>
      if !mayStart s n q then s
      else match q.wrs.find? fun kv => kv.2.st == 1 && decide (kv.2.nextMsg < msgCount kv.2.wr) with
        | some (k, r) => if r.wr.opcode = 3 ∧ trackRoom s = false then s else pump (cutMsg s n k q r) n fuel
        | none => s

/-- Key of a context's virtual time in a class on a die (R317). -/
def vtKey (cls die c : Nat) : Nat := cls * 4096 + die * 256 + c

/-- Whether a queue pair has started work whose messages are not all cut. -/
def pumpDue (q : Qp) : Bool := q.wrs.any fun kv => kv.2.st == 1 && decide (kv.2.nextMsg < msgCount kv.2.wr)

/-- A message of queue pair n is no longer outstanding: its own waiting messages start, then those of the other queue pairs of its
transfer engine, of the context with the least virtual time first (R245, R317). -/
def pumpXe (s : State) (n : Nat) : State :=
  let s := pump s n 4096
  match qpOf s n with
  | none => s
  | some q =>
    let vt (c : Nat) : Nat := tgetD s.mt.vt (vtKey 1 (q.xe / 32) c) 0
    let due := s.fab.qps.filter fun kv => kv.1 != n && kv.2.xe == q.xe && pumpDue kv.2
    (sortBy (fun a b : Nat × Qp => decide (vt a.2.ctx < vt b.2.ctx) || (vt a.2.ctx == vt b.2.ctx && decide (a.1 ≤ b.1))) due).foldl
      (fun s kv => pump s kv.1 4096) s

/-- Whether a work request may start: every earlier one has started, and under FENCE every earlier READ and ATOMIC is
complete (R240). -/
def wrTurn (q : Qp) (k : Nat) (r : WrRun) : Bool :=
  (q.wrs.filter fun kv => decide (kv.1 < k)).all fun kv =>
    kv.2.st != 0 && decide (kv.2.nextMsg = msgCount kv.2.wr ∨ kv.2.st = 2) &&
      (!r.wr.fence || kv.2.st == 2 || !(kv.2.wr.opcode == 3 || kv.2.wr.opcode == 5))

/-- The work request at the head of a QP's send queue: the first not started. -/
def sqHeadWr (q : Qp) : Option (Nat × WrRun) := q.wrs.find? fun kv => kv.2.st == 0

/-- Start the head work request (R241, R247, R262): its checks, then its messages. An ARMED request whose counter has
not reached the threshold is held. -/
def startWr (s : State) (n : Nat) : State :=
  match qpOf s n with
  | none => s
  | some q => match sqHeadWr q with
    | none => s
    | some (k, r) =>
      if (q.st ≠ 1 ∧ ¬(q.st = 2 ∧ k < q.drainTo)) ∨ wrTurn q k r = false then s
      else if !armedReady s q.ctx r.wr then updWr s n k fun r => { r with held := true }
      else if r.wr.hasDeadline ∧ r.wr.deadline ≤ s.now then
        wrDone (bump s rXeQpCnt 0 47 32 1) n k sDeadlinePassed 0
      else if !workReqOk s q.ctx r.wr then wrFail s n k sInvalidParam 0
      else
        let s := updWr s n k fun r => { r with st := 1, held := false }
        pump s n (msgCount r.wr)

/-- A message of QP n completed OK: its work request completes with its last message; a firmware message is done. -/
def finishMsg (s : State) (n msn : Nat) : State :=
  match s.fab.msgs.find? fun m => m.qp == n && m.msn == msn && m.kind != 4 with
  | none => s
  | some m =>
    let s := dropMsgTx s n msn false
    let s := modFab s fun f => { f with
      msgs := f.msgs.filter fun x => !(x.qp == n && x.msn == msn && x.kind != 4),
      fw := f.fw.filter fun w => !(w.qp == some n && w.msn == msn) }
    match qpOf s n with
    | none => s
    | some q =>
      let s := bumpWrap s rXeMsgCnt q.xe 63 0 1
      match tget q.wrs m.wrNo with
      | none => s
      | some r =>
        let msgs := r.msgs.filter (· != msn)
        let s := updWr s n m.wrNo fun r => { r with msgs := msgs, bytes := r.bytes + m.length }
        let s := if r.st = 1 ∧ msgs.isEmpty ∧ r.nextMsg = msgCount r.wr then wrDone s n m.wrNo sOk 0 else s
        pumpXe s n

/-- A message of QP n failed (R246, R248): its work request completes with the status, and the QP enters ERROR. -/
def failMsg (s : State) (n msn status detail : Nat) : State :=
  match s.fab.msgs.find? fun m => m.qp == n && m.msn == msn && m.kind != 4 with
  | none => s
  | some m =>
    let s := if status = sRetryExceeded then bump s rXeQpCnt 0 31 16 1 else s
    match qpOf s n with
    | none => s
    | some q =>
      let s := bumpWrap s rXeMsgCnt q.xe 63 0 1
      if q.ctx = 0 then qpError s n status else wrFail s n m.wrNo status detail

/-- DETAIL of RETRY_EXCEEDED (R246). -/
def retryDetail (m : TxMsg) : Nat := if m.lastBusy then 2 else 1

/-! ### Acknowledgement, refusal, timers -/

/-- The packet records an ACK names: a QP's by local QP, rack traffic by none. resp is INDEX 1: packets of a READ_RESP.
A covered packet's OFFSET lies in the acknowledged run; an empty message is acknowledged by its OFFSET 0. -/
def matchTx (s : State) (src : Nat) (qp : Option Nat) (resp : Bool) (msn off len : Nat) : List TxPkt :=
  s.fab.txs.filter fun t =>
    t.pkt.dst == src && t.qp == qp && t.pkt.msn == msn && (t.pkt.type == ptReadResp) == resp && t.st == 2 &&
      (decide (off ≤ t.pkt.offset ∧ t.pkt.offset + t.pkt.payload.length ≤ off + len)) &&
      (multiPkt t.pkt.type || !t.pkt.payload.isEmpty)

/-- Whether a packet's message is kept until its response, so that an ACK only frees its window. -/
def keptForResponse (t : TxPkt) : Bool := [0x05, 0x12, 0x14].contains t.pkt.type

/-- An ACK arrives (R185, R193, R243). -/
def ackIn (s : State) (p : Pkt) : State :=
  let resp := p.winIdx == 1
  let ms := matchTx s p.src (some p.qp) resp p.msn p.offset p.length
  let ms := if ms.isEmpty ∧ p.qp = 0 then matchTx s p.src none resp p.msn p.offset p.length else ms
  match ms with
  | [] => bump s rXeRxCnt 0 15 0 1
  | t0 :: _ =>
    let s := onAck s p.src t0.path (bits p.opWord 31 0) ((ms.map (·.bytes)).foldl (· + ·) 0)
    let s := ms.foldl (fun s t =>
      if keptForResponse t then updTx s t.id fun t => { t with bytes := 0, busy := false }
      else modFab s fun f => { f with txs := f.txs.filter (·.id != t.id) }) s
    let s := flushNew (flushDest s p.src)
    match t0.qp with
    | none => s
    | some n =>
      let s := modFab s fun f => { f with msgs := f.msgs.map fun m =>
        if m.qp == n && m.msn == p.msn && (m.kind == 4) == resp then { m with lastBusy := false } else m }
      let more := s.fab.txs.any fun t => t.qp == some n && t.pkt.msn == p.msn && (t.pkt.type == ptReadResp) == resp
      match s.fab.msgs.find? fun m => m.qp == n && m.msn == p.msn && (m.kind == 4) == resp with
      | none => s
      | some m =>
        if more ∨ (m.kind ≠ 0 ∧ m.kind ≠ 4) then s
        else if m.kind = 0 then finishMsg s n p.msn
        else modFab s fun f => { f with
          msgs := f.msgs.filter fun x => !(x.qp == n && x.msn == p.msn && x.kind == 4),
          qps := tmod f.qps n fun q => { q with reads := q.reads.filter (· != p.msn) } }

/-- A NAK arrives (R248, R255). -/
def nakIn (s : State) (p : Pkt) : State :=
  let st := bits p.opWord 15 0
  let resp := p.winIdx == 1
  let hit := s.fab.txs.find? fun t =>
    t.pkt.dst == p.src && t.qp == some p.qp && t.pkt.msn == p.msn && t.pkt.offset == p.offset && t.st == 2 &&
      (t.pkt.type == ptReadResp) == resp
  match hit with
  | none => bump s rXeRxCnt 0 15 0 1
  | some t =>
    if st = sPending then
      let s := updTx s t.id fun t => { t with busy := true, busyAt := s.now + bits p.opWord 39 24 * 1000 }
      modFab s fun f => { f with msgs := f.msgs.map fun m =>
        if m.qp == p.qp && m.msn == p.msn then { m with lastBusy := true } else m }
    else failMsg s p.qp p.msn st (bits p.opWord 23 16)

/-- Send a packet's next copy on a path chosen again, with RETX set (R246). -/
def resend (s : State) (t : TxPkt) : State :=
  let s := if t.bytes = 0 then s else modFab s fun f => { f with
    dests := tmod f.dests t.pkt.dst fun x => { x with paths := tmod x.paths t.path fun q =>
      { q with inflight := q.inflight - t.bytes } } }
  let s := updTx s t.id fun t => { t with st := 0, busy := false, pkt := { t.pkt with retx := true } }
  tryTx s t.id

/-- A packet's retransmission timer fires (R246). ATOMIC messages follow R221: their timer and number of resends are
those of FL_ATOMIC_RETRY, and after the last one the outcome is unknown (R222). -/
def retxTimeout (s : State) (n msn off : Nat) : State :=
  match s.fab.txs.find? (fun t => t.qp == some n && t.pkt.msn == msn && t.pkt.offset == off && t.st == 2 && !t.busy),
      qpOf s n with
  | some t, some q =>
    match s.fab.msgs.find? fun m => m.qp == n && m.msn == msn && (m.kind == 4) == (t.pkt.type == ptReadResp) with
    | none => s
    | some m =>
      let atomic := m.kind == 2
      let wait := if atomic then rf s rFlAtomicRetry 0 10 0 else q.timeoutUs
      let tries := if atomic then rf s rFlAtomicRetry 0 18 16 else q.retry
      if s.now < t.sentAt + wait * 1000 then s
      else if m.kind = 1 ∧ (s.fab.tracks.any fun k => k.qp == n && k.msn == msn && decide (k.count > 0)) then s
      else
        let s := if t.bytes = 0 then s else chargeTimeout s t.pkt.dst t.path
        if decide (t.tries ≥ tries) || (!atomic && decide (s.now ≥ m.firstAt + 4000000)) then
          (if m.kind = 4 then dropMsgTx (modFab s fun f => { f with msgs := f.msgs.filter fun x => !(x.qp == n && x.msn == msn && x.kind == 4) }) n msn true
           else failMsg s n msn (if atomic then sAtomicUnknown else sRetryExceeded) (if atomic then 0 else retryDetail m))
        else
          let s := bump s rXeRetxCnt q.xe 31 0 1
          resend (updTx s t.id fun t => { t with tries := t.tries + 1 }) { t with tries := t.tries + 1 }
  | _, _ => s

/-- After DELAY_US a packet refused as busy is resent; the resend does not count (R248). -/
def nakResend (s : State) (n msn off : Nat) : State :=
  match s.fab.txs.find? (fun t => t.qp == some n && t.pkt.msn == msn && t.pkt.offset == off && t.busy), qpOf s n with
  | some t, some q => if s.now < t.busyAt then s else resend (bump s rXeRetxCnt q.xe 63 32 1) t
  | _, _ => s

/-- The message life ends (R246). -/
def lifeExpiry (s : State) (n msn : Nat) : State :=
  match s.fab.msgs.find? fun m => m.qp == n && m.msn == msn with
  | none => s
  | some m =>
    let first := (s.fab.txs.filter fun t => t.qp == some n && t.pkt.msn == msn).all fun t => t.tries == 0 && t.st != 2
    if m.kind = 2 ∨ s.now < m.firstAt + 4000000 ∨ (first ∧ m.kind = 0) then s
    else if m.kind = 4 then dropMsgTx (modFab s fun f => { f with msgs := f.msgs.filter fun x => !(x.qp == n && x.msn == msn && x.kind == 4) }) n msn true
    else failMsg s n msn sRetryExceeded (retryDetail m)

/-- A started work request's DEADLINE passes (R247). -/
def wrDeadline (s : State) (n k : Nat) : State :=
  match qpOf s n with
  | none => s
  | some q => match tget q.wrs k with
    | none => s
    | some r =>
      if r.st ≠ 1 ∨ r.wr.hasDeadline = false ∨ s.now < r.wr.deadline then s
      else
        let s := r.msgs.foldl (fun s m => dropMsgTx s n m false) s
        let s := modFab s fun f => { f with
          msgs := f.msgs.filter (fun m => !(m.qp == n && m.wrNo == k && m.kind != 4)),
          tracks := f.tracks.filter fun t => !(t.qp == n && t.type == ptReadResp && r.msgs.contains t.msn) }
        wrDone (bump s rXeQpCnt 0 47 32 1) n k sDeadlinePassed 0

/-! ### Firmware messages (R263) -/

/-- The firmware QP that is READY toward a destination. -/
def fwQp (s : State) (dst : Nat) : Option Nat :=
  (s.fab.qps.find? fun kv => decide (kv.1 < 512) && kv.2.st == 1 && kv.2.remoteEp == dst).map (·.1)

/-- The context of a sequence as this controller knows it: its own, one whose record, pages or log it holds; 0 otherwise. -/
def seqCtx (s : State) (q : Nat) : Nat :=
  match tget s.pg.seqs q, tget s.ce.homes q, tget s.ce.copies q, tget s.ce.logs q with
  | some x, _, _, _ => x.ctx
  | none, some h, _, _ => h.ctx
  | none, none, some c, _ => c.2.ctx
  | none, none, none, some l => l.ctx
  | none, none, none, none => match s.pg.index.find? (·.seq == q) with
    | some h => h.ctx
    | none => 0

/-- The context a firmware message is charged to (R325): that of the sequence its content concerns, or of its pane request;
0 for Latch messages and what concerns no sequence. -/
def ctlCtx (s : State) (m : Ctl) : Nat :=
  match m with
  | .latch _ | .pane | .flush => 0
  | .cell c =>
    if c.sub = 0x30 ∨ c.sub = 0x32 then c.a % 256
    else if 0x28 ≤ c.sub then seqCtx s c.obj else 0
  | .own x => match x with
    | .shard _ _ p => p.trailer.context
    | .mirror _ _ w => w.ctx
    | .log _ _ _ c _ _ | .lost _ c | .create _ _ c _ _ _ _ => c
    | .copy _ _ h => h.ctx
    | .mirrorDrop q _ _ _ | .unmirror q | .logFree q | .home _ q _ _ | .uncopy q | .moved q | .retire _ q | .repoint q _ _ | .lossy q =>
      seqCtx s q
    | .answer _ _ _ | .ledger _ _ | .group _ _ | .regionMod _ _ _ _ _ _ | .regionDir _ _ _ _ _ | .regionOwner _ _ _ | .rebuild _ _ _
    | .rebuilt _ _ => 0

def fwCtx (s : State) (m : FwMsg) : Nat :=
  match m.use with
  | .paneRequest _ => bits (w64At m.payload 0x10) 27 20
  | .pane c => c
  | .flush q => seqCtx s q
  | .plain => ctlCtx s m.ctl

/-- Start a firmware message on its QP: one message of the given type with its own TC. -/
def fwStart (s : State) (m : FwMsg) (n : Nat) : State :=
  match qpOf s n with
  | none => s
  | some q =>
    let msn := q.txMsn
    let len := m.payload.length
    let s := updQp s n fun q => { q with txMsn := (q.txMsn + 1) % 2 ^ 24, lastPkt := some s.now }
    let s := modFab s fun f => { f with
      msgs := f.msgs ++ [⟨n, msn, 2 ^ 32, if m.type = ptFlushReq then 3 else 0, m.type, 0, len, s.now, cdiv len (mtu s), false⟩],
      fw := f.fw.map fun x => if x.id == m.id then { x with qp := some n, msn := msn } else x }
    cutPackets s n (fwCtx s m) (fun o p => mkPkt s m.type m.tc m.dst q.remoteQp msn o len (m.key % 2 ^ 24) (m.key / 2 ^ 24) m.winOff p) m.payload (cdiv len 1024 + 1) 0

/-- Whether a QP number may connect now: 8 ms since its last packet (R237). -/
def guardOver (s : State) (q : Qp) : Bool :=
  match q.lastPkt with
  | none => true
  | some t => decide (t + 8000000 ≤ s.now)

/-- Connect a firmware QP to a destination: a number not in use, or the QP idle longest with no outstanding message
(R263). The remote firmware QP's number is not stated: a free value. -/
def fwConnect (s : State) (dst : Nat) : State :=
  let idle := s.fab.qps.filter fun kv => decide (kv.1 < 512) && outstanding s kv.1 == 0 && kv.2.connect.isNone
  let n := match tfree s.fab.qps 0 512 with
    | some n => some n
    | none => (sortBy (fun a b : Nat × Qp => decide (a.2.lastPkt.getD 0 ≤ b.2.lastPkt.getD 0)) idle).head?.map (·.1)
  match n with
  | none => s
  | some n =>
    let (w, s) := fresh s
    let old := (qpOf s n).getD (blankQp 0 0)
    let s := if (qpOf s n).isSome then qpReset s n else s
    let q := { blankQp 0 0 with
      remoteEp := dst, remoteQp := w.toNat % 512, lastPkt := old.lastPkt, timeoutUs := rf s rXeQpCfg 0 9 0,
      retry := rf s rXeQpCfg 0 12 10, maxOut := rf s rXeQpCfg 0 21 13 }
    if guardOver s old then setQp s n { q with st := 1 } else setQp s n { q with connect := some 0 }

/-- Start every waiting message of a destination once its firmware QP is READY. -/
def fwFlush (s : State) (dst : Nat) : State :=
  match fwQp s dst with
  | none => s
  | some n => (s.fab.fw.filter fun m => m.dst == dst && m.qp.isNone).foldl (fun s m => fwStart s m n) s

/-- Send a firmware message (R263): it waits for a CONNECT when the destination has no READY firmware QP. key and
winOff name the target window of a WRITE, deadline its DEADLINE (R247). -/
def fwSendTo (s : State) (dst type tc key winOff : Nat) (deadline : Option Nat) (ctl : Ctl) (payload : List Byte)
    (use : FwUse) : State :=
  let id := s.fab.fwCtr
  let s := modFab s fun f => { f with
    fwCtr := id + 1, fw := f.fw ++ [⟨id, dst, tc, none, 0, s.now, type, key, winOff, deadline, payload, ctl, use⟩] }
  let s := if (fwQp s dst).isNone && !(s.fab.qps.any fun kv => decide (kv.1 < 512) && kv.2.connect.isSome && kv.2.remoteEp == dst) then
      fwConnect s dst else s
  fwFlush s dst

/-- Send a firmware message that names no window. -/
def fwSend (s : State) (dst type tc : Nat) (ctl : Ctl) (payload : List Byte) (use : FwUse) : State :=
  fwSendTo s dst type tc 0 0 none ctl payload use

/-- FLUSH a destination for a sequence, on the firmware QP that carries its messages and so after them (R12, R258, R278). -/
def fwFlushReq (s : State) (dst q : Nat) : State := fwSend s dst ptFlushReq 4 .flush [] (.flush q)

/-- Whether a FLUSH for a sequence is still to complete. -/
def flushing (s : State) (q : Nat) : Bool := s.fab.fw.any fun m => m.use == .flush q

/-- A firmware WRITE's DEADLINE passes: sending stops, the QP stays READY (R247). -/
def fwDeadline (s : State) (n msn : Nat) : State :=
  match s.fab.fw.find? fun m => m.qp == some n && m.msn == msn with
  | none => s
  | some m => match m.deadline with
    | none => s
    | some d =>
      if s.now < d then s
      else
        let s := dropMsgTx s n msn false
        let s := modFab s fun f => { f with
          msgs := f.msgs.filter (fun x => !(x.qp == n && x.msn == msn && x.kind != 4)), fw := f.fw.filter (·.id != m.id) }
        bump s rXeQpCnt 0 47 32 1

end Sys2Proof.Machine
end

