-- ==== Sys2Proof/Machine/Target.lean ====
section
/-! DEFINITION. Queue pairs as receiver: windows, the receive window, message tracking, placement, reads, atomics and
flushes (R249–R260), and the atomic result cache (R225, R226). -/
namespace Sys2Proof.Machine

/-! ### Windows (R249, R250) -/

def winOf (s : State) (i : Nat) : Option Win := tget s.fab.wins i

def setWin (s : State) (i : Nat) (w : Win) : State := modFab s fun f => { f with wins := tput f.wins i w }

/-- A window's key. -/
def winKey (i : Nat) (w : Win) : Nat := i + w.gen * 2 ^ 24

/-- When the group of the next generation was last left, if the next generation is in another group (R250). -/
def guardTill (w : Win) : Option Nat :=
  let g := (w.gen + 1) % 256
  if g / 32 = w.gen / 32 then none else (tget w.left (g / 32)).map (· + 8000000)

/-- Whether the generation may advance now. -/
def winMay (s : State) (w : Win) : Bool := match guardTill w with | none => true | some t => decide (t ≤ s.now)

/-- Advance a window's generation. -/
def winAdvance (s : State) (w : Win) : Win :=
  let g := (w.gen + 1) % 256
  { w with gen := g, left := if g / 32 = w.gen / 32 then w.left else tput w.left (w.gen / 32) s.now }

/-- Run the invalidations that wait on a window, oldest first, while the guard allows (R250). -/
def winRun (s : State) (i : Nat) : Nat → State
  | 0 => s
  | fuel + 1 =>
    match winOf s i with
    | none => s
    | some w => match w.pend with
      | [] => s
      | (cmd, destroy) :: rest =>
        if !winMay s w then s
        else
          let w := winAdvance s { w with pend := rest }
          let w := if destroy then { w with live := false } else w
          let s := setWin s i w
          let s := match cmd with
            | some id => finish s id sOk 0 (if destroy then 0 else winKey i w) 0
            | none => s
          winRun s i fuel

/-- Invalidate or destroy a window (R250): at once, or PENDING and counted when the guard makes it wait. -/
def winInvalidate (s : State) (i : Nat) (cmd : Option Nat) (destroy : Bool) : State :=
  match winOf s i with
  | none => s
  | some w =>
    let waits := !w.pend.isEmpty || !winMay s w
    let s := setWin s i { w with pend := w.pend ++ [(cmd, destroy)] }
    if waits then
      let s := bump s rXeWinCnt 0 63 48 1
      match cmd with | some id => pend s id (.windowGuard i) | none => s
    else winRun s i 1

/-- Allocate a window entry: an index never used, or one destroyed with no guard wait; its generation continues
(R249, R250). -/
def winAlloc (s : State) (w : Win) : Option Nat × State :=
  match pick s (fun i => match winOf s i with | none => true | some x => !x.live && x.pend.isEmpty) 1 262143 with
  | (none, s) => (none, s)
  | (some i, s) =>
    let old := winOf s i
    (some i, setWin s i { w with gen := (old.map (·.gen)).getD 0, left := (old.map (·.left)).getD [] })

/-! ### Answers -/

/-- Acknowledge one packet (R185, R254): one ACK covers one packet here. -/
def sendAck (s : State) (senderQp : Nat) (p : Pkt) : State :=
  sendPlain s 0 (mkPkt s ptAck 0 p.src senderQp p.msn p.offset p.payload.length (b2n (p.type == ptReadResp)) 0
    (p.sendTs + p.entropy * 2 ^ 32 + 1 * 2 ^ 48) [])

/-- Refuse a packet (R255). -/
def sendNak (s : State) (senderQp : Nat) (p : Pkt) (status detail delay : Nat) : State :=
  let s := if status = sPending then bump s rXeRxCnt 0 63 48 1
    else if status = sRemoteAccess then bump s rXeWinCnt 0 47 32 1 else s
  sendPlain s 0 (mkPkt s ptNak 0 p.src senderQp p.msn p.offset 0 (b2n (p.type == ptReadResp)) 0
    (status + detail * 2 ^ 16 + delay * 2 ^ 24) [])

/-- A busy refusal with the configured delay. -/
def sendBusy (s : State) (senderQp : Nat) (p : Pkt) (detail : Nat) : State :=
  sendNak s senderQp p sPending detail (rf s rXeQpCfg 0 37 22)

/-! ### The receive window (R252, R256, R257) -/

/-- Where an MSN lies: 0 done, 1 in the window and not done, 2 beyond it. -/
def msnPlace (q : Qp) (msn : Nat) : Nat :=
  let off := (msn + 2 ^ 24 - q.rxBase) % 2 ^ 24
  if off ≥ 2 ^ 24 - 2 ^ 23 then 0 else if off < 4096 then (if q.done.contains msn then 0 else 1) else 2

/-- Advance RX_BASE past every done MSN. -/
def slideBase (q : Qp) : Nat → Qp
  | 0 => q
  | fuel + 1 =>
    if q.done.contains q.rxBase then
      slideBase { q with rxBase := (q.rxBase + 1) % 2 ^ 24, done := q.done.filter (· != q.rxBase),
                         gone := q.gone.filter (· != q.rxBase), seen := tdel q.seen q.rxBase } fuel
    else q

/-! ### Memory behind a window -/

/-- Whether a range touches a 64 B piece the stacks reported uncorrectable (R151, R214). -/
def poisoned (s : State) (a n : Nat) : Bool := s.pg.poison.any fun p => decide (p < a + n ∧ a < p + 64)

/-- Write bytes; a write of a whole 64 B piece clears its mark (R214, R379). -/
def writeClear (s : State) (a : Nat) (bs : List Byte) : State :=
  let s := wrMem s a bs
  modPg s fun p => { p with poison := p.poison.filter fun x => !(decide (a ≤ x ∧ x + 64 ≤ a + bs.length)) }

/-! ### Atomics (R214, R225, R226) -/

/-- The result of an atomic on memory: the old bytes, and the bytes written (none when nothing is written). -/
def atomicApply (aop : Nat) (old pay : List Byte) : List Byte × Option (List Byte) :=
  let x := leAt pay 0 8
  if aop = 0 then (old, some (toLE 8 (leAt old 0 8 + x)))
  else if aop = 1 then (old, some (toLE 8 x))
  else if aop = 2 then (old, if leAt old 0 8 = x then some (toLE 8 (leAt pay 8 8)) else none)
  else (old, if leAt old 0 8 = x then some (toLE 8 (leAt old 0 8 + 1) ++ toLE 8 (leAt pay 8 8)) else none)

/-- Bytes an atomic reads. -/
def atomicSize (aop : Nat) : Nat := if aop = 3 then 16 else 8

def cachedAtomic (s : State) (src : Nat) (rack : Bool) (qp msn : Nat) : Option AtomicRes :=
  s.fab.atomics.find? fun a => a.src == src && a.rack == rack && a.qp == qp && a.msn == msn

/-- Room for one more result: fewer than 16,384 entries, or an entry older than 10 ms to evict, oldest first (R225). -/
def cacheRoom (s : State) : Option State :=
  if s.fab.atomics.length < 16384 then some s
  else
    let old := s.fab.atomics.filter fun a => decide (a.at_ + 10000000 < s.now)
    match sortBy (fun a b : AtomicRes => decide (a.at_ ≤ b.at_)) old with
    | [] => none
    | v :: _ => some (modFab s fun f => { f with atomics := delFirst (fun a => a == v) f.atomics })

/-- OP_WORD of a response (R216). -/
def respWord (status detail owner : Nat) (poison replay : Bool) : Nat :=
  status + detail * 2 ^ 16 + owner * 2 ^ 24 + b2n poison * 2 ^ 44 + b2n replay * 2 ^ 45

/-- Apply an atomic to local memory for a context and record the result; a poisoned block fails with LOST_STATE. -/
def runAtomic (s : State) (c src : Nat) (rack : Bool) (qp msn aop addr : Nat) (pay : List Byte) : State × Nat × List Byte :=
  let n := atomicSize aop
  let (old, new) := atomicApply aop (rdMem s addr n) pay
  let bad := poisoned s addr n
  let st := if bad then sLostState else sOk
  let res := if bad then List.replicate n 0xFF else old
  let s := touchSpan s c (addr, n)
  let s := if bad then s else match new with | some b => touchSpan (wrMem s addr b) c (addr, b.length) | none => s
  (modFab s fun f => { f with atomics := f.atomics ++ [⟨src, rack, qp, msn, st, res, s.now⟩] }, st, res)

/-! ### Executing what waits for RX_BASE (R257–R259) -/

/-- Start a READ: its data leaves as READ_RESP packets, kept until acknowledged (R259). -/
def runRead (s : State) (n : Nat) (q : Qp) (w : Win) (p : Pkt) : State :=
  let a := w.base + bits p.opWord 31 0
  if poisoned s a p.length then sendNak s q.remoteQp p sLostState 0 0
  else
    let s := updQp s n fun q => { q with reads := p.msn :: q.reads }
    let s := modFab s fun f => { f with
      msgs := f.msgs ++ [⟨n, p.msn, 0, 4, ptReadResp, a, p.length, s.now, cdiv p.length (mtu s), false⟩] }
    cutPackets (touchSpan s q.ctx (a, p.length)) n q.ctx (fun o b => mkPkt s ptReadResp p.tc p.src q.remoteQp p.msn o p.length 0 0 0 b)
      (rdMem s a p.length) (cdiv p.length 1024 + 1) 0

/-- Mark an MSN done. -/
def msnDone (s : State) (n msn : Nat) (abandoned : Bool) : State :=
  updQp s n fun q => slideBase { q with
    done := addSorted msn q.done, gone := if abandoned then addSorted msn q.gone else q.gone,
    flushBad := q.flushBad || abandoned } 4097

/-- Execute a request whose MSN is RX_BASE. A READ's MSN is done once its data has left; an atomic's and a FLUSH's once
answered. An atomic that finds the cache full is answered PENDING and its MSN waits (R225). -/
def runHeld (s : State) (n : Nat) (p : Pkt) : State :=
  match qpOf s n with
  | none => s
  | some q =>
    let s := updQp s n fun q => { q with held := q.held.filter (· != p) }
    if p.type = ptFlushReq then
      let s := if q.flushBad then sendNak s q.remoteQp p sRemoteOp 4 0
        else sendPkt s (some n) q.ctx (mkPkt s ptFlushResp p.tc p.src q.remoteQp p.msn 0 0 0 0 (respWord sOk 0 0 false false) [])
      let s := updQp s n fun q => { q with flushBad := false, badFlushes := if q.flushBad then p.msn :: q.badFlushes else q.badFlushes }
      msnDone s n p.msn false
    else match winOf s p.winIdx with
      | none => s
      | some w =>
        if p.type = ptReadReq then msnDone (runRead s n q w p) n p.msn false
        else
          let resp (st : Nat) (res : List Byte) : Pkt := mkPkt s ptAtomicResp p.tc p.src q.remoteQp p.msn 0 p.length 0 0
            (respWord st 0 0 false false) res
          match cacheRoom s with
          | none =>
            let s := bump s rFlAtomicCnt 0 63 48 1
            sendPkt s (some n) q.ctx (resp sPending (List.replicate p.length 0))
          | some s =>
            let (s, st, res) := runAtomic s q.ctx p.src false n p.msn (bits p.opWord 46 44) (w.base + bits p.opWord 43 0) p.payload
            msnDone (sendPkt s (some n) q.ctx (resp st res)) n p.msn false

/-- Run held requests of a QP whose turn has come. -/
def runTurn (s : State) (n : Nat) : Nat → State
  | 0 => s
  | fuel + 1 =>
    match qpOf s n with
    | none => s
    | some q => match q.held.find? (·.msn == q.rxBase) with
      | none => s
      | some p => runTurn (runHeld s n p) n fuel

/-- An MSN is done: the requests it held back run. -/
def doneAndTurn (s : State) (n msn : Nat) (abandoned : Bool) : State := runTurn (msnDone s n msn abandoned) n 4096

/-! ### Completing a message (R253) -/

/-- The message of a tracking entry is complete and visible: receive entry, counters, done, entry released; a pane's
message goes to the inbox. Bytes of a message to firmware are not kept: its row carries its content. -/
def completeMsg (s : State) (t : Track) : State :=
  match qpOf s t.qp with
  | none => s
  | some q =>
    let notify := q.ctx != 0 && (t.type == ptWriteImm || t.type == ptSend)
    let s := if notify then cqPut s t.qp ⟨t.msn + t.src * 2 ^ 24 + (if t.type = ptSend then t.slot else 0) * 2 ^ 44, sOk, 0,
        t.type, true, true, t.length, t.imm.getD 0, s.now⟩ else s
    let s := match winOf s t.win with
      | some w => match w.ctr with | some j => if t.win = 0 then s else addCtr s w.ctx j | none => s
      | none => s
    let s := match q.rxCtr with
      | some j => if notify then addCtr s q.ctx j else s
      | none => s
    let s := match winOf s t.win with
      | some w => match w.sink with
        | some pane =>
          let body := (sortBy (fun a b : Nat × List Byte => decide (a.1 ≤ b.1)) t.bytes).flatMap (·.2)
          modFab s fun f => { f with inbox := f.inbox ++ [(pane, body)] }
        | none => s
      | none => s
    let s := modFab s fun f => { f with tracks := f.tracks.filter fun x => !(x.qp == t.qp && x.msn == t.msn && x.type != ptReadResp) }
    doneAndTurn s t.qp t.msn false

/-! ### The checks of R251 -/

/-- Tracking entry of a message being received. -/
def trackOf (s : State) (n msn : Nat) : Option Track :=
  s.fab.tracks.find? fun t => t.qp == n && t.msn == msn && t.type != ptReadResp

/-- Whether a packet carries its whole message. -/
def wholeMsg (p : Pkt) : Bool := p.offset == 0 && p.payload.length == p.length

/-- Whether a packet type names a window. -/
def namesWindow (t : Nat) : Bool := [0x01, 0x02, 0x03, 0x05].contains t

/-- Check 6 of R251 on a live window: the detail that fails. -/
def winCheck (q : Qp) (n : Nat) (w : Win) (p : Pkt) : Option Nat :=
  let off := if p.type = ptAtomicReq then bits p.opWord 43 0 else bits p.opWord 31 0
  let right := if p.type = ptReadReq then w.rd else if p.type = ptAtomicReq then w.at_ else w.wr
  if w.ctx ≠ q.ctx then some 2
  else if !right then some 3
  else if (match w.bound with | some b => b != n | none => false) then some 5
  else if off + p.length > w.len then some 4
  else if p.type = ptAtomicReq ∧ (p.length ≠ atomicSize (bits p.opWord 46 44) ∨ off % p.length ≠ 0) then some 6
  else none

/-- Place the granules of a packet whose bits are clear (R253). -/
def placeGrains (s : State) (t : Track) (p : Pkt) (toMem : Bool) : State × Track :=
  let idx := (List.range (cdiv p.payload.length 256)).filter fun i => !t.grains.contains (p.offset / 256 + i)
  let piece (i : Nat) : List Byte := (p.payload.drop (i * 256)).take 256
  let c := (qpOf s t.qp).elim 0 (·.ctx)
  let s := if toMem then idx.foldl (fun s i =>
      let a := t.target + p.offset + i * 256
      touchSpan (writeClear s a (piece i)) c (a, (piece i).length)) s
    else s
  (s, { t with
    grains := idx.foldl (fun g i => addSorted (p.offset / 256 + i) g) t.grains,
    count := t.count + (idx.map fun i => (piece i).length).foldl (· + ·) 0,
    bytes := if toMem then t.bytes else t.bytes ++ idx.map fun i => (p.offset + i * 256, piece i),
    imm := if p.offset + p.payload.length = p.length ∧ (p.type = ptWriteImm ∨ p.type = ptSend) then some (bits p.opWord 63 32) else t.imm })

/-- Accept a data packet (check 8 of R251): place, count, acknowledge; a whole-message packet completes at once. slot is
the receive slot of a SEND. -/
def acceptData (s : State) (n : Nat) (q : Qp) (p : Pkt) (target slot : Nat) (toMem : Bool) : State :=
  let t := (trackOf s n p.msn).getD ⟨p.src, n, p.msn, p.type, p.length, 0, [], none, s.now, target, p.winIdx, slot, []⟩
  let (s, t) := placeGrains s t p toMem
  let s := sendAck s q.remoteQp p
  if wholeMsg p then completeMsg s t
  else
    let rest := s.fab.tracks.filter fun x => !(x.qp == n && x.msn == p.msn && x.type != ptReadResp)
    let s := modFab s fun f => { f with tracks := rest ++ [t] }
    let use := s.fab.tracks.length
    wf s rXeTrack 0 29 15 (Nat.max (rf s rXeTrack 0 29 15) use)

/-- The queue pair notes that packet p came, and when its message's first one did (R256). -/
def qpNoted (s : State) (p : Pkt) : State :=
  updQp s p.qp fun q => { q with seen := if thas q.seen p.msn then q.seen else tput q.seen p.msn s.now }

/-- The same for a packet that the queue pair accepts, which its CONNECT guard counts from (R237). -/
def qpSeen (s : State) (p : Pkt) : State :=
  updQp s p.qp fun q => { q with
    lastPkt := some s.now, seen := if thas q.seen p.msn then q.seen else tput q.seen p.msn s.now }

/-- Queue pair q takes packet p of a message in its range, of window w where it names one (R252–R257): it is turned away while there is
no room, a request waits for its turn, and data is placed and acknowledged. -/
def qpTake (s : State) (q : Qp) (p : Pkt) (w : Option Win) : State :=
  let n := p.qp
  let fw := decide (n < 512)
  let tr := trackOf s n p.msn
  let needTrack := multiPkt p.type && !wholeMsg p && tr.isNone
  let isSend := p.type == ptSend && !fw
  let slot := match tr with | some t => t.slot | none => q.rxNext
  let refused := qpNoted s p
  let s := qpSeen s p
  if isSend && (q.rx.2 == 0 || decide (p.length > 2 ^ q.slotLog)) then sendNak refused q.remoteQp p sRemoteOp 3 0
  else if needTrack && !trackRoom s then sendBusy refused q.remoteQp p 1
  else if isSend && tr.isNone && decide (sub32 q.rxNext q.rxCi ≥ 2 ^ q.rxLog) then sendBusy refused q.remoteQp p 2
  else if (p.type = ptWriteImm ∨ isSend = true) ∧ fw = false ∧ cqRoom q = false then sendBusy refused q.remoteQp p 3
  else if p.type = ptReadReq ∨ p.type = ptAtomicReq ∨ p.type = ptFlushReq then
    let s := if p.type = ptAtomicReq then sendAck s q.remoteQp p else s
    if q.held.any (·.msn == p.msn) then s
    else runTurn (updQp s n fun q => { q with held := q.held ++ [p] }) n 4096
  else
    let s := if isSend && tr.isNone then updQp s n fun q => { q with rxNext := (q.rxNext + 1) % 2 ^ 32 } else s
    let toMem := !(fw && !namesWindow p.type) && !((w.bind (·.sink)).isSome && namesWindow p.type)
    let target := if namesWindow p.type then (match w with | some w => w.base + bits p.opWord 31 0 | none => 0)
      else q.rx.2 + (slot % 2 ^ q.rxLog) * 2 ^ q.slotLog
    if isSend && q.rx.1 == 0 then
      let s := acceptData s n q p target (slot % 2 ^ q.rxLog) false
      toHost s (.data (target + p.offset) p.payload)
    else acceptData s n q p target (slot % 2 ^ q.rxLog) toMem

/-- A packet of a queue pair arrives after R187: the checks of R251 in order. serving says whether this controller still
serves peers (R433, R255). -/
def qpIn (s : State) (p : Pkt) (serving : Bool) : State :=
  let n := p.qp
  match qpOf s n with
  | none => let (w, s) := fresh s; sendNak s (w.toNat % 2 ^ 16) p sRemoteOp 1 0
  | some q =>
    if (q.st ≠ 1 ∧ q.st ≠ 2) ∨ (serving = false ∧ p.type ≠ ptPaneReq) then sendNak s q.remoteQp p sRemoteOp 1 0
    else if p.src ≠ q.remoteEp then sendNak s q.remoteQp p sRemoteOp 2 0
    else
      let place := msnPlace q p.msn
      if place = 2 then bump s rXeRxCnt 0 31 16 1
      else if place = 0 then
        let s := bump s rXeRxCnt 0 15 0 1
        if q.gone.contains p.msn then s
        else if p.type = ptAtomicReq then
          match cachedAtomic s p.src false n p.msn with
          | some a =>
            let s := bump s rFlAtomicCnt 0 31 0 1
            sendPkt s (some n) q.ctx (mkPkt s ptAtomicResp p.tc p.src q.remoteQp p.msn 0 p.length 0 0
              (respWord a.status 0 0 false true) a.result)
          | none =>
            let s := bump s rFlAtomicCnt 0 47 32 1
            sendPkt s (some n) q.ctx (mkPkt s ptAtomicResp p.tc p.src q.remoteQp p.msn 0 p.length 0 0
              (respWord sAtomicUnknown 0 0 false false) (List.replicate p.length 0))
        else if p.type = ptReadReq ∧ q.reads.contains p.msn = true then s
        else if p.type = ptFlushReq ∧ q.badFlushes.contains p.msn = true then sendNak s q.remoteQp p sRemoteOp 4 0
        else if p.type = ptFlushReq then
          sendPkt s (some n) q.ctx (mkPkt s ptFlushResp p.tc p.src q.remoteQp p.msn 0 0 0 0 (respWord sOk 0 0 false false) [])
        else sendAck s q.remoteQp p
      else
        let w := winOf s p.winIdx
        if namesWindow p.type ∧ (p.winIdx = 0 ∨ p.winIdx ≥ 262144 ∨ w.isNone) then sendNak s q.remoteQp p sRemoteAccess 1 0
        else if namesWindow p.type && (match w with | some w => !w.live || w.gen != p.winGen | none => true) then
          let s := bump s rXeWinCnt 0 31 0 1
          match w with
          | some w => if w.sink.isSome then setWin (bump s rTePaneEvtCnt 0 15 0 1) p.winIdx { w with sink := none } else s
          | none => s
        else match (if namesWindow p.type then w.bind fun w => winCheck q n w p else none) with
          | some d => sendNak s q.remoteQp p sRemoteAccess d 0
          | none => qpTake s q p w

/-- A message counted whole in its tracking entry becomes visible (R253). -/
def msgVisible (s : State) (n msn : Nat) : State :=
  match trackOf s n msn with
  | some t => if t.count = t.length then completeMsg s t else s
  | none => s

/-- A READ_RESP packet arrives (R259). -/
def readRespIn (s : State) (p : Pkt) : State :=
  match s.fab.tracks.find? (fun t => t.qp == p.qp && t.msn == p.msn && t.type == ptReadResp && t.src == p.src), qpOf s p.qp with
  | some t, some q =>
    let s := ((s.fab.txs.filter fun x => x.qp == some p.qp && x.pkt.msn == p.msn && x.pkt.type == ptReadReq).map (·.id)).foldl dropTx s
    let (s, t) := placeGrains s t p true
    let s := sendAck s q.remoteQp p
    if t.count = t.length then
      let s := modFab s fun f => { f with tracks := f.tracks.filter fun x => !(x.qp == p.qp && x.msn == p.msn && x.type == ptReadResp) }
      finishMsg s p.qp p.msn
    else modFab s fun f => { f with tracks := f.tracks.map fun x =>
      if x.qp == p.qp && x.msn == p.msn && x.type == ptReadResp then t else x }
  | _, _ => bump s rXeRxCnt 0 15 0 1

/-- An ATOMIC_RESP for a queue pair's atomic (R226, R243): the old value goes to LOCAL_ADDR and the entry; a PENDING
answer is resent 10 µs later without counting (R225). -/
def atomicRespQp (s : State) (p : Pkt) : State :=
  match s.fab.msgs.find? (fun m => m.qp == p.qp && m.msn == p.msn && m.kind == 2), qpOf s p.qp with
  | some m, some q =>
    if p.src ≠ q.remoteEp then bump s rXeRxCnt 0 15 0 1
    else
      let st := bits p.opWord 15 0
      let s := sendAck s q.remoteQp p
      if st = sPending then
        modFab s fun f => { f with txs := f.txs.map fun t =>
          if t.qp == (some p.qp) && t.pkt.msn == p.msn && t.pkt.type == ptAtomicReq then
            { t with busy := true, busyAt := s.now + 10000 } else t }
      else if st = sOk then
        let s := touchSpan (wrMem s m.base p.payload) q.ctx (m.base, p.payload.length)
        let s := updWr s p.qp m.wrNo fun r => { r with old := leAt p.payload 0 8 }
        finishMsg s p.qp p.msn
      else failMsg s p.qp p.msn st (bits p.opWord 23 16)
  | _, _ => bump s rXeRxCnt 0 15 0 1

/-- A FLUSH_RESP arrives (R258). -/
def flushRespIn (s : State) (p : Pkt) : State :=
  if s.fab.msgs.any (fun m => m.qp == p.qp && m.msn == p.msn && m.kind == 3) then
    (if bits p.opWord 15 0 = sOk then finishMsg s p.qp p.msn else failMsg s p.qp p.msn (bits p.opWord 15 0) (bits p.opWord 23 16))
  else bump s rXeRxCnt 0 15 0 1

/-- Abandon an MSN 8 ms after its first packet, or after the first arrival of a higher MSN when it has none (R256). -/
def msnAbandon (s : State) (n msn : Nat) : State :=
  match qpOf s n with
  | none => s
  | some q =>
    let higher := q.seen.filter fun kv => decide ((kv.1 + 2 ^ 24 - msn) % 2 ^ 24 < 2 ^ 23) && kv.1 != msn
    let since := match tget q.seen msn with
      | some t => some t
      | none => higher.foldl (fun m kv => match m with | none => some kv.2 | some t => some (Nat.min t kv.2)) none
    match since with
    | none => s
    | some t =>
      if msnPlace q msn ≠ 1 ∨ s.now < t + 8000000 then s
      else
        let s := modFab s fun f => { f with tracks := f.tracks.filter fun x => !(x.qp == n && x.msn == msn && x.type != ptReadResp) }
        let s := updQp s n fun q => { q with held := q.held.filter (·.msn != msn) }
        doneAndTurn (bump s rXeRxCnt 0 47 32 1) n msn true

/-! ### Doorbells (R239) -/

/-- SQ_PI: makes work requests available; reqs are their 64 B images as the controller reads them from the ring. -/
def sqPi (s : State) (n v : Nat) (reqs : List (List Byte)) : State :=
  match qpOf s n with
  | none => s
  | some q =>
    if n < 512 then rsvdWrite s
    else
      let step := sub32 v q.pi
      if step > 2 ^ 31 ∨ sub32 v q.ci > 2 ^ q.sqLog then qpError s n sInvalidParam
      else
        let img (i : Nat) : List Byte :=
          if q.sq.1 = 1 then rdMem s (q.sq.2 + ((q.pi + i) % 2 ^ q.sqLog) * 64) 64 else reqs.getD i []
        let new := (List.range step).map fun i =>
          (q.wrNo + i, (⟨workReqOf (img i), 0, [], 0, 0, 0, 0, false, 0⟩ : WrRun))
        let q := { q with pi := v % 2 ^ 32, wrNo := q.wrNo + step }
        if q.st = 3 then
          let s := setQp s n q
          popDone s n (q.wrs ++ new.map fun kv => (kv.1, { kv.2 with st := 2, status := sFlushed }))
        else setQp s n { q with wrs := q.wrs ++ new }

/-- CQ_CI: returns completion entries. -/
def cqCi (s : State) (n v : Nat) : State :=
  match qpOf s n with
  | none => s
  | some q =>
    if n < 512 then rsvdWrite s
    else if sub32 v q.cqCi > sub32 q.cqTail q.cqCi then qpError s n sInvalidParam
    else
      let s := updQp s n fun q => { q with cqCi := v % 2 ^ 32 }
      cqDrain s n q.cqWait

/-- RX_CI: frees receive slots. -/
def rxCi (s : State) (n v : Nat) : State :=
  match qpOf s n with
  | none => s
  | some q =>
    if n < 512 then rsvdWrite s
    else if sub32 v q.rxCi > sub32 q.rxNext q.rxCi then qpError s n sInvalidParam
    else updQp s n fun q => { q with rxCi := v % 2 ^ 32 }

/-! ### Commands (R354) -/

/-- QPs bound to an XE. -/
def qpsOn (s : State) (x : Nat) : Nat := tcount s.fab.qps fun q => q.xe == x

/-- Whether an XE takes QPs: enabled and not offline. -/
def xeUsable (s : State) (x : Nat) : Bool := rbit s rXeCtrl x 0 && !rbit s rXeStatus x 3

/-- The XE with the fewest QPs among those of die d (2: either); which of equals is open (log entry 5). -/
def chooseXe (s : State) (d : Nat) : Option Nat × State :=
  let lo := if d = 1 then 32 else 0
  let n := if d = 2 then 64 else 32
  let ok := ((List.range n).map (lo + ·)).filter (xeUsable s)
  let least := ok.foldl (fun m x => Nat.min m (qpsOn s x)) 2 ^ 32
  pick s (fun x => ok.contains x && qpsOn s x == least) lo n

/-- Whether a ring address is host memory, or lies in the context's staging SRAM with its whole size (R239). -/
def ringOk (s : State) (c kind addr bytes : Nat) : Bool :=
  kind == 0 || (ctxSram s c).any fun r => decide (r.1 ≤ addr ∧ addr + bytes ≤ r.1 + r.2)

/-- QP_CREATE (R235, R239, R260). -/
def opQpCreate (id : Nat) (c : Cmd) (s : State) : State :=
  let w := c.w4
  let sq := fld w 4 0
  let cq := fld w 9 5
  let rx := fld w 14 10
  let sl := fld w 19 15
  let hasRx := c.w3 != 0
  if sq < 4 ∨ sq > 16 ∨ cq < 4 ∨ cq > 16 ∨ (hasRx = true ∧ (rx < 4 ∨ rx > 16)) ∨ (hasRx = false ∧ rx ≠ 0) ∨ sl < 8 ∨ sl > 16 ∨
      fld w 21 20 = 3 ∨ ringOk s (cCtx c) (cKind c 1) c.w1.toNat (64 * 2 ^ sq) = false ∨
      ringOk s (cCtx c) (cKind c 2) c.w2.toNat (32 * 2 ^ cq) = false ∨
      (hasRx = true ∧ ringOk s (cCtx c) (cKind c 3) c.w3.toNat (2 ^ (rx + sl)) = false) then fail s id sInvalidParam 0
  else match pick s (fun n => !thas s.fab.qps n) 512 65024 with
    | (none, s) => fail s id sNoFit 10
    | (some n, s) => match chooseXe s (fld w 21 20) with
      | (none, s) => fail s id sNoFit 10
      | (some x, s) =>
        let q := { blankQp (cCtx c) x with
          sq := (cKind c 1, c.w1.toNat), cq := (cKind c 2, c.w2.toNat), rx := (cKind c 3, c.w3.toNat), sqLog := sq,
          cqLog := cq, rxLog := rx, slotLog := sl, rxCtr := if wbit w 22 then some (fld w 26 23) else none,
          lastPkt := tget s.fab.qpLast n }
        finish (setQp s n q) id sOk 0 n 0

/-- The QP a command names, when it belongs to the command's context. -/
def cmdQp (s : State) (c : Cmd) (n : Nat) : Option Qp :=
  match qpOf s n with
  | some q => if q.ctx = cCtx c ∧ (512 ≤ n ∨ q.ctx = 0) then some q else none
  | none => none

/-- Range check of QP_MODIFY CONNECT (R267, R324). -/
def connectOk (c : Cmd) : Bool :=
  let t := fld c.w3 9 0
  let r := fld c.w3 12 10
  let m := fld c.w3 21 13
  let tc := fld c.w2 38 36
  (t == 0 || decide (10 ≤ t ∧ t ≤ 500)) && decide (r ≤ 7) && decide (m ≤ 256) && decide (1 ≤ tc ∧ tc ≤ 6)

/-- Make a QP READY with the settings its CONNECT gave (R236). -/
def connectNow (s : State) (n : Nat) : State :=
  match qpOf s n with
  | none => s
  | some q =>
    let (ep, rq, tc) := q.connArgs
    let (t, r, m) := q.connSet
    let s := setQp s n { q with
      st := 1, connect := none, remoteEp := ep, remoteQp := rq, tc := tc,
      timeoutUs := if t = 0 then rf s rXeQpCfg 0 9 0 else t, retry := if r = 0 then rf s rXeQpCfg 0 12 10 else r,
      maxOut := if m = 0 then rf s rXeQpCfg 0 21 13 else m,
      txMsn := 1, rxBase := 1, done := [], gone := [], seen := [], held := [], flushBad := false, badFlushes := [] }
    match q.connect with
    | some id => if n < 512 then s else finishOk s id
    | none => s

/-- QP_MODIFY CONNECT (R236, R237). -/
def opQpConnect (id : Nat) (c : Cmd) (s : State) : State :=
  let n := fld c.w1 15 0
  match cmdQp s c n with
  | none => fail s id sInvalidParam 0
  | some q =>
    if q.st ≠ 0 ∨ q.connect.isSome ∨ connectOk c = false then fail s id sInvalidParam 0
    else
      let s := setQp s n { q with
        connect := some id, connArgs := (fld c.w2 19 0, fld c.w2 35 20, fld c.w2 38 36),
        connSet := (fld c.w3 9 0, fld c.w3 12 10, fld c.w3 21 13) }
      if guardOver s q then connectNow s n else pend s id (.connect n)

/-- Start draining a READY QP (R236). -/
def qpDrain (s : State) (n : Nat) : State :=
  drainCheck (updQp s n fun q => { q with st := 2, drainTo := q.wrNo }) n

/-- QP_MODIFY DRAIN. -/
def opQpDrain (id : Nat) (c : Cmd) (s : State) : State :=
  let n := fld c.w1 15 0
  match cmdQp s c n with
  | some q => if q.st = 1 ∧ c.w2 = 0 ∧ c.w3 = 0 then qpDrain (finishOk s id) n else fail s id sInvalidParam 0
  | none => fail s id sInvalidParam 0

/-- QP_MODIFY ERROR: no causing status (R238). -/
def opQpError (id : Nat) (c : Cmd) (s : State) : State :=
  let n := fld c.w1 15 0
  match cmdQp s c n with
  | some q => if (q.st = 1 ∨ q.st = 2) ∧ c.w2 = 0 ∧ c.w3 = 0 then qpError (finishOk s id) n sOk else fail s id sInvalidParam 0
  | none => fail s id sInvalidParam 0

/-- QP_MODIFY RESET. -/
def opQpReset (id : Nat) (c : Cmd) (s : State) : State :=
  let n := fld c.w1 15 0
  match cmdQp s c n with
  | some q => if q.st = 3 ∧ c.w2 = 0 ∧ c.w3 = 0 then finishOk (qpReset s n) id else fail s id sInvalidParam 0
  | none => fail s id sInvalidParam 0

/-- Forget a QP, keeping when its number last sent or accepted a packet (R237). -/
def qpForget (s : State) (n : Nat) : State :=
  modFab s fun f => { f with
    qps := tdel f.qps n,
    qpLast := match (tget f.qps n).bind (·.lastPkt) with | some t => tput f.qpLast n t | none => f.qpLast }

/-- QP_DESTROY: a READY or DRAINING QP first enters ERROR (R236). A CONNECT still waiting fails with FLUSHED. -/
def opQpDestroy (id : Nat) (c : Cmd) (s : State) : State :=
  let n := fld c.w1 15 0
  match cmdQp s c n with
  | none => fail s id sInvalidParam 0
  | some q =>
    let s := if q.st = 1 ∨ q.st = 2 then qpError s n sOk else s
    let s := match q.connect with | some k => finish s k sFlushed 0 0 0 | none => s
    finishOk (qpForget s n) id

/-- WINDOW_CREATE (R249, R213). -/
def opWindowCreate (id : Nat) (c : Cmd) (s : State) : State :=
  let len := c.w2.toNat
  let qn := fld c.w3 19 4
  if len < 64 ∨ len > 2 ^ 32 ∨ c.w1.toNat % 64 ≠ 0 ∨ localOk s (cCtx c) c.w1.toNat len = false ∨
      (wbit c.w3 3 = true ∧ (cmdQp s c qn).isNone) then fail s id sInvalidParam 0
  else match winAlloc s ⟨true, cCtx c, c.w1.toNat, len, wbit c.w3 0, wbit c.w3 1, wbit c.w3 2,
      if wbit c.w3 3 then some qn else none, if wbit c.w3 20 then some (fld c.w3 24 21) else none, 0, [], none, []⟩ with
    | (none, s) => fail s id sNoFit 7
    | (some i, s) => match winOf s i with
      | some w => finish s id sOk 0 (winKey i w) 0
      | none => s

/-- The window a key names, current and of the command's context; a pane's window is no command's. -/
def cmdWin (s : State) (c : Cmd) : Option Nat :=
  let k := fld c.w1 31 0
  match winOf s (k % 2 ^ 24) with
  | some w => if w.live && w.gen == k / 2 ^ 24 && w.ctx == cCtx c && w.sink.isNone && !(w.pend.any (·.2)) then some (k % 2 ^ 24) else none
  | none => none

/-- WINDOW_INVALIDATE (R250). -/
def opWindowInvalidate (id : Nat) (c : Cmd) (s : State) : State :=
  match cmdWin s c with
  | some i => winInvalidate s i (some id) false
  | none => fail s id sInvalidParam 0

/-- WINDOW_DESTROY (R250). -/
def opWindowDestroy (id : Nat) (c : Cmd) (s : State) : State :=
  match cmdWin s c with
  | some i => winInvalidate s i (some id) true
  | none => fail s id sInvalidParam 0

/-- XE_QP_INFO and XE_QP_INFO2 of the selected QP (R267). -/
def viewQpInfo (s : State) : Nat :=
  let n := rf s rXeQpSel 0 15 0
  match qpOf s n with
  | none => 0
  | some q => q.st + q.ctx * 2 ^ 2 + q.xe * 2 ^ 10 + q.remoteEp * 2 ^ 16 + q.remoteQp * 2 ^ 36 + q.tc * 2 ^ 52 +
      outstanding s n * 2 ^ 55

def viewQpInfo2 (s : State) : Nat :=
  match qpOf s (rf s rXeQpSel 0 15 0) with
  | none => 0
  | some q => q.txMsn + q.rxBase * 2 ^ 24 + b2n (q.wrs.any fun kv => kv.2.held) * 2 ^ 48

/-- XE_WIN_STATUS. -/
def viewWinStatus (s : State) : Nat :=
  tcount s.fab.wins (·.live) + tcount s.fab.qps (fun q => q.wrs.any fun kv => kv.2.held) * 2 ^ 18

/-- XE[n]_LOAD. -/
def viewXeLoad (s : State) (x : Nat) : Nat := xeOutstanding s x + qpsOn s x * 2 ^ 9

/-- XE_TRACK. -/
def viewXeTrack (s : State) : Nat := setBits (rdReg s rXeTrack 0 0).toNat 14 0 s.fab.tracks.length

end Sys2Proof.Machine
end

