-- ==== Sys2Proof/Machine/Access.lean ====
section
/-! DEFINITION. Rack loads, stores and atomics: issuing, the access window at the home, dead targets, and regions
(R205–R226, R232). -/
namespace Sys2Proof.Machine

/-- Members of the rack domain (R206) and of the quad (R227). -/
def inDomain (s : State) (e : Nat) : Bool :=
  (List.range 32).any fun i => rbit s rFlDomain i 20 && rf s rFlDomain i 19 0 == e

/-- Quad position of an endpoint. -/
def quadPos (s : State) (e : Nat) : Option Nat :=
  (List.range 4).find? fun i => rbit s rFlQuad i 20 && rf s rFlQuad i 19 0 == e

/-- Whether an endpoint is in the quad and the quad has formed; one declared dead is not, until its probe returns and the quad
forms again (R227, R231). -/
def inQuad (s : State) (e : Nat) : Bool :=
  rbit s rFlQuadStatus 0 0 && (match quadPos s e with
    | some i => e == self s || s.fab.probes.contains i
    | none => false)

/-- Base of the 2 MiB a local address lies in. -/
def regionBase (a : Nat) : Nat := a - a % 0x200000

def regionAt (s : State) (a : Nat) : Option RegionR := tget s.fab.regions (regionBase a)

def setRegion (s : State) (a : Nat) (r : RegionR) : State :=
  modFab s fun f => { f with regions := tput f.regions (regionBase a) r }

/-- Directory states (R228). -/
def dUncached : Nat := 0
def dShared : Nat := 1
def dExclusive : Nat := 2
def dOwned : Nat := 3
def dPoisoned : Nat := 4

def dirOf (s : State) (line : Nat) : DirE := tgetD s.fab.dir line ⟨0, [], 0, none, [], []⟩

def setDir (s : State) (line : Nat) (e : DirE) : State := modFab s fun f => { f with dir := tput f.dir line e }

/-- Note a context fault: the end of the command starts the teardown (R313). -/
def ctxFault (s : State) (c cause unit cls addr : Nat) : State :=
  modMt s fun m => { m with faults := m.faults ++ [⟨c, cause, unit, cls, addr⟩] }

/-! ### At the home (R209, R210, R220) -/

/-- What an access is: 0 load, 1 store, 2 atomic, 3 coherence. -/
def accKind (t : Nat) : Nat := if t = ptLoadReq then 0 else if t = ptStore then 1 else if t = ptAtomicReq then 2 else 3

/-- The checks of R210 on a load, store or atomic: status, detail and owner of the first failure. -/
def accessCheck (s : State) (p : Pkt) : Option (Nat × Nat × Nat) :=
  let a := bits p.opWord 43 0
  let k := accKind p.type
  if !inDomain s p.src then some (sOwnershipFault, 4, match regionAt s a with | some r => r.owner | none => 0)
  else match regionAt s a with
    | none => some (sOwnershipFault, 3, 0)
    | some r =>
      if a + p.length > regionBase a + 0x200000 then some (sOwnershipFault, 3, r.owner)
      else if bits p.opWord 55 48 ≠ r.ctx then some (sOwnershipFault, 6, r.owner)
      else if r.mode = 2 then (if inQuad s p.src || p.src == self s then none else some (sOwnershipFault, 4, r.owner))
      else if r.mode = 1 then (if k = 0 then none else some (sOwnershipFault, 2, r.owner))
      else if r.latch = 2 then some (sOwnershipFault, 5, r.owner)
      else if p.src ≠ r.owner then some (sOwnershipFault, 1, r.owner)
      else if bits p.opWord 63 56 ≠ r.epoch % 256 then some (sStaleEpoch, 0, r.owner)
      else none

/-- Counters of refusals at this home (R234). -/
def countRefusal (s : State) (st d : Nat) : State :=
  if st = sStaleEpoch then bump s rFlFaultCnt 0 31 16 1
  else if d = 3 then bump s rFlFaultCnt 0 47 32 1
  else if d = 4 then bump s rFlFaultCnt 0 63 48 1
  else bump s rFlFaultCnt 0 15 0 1

/-- Bytes a line or memory holds now: a home's own COHERENT line may be dirty only in a member's cache. -/
def respType (t : Nat) : Nat := if t = ptLoadReq then ptLoadResp else if t = ptStore ∨ t = ptCoherence then ptStoreResp else ptAtomicResp

/-- Build a response (R216): a LOAD_RESP that is not OK carries all ones, poisoned. -/
def mkResp (s : State) (p : Pkt) (st d owner : Nat) (data : List Byte) (replay : Bool) : Pkt :=
  let ok := st == sOk
  let pay := if p.type = ptStore ∨ p.type = ptCoherence then [] else if ok then data else List.replicate p.length 0xFF
  mkPkt s (respType p.type) p.tc p.src p.qp p.msn 0 p.length 0 0
    (respWord st d owner (p.type == ptLoadReq && !ok) replay) pay

/-- Execute one checked access at its turn: the response, or none when an atomic waits for the result cache (R225). -/
def runAccess (s : State) (p : Pkt) : Option Pkt × State :=
  let a := bits p.opWord 43 0
  let c := (regionAt s a).elim 0 (·.ctx)
  match accessCheck s p with
  | some (st, d, owner) => (some (mkResp s p st d owner [] false), countRefusal s st d)
  | none =>
    if p.type = ptLoadReq then
      (if poisoned s a p.length then (some (mkResp s p sLostState 0 0 [] false), s)
       else (some (mkResp s p sOk 0 0 (rdMem s a p.length) false), touchSpan s c (a, p.length)))
    else if p.type = ptStore then
      (if poisoned s a p.length ∧ ¬(p.length = 64 ∧ a % 64 = 0) then (some (mkResp s p sLostState 0 0 [] false), s)
       else (some (mkResp s p sOk 0 0 [] false), touchSpan (writeClear s a p.payload) c (a, p.payload.length)))
    else match cacheRoom s with
      | none => (none, bump s rFlAtomicCnt 0 63 48 1)
      | some s =>
        let (s, st, res) := runAtomic s c p.src true 0 p.msn (bits p.opWord 46 44) a p.payload
        (some (mkResp s p st 0 0 res false), s)

def accWin (s : State) (src : Nat) : Option AccWin := tget s.fab.accWins src

def setAccWin (s : State) (src : Nat) (w : AccWin) : State := modFab s fun f => { f with accWins := tput f.accWins src w }

/-- The MSN after m in an access sequence (R219). -/
def nextAcc (m : Nat) : Nat := if m = 16777215 then 1 else m + 1

/-- Send a response and log it: the last 256 loads and stores (R220). -/
def answerAcc (s : State) (w : AccWin) (p : Pkt) (r : Pkt) : State :=
  let log := if p.type = ptAtomicReq then w.log else ((p.msn, r) :: w.log).take 256
  let s := setAccWin s p.src { w with expect := nextAcc p.msn, log := log }
  sendPkt s none (bits p.opWord 55 48) r

/-! ### Issuing (R206, R214, R219, R222, R223) -/

def accSeq (s : State) (d : Nat) : AccSeq := tgetD s.fab.accs d ⟨0, [], [], 0⟩

def setAccSeq (s : State) (d : Nat) (a : AccSeq) : State := modFab s fun f => { f with accs := tput f.accs d a }

/-- The outcome word of an access item (R350). -/
def outcomeWord (st d owner : Nat) (poison : Bool) : Nat := st + d * 2 ^ 16 + owner * 2 ^ 24 + b2n poison * 2 ^ 44

/-- Complete an access for its issuer: data and outcome word of an item; OWN_FATAL and DEAD_FATAL (R224). -/
def accDone (s : State) (a : RackAcc) (st d owner : Nat) (data : List Byte) (poison : Bool) : State :=
  let s := match a.from_ with
    | .item _ _ _ la =>
      let put (s : State) (x : Nat) (b : List Byte) : State := touchSpan (wrMem s x b) a.ctx (x, b.length)
      let s := if a.kind = 0 then put s la (if poison then List.replicate a.size 0xFF else data)
        else if a.kind = 2 ∧ st = sOk then put s (la + 16) data else s
      put s (la + 48) (toLE 8 (outcomeWord st d owner poison))
    | _ => s
  let own := (st == sOwnershipFault || st == sStaleEpoch) && rbit s rFlCtx a.ctx 0
  let dead := (st == sTargetDead || st == sAtomicUnknown) && rbit s rFlCtx a.ctx 1
  let s := if st = sAtomicUnknown then bump s rFlAtomicCnt 0 47 32 1 else s
  if a.ctx ≠ 0 ∧ own then ctxFault s a.ctx 0x10 0 0 (a.addr % 2 ^ 44)
  else if a.ctx ≠ 0 ∧ dead then ctxFault s a.ctx 0x11 0 0 (a.addr % 2 ^ 44)
  else s

/-- What R222 reports for an access when its destination is declared dead. -/
def deadStatus (a : RackAcc) : Nat := if a.kind = 2 ∧ a.sends ≠ 0 then sAtomicUnknown else sTargetDead

/-- A quad member is lost: this home's lines at it become POISONED, it leaves every SHARERS mask, and its own lines
cached here are dropped (R231). -/
def quadDead (s : State) (e : Nat) : State :=
  match quadPos s e with
  | none => s
  | some i =>
    let s := modFab s fun f => { f with
      dir := f.dir.map (fun kv => (kv.1,
        let x := kv.2
        let x := if (x.st = dExclusive ∨ x.st = dOwned) ∧ x.owner = i then { x with st := dPoisoned, sharers := [] }
          else { x with sharers := x.sharers.filter (· != i), st := if x.st = dShared ∧ (x.sharers.filter (· != i)).isEmpty then dUncached else x.st }
        { x with acks := x.acks.filter (· != i), wait := x.wait.filter fun p => p.src != e })),
      probes := f.probes.filter (· != i)
      lines := f.lines.filter fun kv => kv.1 / 2 ^ 44 != e }
    let s := wf s rFlQuadStatus 0 (i + 1) (i + 1) 1
    raiseDev s evPredictive 0 0 (i * 2 ^ 32)

/-- Accesses that wait here for a line of a home (R231). -/
def lineWaits (s : State) (d : Nat) : List RackAcc :=
  (s.fab.lines.filter fun kv : Nat × QLine => kv.1 / 2 ^ 44 == d).flatMap (·.2.wait)

/-- Whether a packet of a message has left. -/
def msgSent (s : State) (m : TxMsg) : Bool :=
  s.fab.txs.any fun t => t.qp == some m.qp && t.pkt.msn == m.msn && t.pkt.type != ptReadResp && decide (t.sentAt ≠ 0 ∨ t.st = 2)

/-- What R222 reports of a queue pair's atomic to a dead destination. -/
def atomicLost (s : State) (m : TxMsg) : Nat := if msgSent s m then sAtomicUnknown else sTargetDead

/-- The address a queue pair's atomic names: its offset in the window, at the destination (log entry 125). -/
def atomicAddr (s : State) (m : TxMsg) (d : Nat) : Nat :=
  match (qpOf s m.qp).bind fun q => tget q.wrs m.wrNo with
  | some r => d * 2 ^ 44 + r.wr.offset
  | none => d * 2 ^ 44

/-- Declare a destination dead (R222): every outstanding access completes in MSN order, one TARGET_DEAD event names the
first, the sequence restarts at 0 and the hold of R223 begins. Queue-pair atomics to it have unknown outcomes. -/
def destDead (s : State) (d : Nat) : State :=
  let q := accSeq s d
  let all := q.out ++ q.wait ++ lineWaits s d
  let s := setAccSeq s d ⟨0, [], [], s.now + rf s rFlDeadHold 0 13 0 * 1000000⟩
  let s := ((s.fab.txs.filter fun t => t.qp.isNone && t.pkt.dst == d).map (·.id)).foldl dropTx s
  let s := (all.filter (·.kind != 3)).foldl (fun s a =>
    let s := bump s rFlAccessCnt 0 63 48 1
    accDone s a (deadStatus a) 0 0 [] (a.kind == 0)) s
  let ats := s.fab.msgs.filter fun m => m.kind == 2 && (match qpOf s m.qp with | some x => x.remoteEp == d | none => false)
  let s := match all.find? (fun a => a.kind != 3), ats with
    | some a, _ => raiseCtx s a.ctx evTargetDead (deadStatus a) d a.addr
    | none, m :: _ => (qpOf s m.qp).elim s fun q => raiseCtx s q.ctx evTargetDead (atomicLost s m) d (atomicAddr s m d)
    | none, [] => s
  let s := ats.foldl (fun s m => failMsg s m.qp m.msn (atomicLost s m) 0) s
  let s := quadDead s d
  modFab s fun f => { f with dead := f.dead ++ [d] }

/-- Whether a destination has a port that is up (R191); this controller reaches itself. -/
def reachable (s : State) (d : Nat) : Bool := d == self s || !(portsUp s d).isEmpty

/-- Send one access packet. -/
def sendAcc (s : State) (a : RackAcc) : State := sendPkt s none a.ctx a.pkt

/-- Give an access the next MSN of its destination and send it, or let it wait behind 256 outstanding (R219). -/
def enterSeq (s : State) (d : Nat) (a : RackAcc) (counted : Bool) : State :=
  let q := accSeq s d
  if counted ∧ (q.out.length ≥ 256 ∨ q.wait.isEmpty = false) then setAccSeq s d { q with wait := q.wait ++ [a] }
  else
    let a := { a with msn := q.next, pkt := { a.pkt with msn := q.next }, firstAt := s.now, sentAt := s.now, sends := 0 }
    let s := setAccSeq s d { q with next := nextAcc q.next, out := if counted then q.out ++ [a] else q.out }
    sendAcc (bump s rFlAccessCnt 0 31 0 1) a

/-- Accesses that waited start as outstanding ones complete. -/
def refillSeq (s : State) (d : Nat) : Nat → State
  | 0 => s
  | fuel + 1 =>
    let q := accSeq s d
    match q.wait with
    | [] => s
    | a :: rest =>
      if q.out.length ≥ 256 then s
      else refillSeq (enterSeq (setAccSeq s d { q with wait := rest }) d a true) d fuel

/-- Check of R214. -/
def accFormOk (kind aop size addr : Nat) : Bool :=
  let off := addr % 2 ^ 44
  if kind = 2 then size == atomicSize aop && off % size == 0
  else decide (1 ≤ size ∧ size ≤ 64) && off / 64 == (off + size - 1) / 64

/-- Build a request packet (R215). -/
def accPkt (s : State) (kind aop size addr ctx epoch : Nat) (pay : List Byte) : Pkt :=
  mkPkt s (if kind = 0 then ptLoadReq else if kind = 1 then ptStore else ptAtomicReq) 3 (addr / 2 ^ 44) 0 0 0 size 0 0
    (addr % 2 ^ 44 + (if kind = 2 then aop else 0) * 2 ^ 44 + 2 ^ 47 + ctx * 2 ^ 48 + (epoch % 256) * 2 ^ 56) pay

/-- Issue a checked access (R206, R222, R223): go says how it proceeds to a destination that may be reached. -/
def issueTo (s : State) (a : RackAcc) (go : State → State) : State :=
  let d := a.addr / 2 ^ 44
  if !inDomain s d then accDone s a sOwnershipFault 4 0 [] (a.kind == 0)
  else if !rbit s rFlCtrl 0 0 || decide (s.now < (accSeq s d).deadTo) then
    accDone (bump s rFlAccessCnt 0 63 48 1) a sTargetDead 0 0 [] (a.kind == 0)
  else if !reachable s d then destDead (setAccSeq s d { accSeq s d with wait := (accSeq s d).wait ++ [a] }) d
  else go s

/-! ### Responses and timers (R216, R221, R222, R225) -/

/-- A LOAD_RESP, STORE_RESP or rack ATOMIC_RESP arrives: the access completes, or a PENDING atomic is resent 10 µs
later; TARGET_DEAD declares the destination dead. Unmatched answers are discarded. -/
def respIn (s : State) (p : Pkt) : State :=
  let q := accSeq s p.src
  match q.out.find? fun a => a.msn == p.msn && respType a.pkt.type == p.type with
  | none => bump s rXeRxCnt 0 15 0 1
  | some a =>
    let st := bits p.opWord 15 0
    let s := if p.payload.isEmpty then s else sendPlain s 0 (mkPkt s ptAck 0 p.src 0 p.msn 0 p.payload.length 0 0
      (p.sendTs + p.entropy * 2 ^ 32 + 2 ^ 48) [])
    if st = sPending ∧ a.kind = 2 then
      setAccSeq s p.src { q with out := q.out.map fun x => if x.msn == a.msn then { x with pendAt := some (s.now + 10000) } else x }
    else if st = sTargetDead then destDead s p.src
    else
      let s := ((s.fab.txs.filter fun t => t.qp.isNone && t.pkt.dst == p.src && t.pkt.msn == p.msn && t.pkt.type == a.pkt.type).map (·.id)).foldl dropTx s
      let s := setAccSeq s p.src { q with out := q.out.filter (·.msn != a.msn) }
      let poison := bit p.opWord 44
      let s := accDone s a st (bits p.opWord 23 16) (bits p.opWord 43 24) p.payload poison
      refillSeq s p.src 256

/-- Send the next copy of an outstanding access. -/
def resendAcc (s : State) (d : Nat) (a : RackAcc) (count : Bool) : State :=
  let a := { a with sentAt := s.now, sends := if count then a.sends + 1 else a.sends, pendAt := none,
                    pkt := { a.pkt with retx := true } }
  let q := accSeq s d
  let s := setAccSeq s d { q with out := q.out.map fun x => if x.msn == a.msn then a else x }
  let s := ((s.fab.txs.filter fun t => t.qp.isNone && t.pkt.dst == d && t.pkt.msn == a.msn && t.pkt.type == a.pkt.type).map (·.id)).foldl dropTx s
  sendAcc (bump s rFlAccessCnt 0 47 32 1) a

/-- An unanswered load, store or coherence request: resent every RETRY_US, dead at TIMEOUT_US (R221, R222). -/
def loadStoreTimer (s : State) (d msn : Nat) : State :=
  match (accSeq s d).out.find? fun a => a.msn == msn && a.kind != 2 with
  | none => s
  | some a =>
    if a.sends = 0 then s
    else if s.now ≥ a.firstAt + rf s rFlLoadTimeout 0 10 0 * 1000 then destDead s d
    else if s.now ≥ a.sentAt + rf s rFlLoadTimeout 0 24 16 * 1000 then resendAcc s d a true
    else s

/-- An unanswered atomic: up to RETRIES resends, then dead (R221, R222). -/
def atomicTimer (s : State) (d msn : Nat) : State :=
  match (accSeq s d).out.find? fun a => a.msn == msn && a.kind == 2 with
  | none => s
  | some a =>
    if a.sends = 0 ∨ a.pendAt.isSome ∨ s.now < a.sentAt + rf s rFlAtomicRetry 0 10 0 * 1000 then s
    else if a.sends > rf s rFlAtomicRetry 0 18 16 then destDead s d
    else resendAcc s d a true

/-- Whether a queue pair's atomic has had no answer to its last resend for TIMEOUT_US: R246 leaves atomics to R221 and R222, by which
the remote endpoint is then dead. -/
def atomicOver (s : State) (n msn : Nat) : Option Nat :=
  match s.fab.txs.find? (fun t => t.qp == some n && t.pkt.msn == msn && t.st == 2 && !t.busy && t.pkt.type == ptAtomicReq), qpOf s n with
  | some t, some q =>
    if t.tries ≥ rf s rFlAtomicRetry 0 18 16 ∧ t.sentAt + rf s rFlAtomicRetry 0 10 0 * 1000 ≤ s.now ∧
        (s.fab.msgs.any fun m => m.qp == n && m.msn == msn && m.kind == 2) = true then some q.remoteEp else none
  | _, _ => none

/-- A packet's retransmission timer fires (R246, R222). -/
def retxFire (s : State) (n msn off : Nat) : State :=
  match atomicOver s n msn with
  | some d => destDead s d
  | none => retxTimeout s n msn off

/-- The queue pair's destination has no port that is up (R248): its outstanding messages fail with TARGET_DEAD, an atomic that was sent
with ATOMIC_OUTCOME_UNKNOWN (R222). -/
def qpCut (s : State) (n : Nat) : State :=
  let lost := s.fab.msgs.filter fun m => m.qp == n && m.kind != 4 && msgSent s m
  let s := updQp s n fun q => { q with wrs := q.wrs.map fun kv => (kv.1,
    if kv.2.st = 1 ∧ (lost.any fun m => m.wrNo == kv.1) = true then
      { kv.2 with st := 2, status := if kv.2.wr.opcode = 5 then sAtomicUnknown else sTargetDead, detail := 0 }
    else kv.2) }
  let s := match qpOf s n with
    | some q => bumpWrap s rXeMsgCnt q.xe 63 0 lost.length
    | none => s
  qpError s n sTargetDead

/-- Queue pairs with a message in flight to a destination that no port reaches now, and destinations with such an access. -/
def cutQps (s : State) : List Nat :=
  tkeys s.fab.qps fun q => (q.st == 1 || q.st == 2) && !reachable s q.remoteEp
def cutOff (s : State) : List Nat :=
  (cutQps s).filter fun n => s.fab.msgs.any fun m => m.qp == n && m.kind != 4 && msgSent s m
def cutDests (s : State) : List Nat := tkeys s.fab.accs fun a => a.out.any fun x => x.sends != 0
def cutAccs (s : State) : List Nat := (cutDests s).filter fun d => !reachable s d

/-- The last port of a destination's set has gone down (R222, R248). -/
def cutRun (s : State) : State := (cutOff s).foldl qpCut ((cutAccs s).foldl destDead s)

/-- 10 µs after a PENDING answer the atomic is resent (R225). The same timer serves a queue pair's atomic. -/
def atomicPending (s : State) (d msn : Nat) : State :=
  match (accSeq s d).out.find? fun a => a.msn == msn && a.kind == 2 with
  | none => s
  | some a => match a.pendAt with
    | some t => if s.now < t then s else resendAcc s d a false
    | none => s

/-- Evict results older than 10 ms: they are evictable, oldest first, when room is needed; this drops those past it. -/
def evictAtomics (s : State) : State :=
  modFab s fun f => { f with atomics := f.atomics.filter fun a => decide (s.now ≤ a.at_ + 10000000) }

/-! ### Region commands (R207–R213, R227, R232) -/

/-- COHERENT regions homed here. -/
def coherentCount (s : State) : Nat := tcount s.fab.regions (·.mode == 2)

/-- Lines of a region some member holds, or with a request in progress (R213, R232). -/
def cachedLines (s : State) (base : Nat) : List Nat :=
  (s.fab.dir.filter fun kv => decide (base ≤ kv.1 ∧ kv.1 < base + 0x200000) &&
    (kv.2.st == dShared || kv.2.st == dExclusive || kv.2.st == dOwned || kv.2.busy.isSome)).map (·.1)

/-- POISONED lines of a region, whose memory does not hold what a lost cache held: a region that leaves COHERENT keeps them
uncorrectable (log entry 124). -/
def lostLines (s : State) (base : Nat) : List Nat :=
  (s.fab.dir.filter fun kv => decide (base ≤ kv.1 ∧ kv.1 < base + 0x200000) && kv.2.st == dPoisoned && !s.pg.poison.contains kv.1).map (·.1)

/-- Apply a mode change or destroy once nothing is cached (R213, R232). -/
def regionApply (s : State) (base : Nat) (r : RegionR) (destroy : Bool) (mode : Nat) : State :=
  let s := if destroy ∨ mode = 2 then s else modPg s fun p => { p with poison := p.poison ++ lostLines s base }
  let s := modFab s fun f => { f with dir := f.dir.filter fun kv => !(decide (base ≤ kv.1 ∧ kv.1 < base + 0x200000) && (destroy || mode != 2)) }
  if destroy then
    let s := (List.range 32).foldl (fun s i => dropSystem s (base / frameBytes + i)) s
    modFab s fun f => { f with regions := tdel f.regions base }
  else setRegion s base { r with mode := mode, recallOp := none }

/-- Recall one line for a region leaving COHERENT: INV to sharers, FWD_M to the owner (R232). send says how a
coherence message goes to a quad position. -/
def recallLine (send : State → Nat → Nat → Nat → State) (s : State) (line : Nat) : State :=
  let e := dirOf s line
  if e.busy.isSome then s
  else
    let own := if e.st = dExclusive ∨ e.st = dOwned then [e.owner] else []
    let sh := e.sharers.filter fun i => !own.contains i
    let s := setDir s line { e with busy := some (4, 0), acks := own ++ sh }
    let s := sh.foldl (fun s i => send s i 5 line) s
    own.foldl (fun s i => send s i 7 line) s

end Sys2Proof.Machine
end

