-- ==== Sys2Proof/Machine/Quad.lean ====
section
/-! DEFINITION. The coherent quad (R227–R232) and the arrival of rack accesses at their home (R220). -/
namespace Sys2Proof.Machine

/-- Coherence messages (R229). -/
def cGetS : Nat := 1
def cGetM : Nat := 2
def cPutM : Nat := 3
def cPutClean : Nat := 4
def cInv : Nat := 5
def cFwdS : Nat := 6
def cFwdM : Nat := 7
def cData : Nat := 8
def cAck : Nat := 9

/-- Endpoint of a quad position. -/
def quadEp (s : State) (i : Nat) : Nat := rf s rFlQuad i 19 0
/-- This controller's quad position. -/
def quadSelf (s : State) : Nat := (quadPos s (self s)).getD 0

/-- Send a coherence message of a context about the line at a fabric address. req is the quad position a FWD names, lost
marks a DATA that answers LOST_STATE; size is the access size a GET carries. GET, INV and FWD stay outstanding until their
DATA or ACK, PUT_M and DATA until acknowledged. Nothing is sent to a member in the hold of R223. -/
def cohSendFor (ctx : Nat) (s : State) (pos msg line req size : Nat) (lost : Bool) (data : List Byte) : State :=
  let d := quadEp s pos
  let p := mkPkt s ptCoherence 3 d 0 0 0 size 0 0 (line % 2 ^ 44 + msg * 2 ^ 44 + ctx * 2 ^ 48) data
  if s.now < (accSeq s d).deadTo then s
  else enterSeq s d ⟨0, 3, size, line, 0, .quad line req lost, p, s.now, s.now, 0, none⟩
    (!(msg == cPutClean || msg == cAck))

/-- A coherence message of the home, in its region's context, or of a member that answers one. -/
def cohSend (s : State) (pos msg line req size : Nat) (lost : Bool) (data : List Byte) : State :=
  let ctx := if line / 2 ^ 44 = self s then (match regionAt s (line % 2 ^ 44) with | some r => r.ctx | none => 0) else 0
  cohSendFor ctx s pos msg line req size lost data

/-- A coherence message toward a peer is answered: it is no longer outstanding. -/
def cohDone (s : State) (d line : Nat) (msgs : List Nat) : State :=
  let q := accSeq s d
  let hit (a : RackAcc) : Bool := a.kind == 3 && a.addr == line && msgs.contains (bits a.pkt.opWord 47 44)
  let gone := q.out.filter hit
  let s := setAccSeq s d { q with out := q.out.filter fun a => !hit a }
  let s := gone.foldl (fun s a =>
    ((s.fab.txs.filter fun t => t.qp.isNone && t.pkt.dst == d && t.pkt.msn == a.msn && t.pkt.type == ptCoherence).map (·.id)).foldl dropTx s) s
  refillSeq s d 256

/-- An Ebesh ACK of a PUT_M or DATA: the message is no longer outstanding. -/
def cohAcked (s : State) (p : Pkt) : State :=
  match (accSeq s p.src).out.find? fun a => a.kind == 3 && a.msn == p.msn && [cPutM, cData].contains (bits a.pkt.opWord 47 44) with
  | some a => if p.qp = 0 then cohDone s p.src a.addr [bits a.pkt.opWord 47 44] else s
  | none => s

/-! ### A member's cache (R228, R230) -/

def lineOf (s : State) (line : Nat) : QLine := tgetD s.fab.lines line ⟨0, [], []⟩
def setLine (s : State) (line : Nat) (x : QLine) : State :=
  modFab s fun f => { f with lines := if x.st = 0 ∧ x.wait.isEmpty then tdel f.lines line else tput f.lines line x }

/-- Whether an access hits in a line's state. -/
def lineHit (st kind : Nat) : Bool := if kind = 0 then decide (st ≥ 1) else st == 4

/-- Run an access that hits: bytes of the line, or the line after a store or atomic. -/
def lineRun (x : QLine) (a : RackAcc) : QLine × List Byte :=
  let off := a.addr % 64
  let old := slice x.data off a.size
  if a.kind = 0 then (x, old)
  else
    let new := if a.kind = 1 then some a.pkt.payload else (atomicApply (bits a.pkt.opWord 46 44) old a.pkt.payload).2
    match new with
    | none => (x, old)
    | some b => ({ x with data := x.data.take off ++ b ++ x.data.drop (off + b.length) }, old)

/-- Ask the home for a line. -/
def askLine (s : State) (line : Nat) (a : RackAcc) : State :=
  match quadPos s (line / 2 ^ 44) with
  | some h => cohSendFor a.ctx s h (if a.kind = 0 then cGetS else cGetM) line (quadSelf s) a.size false []
  | none => s

/-- Run the accesses that wait for a line, in order, while they hit; ask again for the first that does not. -/
def lineTurn (s : State) (line : Nat) : Nat → State
  | 0 => s
  | fuel + 1 =>
    let x := lineOf s line
    match x.wait with
    | [] => s
    | a :: rest =>
      if lineHit x.st a.kind then
        let (x, old) := lineRun { x with wait := rest } a
        lineTurn (accDone (setLine s line x) a sOk 0 0 old false) line fuel
      else askLine s line a

/-- Evict a line when the cache is full: dirty lines go back with PUT_M, clean ones with PUT_CLEAN. Which line is open
(log entry 5). -/
def evictLine (s : State) : State :=
  let held := s.fab.lines.filter fun kv => decide (kv.2.st ≠ 0) && kv.2.wait.isEmpty
  if held.length < 262144 then s
  else
    let (w, s) := fresh s
    match held[w.toNat % held.length]? with
    | none => s
    | some (line, x) =>
      let s := modFab s fun f => { f with lines := tdel f.lines line }
      match quadPos s (line / 2 ^ 44) with
      | some h => if x.st ≥ 3 then cohSend s h cPutM line 0 64 false x.data else cohSend s h cPutClean line 0 0 false []
      | none => s

/-- Issue an access to a COHERENT region through the quad cache. -/
def issueQuad (s : State) (a : RackAcc) : State :=
  let line := a.addr - a.addr % 64
  let x := lineOf s line
  let s := setLine s line { x with wait := x.wait ++ [a] }
  if x.wait.isEmpty then lineTurn s line 4096 else s

/-- Issue a rack access: the checks of R214, then the quad cache for a COHERENT region, else the fabric. -/
def issueAccess (s : State) (from_ : AccFrom) (kind aop size addr ctx epoch : Nat) (pay : List Byte) : State :=
  let d := addr / 2 ^ 44
  let mk : RackAcc := ⟨0, kind, size, addr, ctx, from_, accPkt s kind aop size addr ctx epoch pay, s.now, s.now, 0, none⟩
  if !accFormOk kind aop size addr then accDone s mk sInvalidParam 0 0 [] false
  else
    let coh := if d = self s then (match regionAt s (addr % 2 ^ 44) with | some r => r.mode == 2 | none => false)
      else Config.coherentKnown (addr - addr % 0x200000)
    issueTo s mk fun s => if coh && inQuad s d then issueQuad s mk else enterSeq s d mk true

/-! ### The home's directory (R230) -/

/-- A line's memory is read or written for its region's context. -/
def lineTouch (s : State) (a : Nat) : State := touchSpan s ((regionAt s a).elim 0 (·.ctx)) (a, 64)

/-- Send the line from memory. -/
def homeData (s : State) (line pos : Nat) : State :=
  let a := line % 2 ^ 44
  cohSend (lineTouch s a) pos cData line pos 64 false (rdMem s a 64)

/-- Whether a whole-line store asks (its LENGTH is 64): it clears the poison of a POISONED line. -/
def wholeLine (p : Pkt) : Bool := bits p.opWord 47 44 == cGetM && p.length == 64

/-- Handle one request on an idle line (R230). -/
def homeReq (s : State) (p : Pkt) : State :=
  let a := bits p.opWord 43 0
  let line := self s * 2 ^ 44 + a
  let e := dirOf s a
  let msg := bits p.opWord 47 44
  match quadPos s p.src with
  | none => s
  | some r =>
    let bad := match regionAt s a with | some g => g.mode != 2 || bits p.opWord 55 48 != g.ctx | none => true
    if bad then cohSend s r cData line r 64 true (List.replicate 64 0xFF)
    else if (e.st = dPoisoned ∨ poisoned s a 64) ∧ wholeLine p = false then
      cohSend s r cData line r 64 true (List.replicate 64 0xFF)
    else if msg = cGetS then
      if e.st = dUncached then homeData (setDir s a { e with st := dExclusive, owner := r, sharers := [] }) line r
      else if e.st = dShared then homeData (setDir s a { e with sharers := addSorted r e.sharers }) line r
      else cohSend (setDir s a { e with busy := some (1, r), acks := [e.owner] }) e.owner cFwdS line r 0 false []
    else if e.st = dUncached ∨ e.st = dPoisoned then
      let s := modPg s fun g => { g with poison := g.poison.filter (· != a) }
      homeData (setDir s a { e with st := dExclusive, owner := r, sharers := [] }) line r
    else
      let own := if e.st = dShared then [] else [e.owner]
      let inv := e.sharers.filter fun i => i != r && !own.contains i
      let s := setDir s a { e with busy := some (2, r), acks := own ++ inv }
      if own.isEmpty ∧ inv.isEmpty then
        homeData (setDir s a { e with st := dExclusive, owner := r, sharers := [], busy := none, acks := [] }) line r
      else
        let s := inv.foldl (fun s i => cohSend s i cInv line r 0 false []) s
        own.foldl (fun s i => cohSend s i cFwdM line r 0 false []) s

/-- A REGION_MODIFY that waited for its recall completes when nothing of the region is cached (R213, R232). -/
def recallCheck (s : State) (a : Nat) : State :=
  match regionAt s a with
  | none => s
  | some g => match g.recallOp with
    | none => s
    | some (cmd, destroy, mode) =>
      if (cachedLines s (regionBase a)).isEmpty then
        modFab (regionApply s (regionBase a) g destroy mode) fun f => { f with recalled := f.recalled ++ [cmd] }
      else s

/-- The transaction on a line has every ACK: the directory after it, then the next request waiting (R230). -/
def homeFinish (s : State) (a : Nat) : State :=
  let e := dirOf s a
  let line := self s * 2 ^ 44 + a
  match e.busy with
  | none => s
  | some (kind, r) =>
    if !e.acks.isEmpty then s
    else if e.st = dPoisoned then
      let s := setDir s a { e with busy := none, acks := [] }
      if kind = 4 then recallCheck s a else cohSend s r cData line r 64 true (List.replicate 64 0xFF)
    else
      let gone := e.owner == 99
      let shared := e.st == dShared
      let e' := if kind = 1 then
          (if gone then { e with st := if e.sharers.isEmpty then dExclusive else dShared,
                                 owner := if e.sharers.isEmpty then r else 0,
                                 sharers := if e.sharers.isEmpty then [] else addSorted r e.sharers }
           else { e with st := dOwned, sharers := addSorted r e.sharers })
        else if kind = 2 then { e with st := dExclusive, owner := r, sharers := [] }
        else { e with st := dUncached, owner := 0, sharers := [] }
      let s := setDir s a { e' with busy := none, wait := [] }
      let s := if kind ≠ 4 ∧ (gone ∨ shared) then homeData s line r else s
      let recalling := match regionAt s a with | some g => g.recallOp.isSome | none => false
      if kind = 4 then recallCheck s a
      else if recalling then recallLine (fun s i m l => cohSend s i m (self s * 2 ^ 44 + l) (quadSelf s) 0 false []) s a
      else
        match e.wait with
        | [] => s
        | p :: rest => homeReq (setDir s a { dirOf s a with wait := rest }) p

/-- A request waiting behind one that finished at once. -/
def homeNext (s : State) (a : Nat) : Nat → State
  | 0 => s
  | fuel + 1 =>
    let e := dirOf s a
    if e.busy.isSome then s
    else match e.wait with
      | [] => s
      | p :: rest => homeNext (homeReq (setDir s a { e with wait := rest }) p) a fuel

/-- Transactions that waited only on a member declared dead complete (R231). -/
def linesFreed (s : State) : State :=
  ((s.fab.dir.filter fun kv : Nat × DirE => kv.2.busy.isSome && kv.2.acks.isEmpty).map (·.1)).foldl
    (fun s a => homeNext (homeFinish s a) a 4096) s

/-- An ACK for INV or FWD reaches the home (R230). -/
def homeAck (s : State) (a src : Nat) : State :=
  let s := cohDone s src (self s * 2 ^ 44 + a) [cInv, cFwdS, cFwdM]
  match quadPos s src with
  | none => s
  | some i =>
    let e := dirOf s a
    homeNext (homeFinish (setDir s a { e with acks := e.acks.filter (· != i) }) a) a 4096

/-- PUT_M reaches the home: the line is written to memory (R230). -/
def homePutM (s : State) (a src : Nat) (data : List Byte) : State :=
  match quadPos s src with
  | none => s
  | some i =>
    let e := dirOf s a
    if (e.st = dExclusive ∨ e.st = dOwned) ∧ e.owner = i then
      let s := lineTouch (writeClear s a data) a
      if e.busy.isSome then setDir s a { e with owner := 99 }
      else setDir s a { e with st := if e.sharers.isEmpty then dUncached else dShared, owner := 0 }
    else s

/-- PUT_CLEAN reaches the home: the sender leaves (R230). -/
def homePutClean (s : State) (a src : Nat) : State :=
  match quadPos s src with
  | none => s
  | some i =>
    let e := dirOf s a
    let sh := e.sharers.filter (· != i)
    if e.st = dShared then setDir s a { e with sharers := sh, st := if sh.isEmpty then dUncached else dShared }
    else if e.st = dExclusive ∧ e.owner = i then
      (if e.busy.isSome then setDir s a { e with owner := 99 } else setDir s a { e with st := dUncached, owner := 0 })
    else setDir s a { e with sharers := sh }

/-- A GET_S or GET_M reaches the home: it waits while the line has a transaction in progress. -/
def homeGet (s : State) (p : Pkt) : State :=
  let a := bits p.opWord 43 0
  let e := dirOf s a
  if e.busy.isSome then setDir s a { e with wait := e.wait ++ [p] } else homeReq s p

/-! ### A member receives (R230) -/

/-- INV, FWD_S or FWD_M from the home: req is the quad position the line goes to. -/
def memberFwd (s : State) (home a msg req : Nat) : State :=
  let line := home * 2 ^ 44 + a
  let x := lineOf s line
  let s := if msg ≠ cInv ∧ x.st ≠ 0 then cohSend s req cData line req 64 false x.data else s
  let s := setLine s line { x with st := if msg = cFwdS ∧ x.st ≠ 0 then 3 else 0, data := if msg = cFwdS then x.data else [] }
  match quadPos s home with
  | some h => cohSend s h cAck line 0 0 false []
  | none => s

/-- DATA arrives: at a requester the line is held in E or S, or M for a GET_M; LOST_STATE fails the accesses that wait.
At the home of a line being recalled the data goes to memory. -/
def memberData (s : State) (src home a : Nat) (excl lost : Bool) (data : List Byte) : State :=
  let line := home * 2 ^ 44 + a
  let x := lineOf s line
  if home = self s ∧ ((dirOf s a).busy.map (·.1)) = some 4 then lineTouch (writeClear s a data) a
  else
    let wantM := (accSeq s home).out.any fun r => r.kind == 3 && r.addr == line && bits r.pkt.opWord 47 44 == cGetM
    let s := cohDone s home line [cGetS, cGetM]
    if lost then
      match x.wait with
      | [] => s
      | w :: rest => lineTurn (accDone (setLine s line { x with wait := rest }) w sLostState 0 0 [] (w.kind == 0)) line 4096
    else
      let s := evictLine s
      let st := if wantM then 4 else if src ≠ home then 1 else if excl then 2 else 1
      lineTurn (setLine s line { x with st := st, data := data }) line 4096

/-- Deliver one coherence message in its turn. req, excl and lost are what the message tells that R229 places nowhere
in the packet. -/
def cohIn (s : State) (p : Pkt) (req : Nat) (excl lost : Bool) : State :=
  let a := bits p.opWord 43 0
  let msg := bits p.opWord 47 44
  if msg = cGetS ∨ msg = cGetM then homeGet s p
  else if msg = cPutM then homePutM s a p.src p.payload
  else if msg = cPutClean then homePutClean s a p.src
  else if msg = cInv ∨ msg = cFwdS ∨ msg = cFwdM then memberFwd s p.src a msg req
  else if msg = cData then
    let held := s.fab.lines.find? fun kv => decide (kv.1 % 2 ^ 44 = a) && !kv.2.wait.isEmpty
    let home := match held with | some kv => kv.1 / 2 ^ 44 | none => if (regionAt s a).isSome then self s else p.src
    memberData s p.src home a excl lost p.payload
  else homeAck s a p.src

/-! ### Arrival of a rack access (R220) -/

/-- Run the access whose MSN is EXPECT, then those held behind it. -/
def accTurn (s : State) (src : Nat) (arg : CohArg) : Nat → State
  | 0 => s
  | fuel + 1 =>
    match accWin s src with
    | none => s
    | some w => match w.held.find? (·.msn == w.expect) with
      | none => s
      | some p =>
        let rest := w.held.filter (·.msn != p.msn)
        if p.type = ptCoherence then
          let s := setAccWin s src { w with held := rest, expect := nextAcc p.msn }
          accTurn (cohIn s p arg.req arg.excl arg.lost) src arg fuel
        else match runAccess s p with
          | (some r, s) => accTurn (answerAcc s { w with held := rest } p r) src arg fuel
          | (none, s) =>
            sendPkt (setAccWin s src { w with held := rest }) none (bits p.opWord 55 48)
              (mkResp s p sPending 0 0 (List.replicate p.length 0) false)

/-- A rack access or coherence message arrives (R220). serving is false while the Shutter refuses peers (R433): the
answer is TARGET_DEAD, detail 2; while FL_CTRL.ENABLE is 0 it is TARGET_DEAD, detail 1. A coherence message is answered with
a STORE_RESP, the response that carries no data. -/
def accessIn (s : State) (p : Pkt) (serving : Bool) (arg : CohArg) : State :=
  let ack (s : State) : State := if p.payload.isEmpty then s else
    sendPlain s 0 (mkPkt s ptAck 0 p.src 0 p.msn 0 p.payload.length 0 0 (p.sendTs + p.entropy * 2 ^ 32 + 2 ^ 48) [])
  let answer (s : State) (d : Nat) : State :=
    sendPkt (bump s rFlSeqCnt 0 47 32 1) none (bits p.opWord 55 48) (mkResp s p sTargetDead d 0 [] false)
  let dead (s : State) : State := if p.type = ptCoherence then s else answer s 1
  if !serving then answer s 2
  else if !rbit s rFlCtrl 0 0 then dead s
  else
    let fresh0 := p.msn == 0 && !p.retx
    match accWin s p.src with
    | none => if fresh0 then
        accTurn (ack (setAccWin (bump s rFlSeqCnt 0 31 16 1) p.src ⟨0, [p], []⟩)) p.src arg 512
      else dead s
    | some w =>
      if fresh0 then accTurn (ack (setAccWin (bump s rFlSeqCnt 0 31 16 1) p.src ⟨0, [p], []⟩)) p.src arg 512
      else
        let off := (p.msn + 2 ^ 24 - w.expect) % 2 ^ 24
        if off ≤ 255 then
          let held := if w.held.any (·.msn == p.msn) then w.held else w.held ++ [p]
          accTurn (ack (setAccWin s p.src { w with held := held })) p.src arg 512
        else if off < 2 ^ 23 then bump s rFlSeqCnt 0 15 0 1
        else if p.type = ptCoherence then ack s
        else if p.type = ptAtomicReq then
          match cachedAtomic s p.src true 0 p.msn with
          | some a => sendPkt (ack (bump s rFlAtomicCnt 0 31 0 1)) none (bits p.opWord 55 48) (mkResp s p a.status 0 0 a.result true)
          | none => sendPkt (ack (bump s rFlAtomicCnt 0 47 32 1)) none (bits p.opWord 55 48) (mkResp s p sAtomicUnknown 0 0 [] false)
        else match tget w.log p.msn with
          | some r => sendPkt (ack s) none (bits p.opWord 55 48) { r with opWord := r.opWord ||| 2 ^ 45 }
          | none => s

/-! ### Region changes (R209, R213, R232) and quad formation (R227) -/

/-- One probe of a quad member returned within the given round trip and hop count (R227). The quad forms when every
other member has. -/
def quadProbe (s : State) (peer rtt : Nat) (hopSame : Bool) : State :=
  match quadPos s peer with
  | none => s
  | some i =>
    if rbit s rFlCtrl 0 1 = false ∨ rtt > 2000 ∨ hopSame = false ∨ peer = self s then s
    else
      let s := modFab s fun f => { f with probes := addSorted i f.probes }
      let need := (List.range 4).filter fun j => rbit s rFlQuad j 20 && rf s rFlQuad j 19 0 != self s
      if need.isEmpty = false ∧ need.all (s.fab.probes.contains ·) = true ∧ (quadPos s (self s)).isSome then
        wf s rFlQuadStatus 0 0 0 1
      else s

/-- FL_QUAD_STATUS: FORMED, DEAD_MASK, LINES_CACHED, POISONED. -/
def viewQuad (s : State) : Nat :=
  (rdReg s rFlQuadStatus 0 0).toNat % 32 + tcount s.fab.lines (·.st != 0) * 2 ^ 5 + tcount s.fab.dir (·.st == dPoisoned) * 2 ^ 24

/-- FL_REGIONS and FL_ATOMIC_CACHE. -/
def viewRegions (s : State) : Nat := s.fab.regions.length + coherentCount s * 2 ^ 20
def viewAtomicCache (s : State) : Nat := s.fab.atomics.length

end Sys2Proof.Machine
end

