-- ==== Sys2Proof/Machine/Rings.lean ====
section
/-! DEFINITION. Rings, doorbells and event queues (R337–R339, R363, R364), transactions (R356–R358) and the admin
and diagnostic opcodes that act by themselves (R354, R355). -/
namespace Sys2Proof.Machine

/-! ### Rings -/

/-- Whether ring q takes commands: ENABLE set and not stopped (R338, R364). -/
def ringLive (s : State) (q : Nat) : Bool := rbit s rCqCtrl q 0 && !(ring s q).stopped

/-- Stop a ring (R338, R364). -/
def stopRing (s : State) (q : Nat) : State := setRing s q { ring s q with stopped := true }

/-- Whether new index v of a doorbell is valid: not backwards from old, and not more than depth ahead of other
(R338). -/
def doorbellOk (old other depth v : Nat) : Bool :=
  decide (sub32 v old < 2 ^ 31) && (decide (sub32 v other ≤ depth) || decide (2 ^ 31 ≤ sub32 v other))

/-- Write of CQ_DB[q].SQ_TAIL (R338). A ring that takes no commands ignores the write (log entry 8). -/
def sqTailWrite (s : State) (q v : Nat) : State :=
  let r := ring s q
  if !ringLive s q then s
  else if doorbellOk r.sqTail r.sqHead (2 ^ rf s rCqCtrl q 20 16) v then setRing s q { r with sqTail := v % 2 ^ 32 }
  else setRing s q { r with doorbell := true, stopped := true }

/-- Write of CQ_DB[q].CQ_HEAD (R338). -/
def cqHeadWrite (s : State) (q v : Nat) : State :=
  let r := ring s q
  if !ringLive s q then s
  else if doorbellOk r.cqHead r.cqTail (2 ^ rf s rCqCtrl q 28 24) v then setRing s q { r with cqHead := v % 2 ^ 32 }
  else setRing s q { r with doorbell := true, stopped := true }

/-- Completion entries reserved for commands of ring q: two for one with no reply, one after PENDING (R339). -/
def reserved (s : State) (q : Nat) : Nat :=
  (s.host.opens.filter fun o => o.cmd.ring == q && o.gen == (ring s q).gen).foldl
    (fun n o => n + if o.pended then 1 else 2) 0

/-- Whether ring q's next command may be taken (R338, R339): live, an entry available, completion space for two more
than reserved, and, for a FENCE, no earlier command open. -/
def mayTakeCmd (s : State) (q : Nat) (c : Cmd) : Bool :=
  let r := ring s q
  ringLive s q && r.sqHead != r.sqTail &&
    decide (reserved s q + 2 + sub32 r.cqTail r.cqHead ≤ 2 ^ rf s rCqCtrl q 28 24) &&
    (!cFence c || (s.host.opens.filter fun o => o.cmd.ring == q && o.gen == r.gen).isEmpty)

/-- Advance SQ_HEAD past the entry taken. -/
def advanceHead (s : State) (q : Nat) : State :=
  let r := ring s q
  setRing s q { r with sqHead := (r.sqHead + 1) % 2 ^ 32 }

/-- A ring read or write over HP failed (R364): RING_ACCESS, and the ring stops. -/
def ringAccessFailed (s : State) (q : Nat) : State :=
  setRing s q { ring s q with access := true, stopped := true }

/-- Abort the open transactions of a ring without an event (R358). -/
def abortRingTxn (s : State) (q : Nat) : State :=
  modHost s fun h => { h with
    txnEnds := (h.txns.filter (fun kv => kv.2.ring == q && !kv.2.committing)).foldl (fun t kv => tput t kv.1 ⟨q, 2⟩) h.txnEnds,
    txns := h.txns.filter fun kv => kv.2.ring != q || kv.2.committing }

/-- Write of CQ[q]_CTRL (R364). A write that changes CONTEXT while ENABLE is 1, or puts a depth outside 4 to 16, is
refused. Setting ENABLE zeroes the indexes and clears STOPPED; clearing it discards later replies and aborts the
ring's transaction. -/
def cqCtrlWrite (s : State) (q : Nat) (w : Word) : State :=
  let old := rdReg s rCqCtrl q 0
  if (w.toNat &&& definedMask rCqCtrl) ≠ w.toNat ∨
      (wbit old 0 = true ∧ fld w 15 8 ≠ fld old 15 8) ∨
      fld w 20 16 < 4 ∨ fld w 20 16 > 16 ∨ fld w 28 24 < 4 ∨ fld w 28 24 > 16 then rsvdWrite s
  else
    let s := wrReg s rCqCtrl q 0 w
    if wbit w 0 && !wbit old 0 then
      let r := ring s q
      setRing s q { r with gen := r.gen + 1, sqHead := 0, sqTail := 0, cqHead := 0, cqTail := 0, stopped := false }
    else if !wbit w 0 && wbit old 0 then abortRingTxn s q
    else s

/-- CQ[q]_STATUS. -/
def viewCqStatus (s : State) (q : Nat) : Nat := (ring s q).sqHead + (ring s q).cqTail * 2 ^ 32

/-- CQ[q]_ERR. -/
def viewCqErr (s : State) (q : Nat) : Nat :=
  let r := ring s q
  b2n r.doorbell + 2 * b2n r.access + 4 * b2n r.stopped

/-! ### Event queues -/

/-- Write held events while there is room, in order. -/
def drainHeld (s : State) (e : Nat) : List Event → State
  | [] => setEvq s e { evq s e with held := [] }
  | ev :: evs =>
    if evRoom s e then drainHeld (putEvent s e ev) e evs
    else setEvq s e { evq s e with held := ev :: evs }

/-- After the held events, EVENTS_LOST for the events dropped (R363, R362). -/
def reportLost (s : State) (e : Nat) : State :=
  let q := evq s e
  if q.held.isEmpty && q.lostReport != 0 && evRoom s e then
    let n := tgetD s.host.seqnos srcDevice 0
    let s := modHost s fun h => { h with seqnos := tput h.seqnos srcDevice ((n + 1) % 2 ^ 32) }
    let s := setEvq s e { q with lostReport := 0 }
    putEvent s e ⟨srcDevice, n, evEventsLost, 0, 0, e, s.now, q.lostReport⟩
  else s

/-- Space in an event queue returns: the held events and EVENTS_LOST are written (R363). -/
def eqSpace (s : State) (e : Nat) : State := reportLost (drainHeld s e (evq s e).held) e

/-- Write of EQ[e] offset 0 (R364): setting ENABLE zeroes HEAD and TAIL, and so gives space for what was held (log entry 127). -/
def eqCtrlWrite (s : State) (e : Nat) (w : Word) : State :=
  let old := rdReg s rEqCtrl e 0
  if (w.toNat &&& definedMask rEqCtrl) ≠ w.toNat ∨ fld w 5 1 < 4 ∨ fld w 5 1 > 16 then rsvdWrite s
  else
    let s := wrReg s rEqCtrl e 0 w
    if wbit w 0 && !wbit old 0 then eqSpace (setEvq s e { evq s e with head := 0, tail := 0 }) e else s

/-- Write of EQ[e] HEAD (R363): frees space, then the held events and EVENTS_LOST are written. -/
def eqHeadWrite (s : State) (e v : Nat) : State :=
  let s := setEvq s e { evq s e with head := v % 2 ^ 32 }
  if rbit s rEqCtrl e 0 then eqSpace s e else s

/-- EQ[e] offset 0x18: TAIL, HELD, LOST. -/
def viewEqStatus (s : State) (e : Nat) : Nat :=
  (evq s e).tail + (evq s e).held.length * 2 ^ 32 + (evq s e).lost * 2 ^ 48

/-! ### Deferred changes (R345) -/

/-- Accept a change that applies at the next step boundary of its scope. Boundary.settle applies it at once when no
step it concerns is running. -/
def defer (s : State) (sc : Scope) (a : BAct) : State :=
  modHost s fun h => { h with deferred := h.deferred ++ [⟨sc, a⟩] }

/-! ### Transactions -/

/-- Transactions open on the device, commits not yet applied included. -/
def txnsOpen (s : State) : Nat := s.host.txns.length

/-- TXN_BEGIN (R356). -/
def opTxnBegin (id : Nat) (c : Cmd) (s : State) : State :=
  if txnsOpen s ≥ 8 then fail s id sTxnLimit 1
  else if s.host.txns.any fun kv => kv.2.ring == c.ring then fail s id sTxnLimit 2
  else match tfree s.host.txns 1 255 with
    | none => fail s id sTxnLimit 1
    | some t =>
      let s := modHost s fun h => { h with
        txns := tput h.txns t ⟨c.ring, s.now, h.changeCtr, [], false, 0⟩, txnEnds := tdel h.txnEnds t }
      finish s id sOk 0 t 0

/-- TXN_COMMIT (R357): PENDING, acts at the next step boundary of the device, and stops the timeout. PERSIST rides in
the open command's header. -/
def opTxnCommit (id : Nat) (c : Cmd) (s : State) : State :=
  match tget s.host.txns (cTxn c) with
  | some t =>
    if t.ring ≠ c.ring ∨ t.committing then fail s id sInvalidParam 0
    else
      let s := modHost s fun h => { h with txns := tput h.txns (cTxn c) { t with committing := true, commitId := id } }
      defer (pend s id .boundary) .device (.commit (cTxn c))
  | none => match tget s.host.txnEnds (cTxn c) with
    | some e => fail s id (if e.ring ≠ c.ring then sInvalidParam else if e.how = 1 then sTxnTimeout else sTxnAborted) 0
    | none => fail s id sInvalidParam 0

/-- TXN_ABORT (R358). -/
def opTxnAbort (id : Nat) (c : Cmd) (s : State) : State :=
  match tget s.host.txns (cTxn c) with
  | some t =>
    if t.ring ≠ c.ring ∨ t.committing then fail s id sInvalidParam 0
    else finishOk (modHost s fun h => { h with
      txns := tdel h.txns (cTxn c), txnEnds := tput h.txnEnds (cTxn c) ⟨c.ring, 2⟩ }) id
  | none => match tget s.host.txnEnds (cTxn c) with
    | some e => fail s id (if e.ring = c.ring ∧ e.how = 1 then sTxnTimeout else sInvalidParam) 0
    | none => fail s id sInvalidParam 0

/-- A transaction open for TIMEOUT_MS with no TXN_COMMIT taken is aborted (R358). -/
def txnExpire (s : State) (t : Nat) : State :=
  match tget s.host.txns t with
  | some x =>
    if !x.committing && decide (x.opened + rf s rCqTxnCtrl 0 16 0 * 1000000 ≤ s.now) then
      let s := modHost s fun h => { h with txns := tdel h.txns t, txnEnds := tput h.txnEnds t ⟨x.ring, 1⟩ }
      let s := bump s rCqTxnStatus 0 35 20 1
      raiseDev s evTxnExpired sTxnTimeout (t + x.ring * 256) 0
    else s
  | none => s

/-- CQ_TXN_STATUS. -/
def viewTxnStatus (s : State) : Nat :=
  setBits (rdReg s rCqTxnStatus 0 0).toNat 3 0 (txnsOpen s)

/-! ### IDENTIFY, SET_ROLE, SET_MODE, diagnostics -/

/-- A mask of units of a class that are enabled and not offline. -/
def onlineMask (s : State) (ctrl status : RegDesc) (n : Nat) : Nat :=
  (List.range n).foldl (fun m i => if rbit s ctrl i 0 && !rbit s status i 3 then m + 2 ^ i else m) 0

/-- Stacks in service. -/
def stackMask (_ : State) (f : Nat → Bool) : Nat := (List.range 24).foldl (fun m i => if f i then m + 2 ^ i else m) 0

/-- The identify block (R355). -/
def identifyBlock (s : State) : List Byte :=
  let head :=
    toLE 8 (0x4D4C + 0x2400 * 2 ^ 16 + 1 * 2 ^ 32) ++ toLE 8 Config.fwVersion.toNat ++
    toLE 8 (self s + role s * 2 ^ 20 + mode s * 2 ^ 22 + b2n (rbit s rLtCtrl 0 2) * 2 ^ 24 + b2n (shutter s == 2) * 2 ^ 25) ++
    toLE 8 (stackMask s (fun i => rf s rMcStatus i 2 0 == 2 || rf s rMcStatus i 2 0 == 3) +
      stackMask s (fun i => rbit s rMcStatus i 4) * 2 ^ 24) ++
    toLE 8 (onlineMask s rTeCtrl rTeStatus 64) ++ toLE 8 (onlineMask s rXeCtrl rXeStatus 64) ++
    toLE 8 (onlineMask s rTuCtrl rTuStatus 16 + onlineMask s rCuCtrl rCuStatus 24 * 2 ^ 16) ++
    (List.range 21).flatMap (fun n => toLE 8 (rf s rGlD2dStatus n 7 0)) ++
    (List.range 24).flatMap (fun p => toLE 8 (rf s rEpStatus p 3 0)) ++
    toLE 8 (slotsTotal s) ++ toLE 8 (rf s rMtPool 0 43 0)
  slice head 0 4096

/-- IDENTIFY (R355). -/
def opIdentify (id : Nat) (c : Cmd) (s : State) : State :=
  if cKind c 1 = 1 ∧ inAlloc s (cCtx c) c.w1.toNat 4096 = false then fail s id sInvalidParam 0
  else finishOk (cmdWrite s c 1 (identifyBlock s)) id

/-- SET_ROLE (R4, R354): only while the Shutter is closed; at once. DESIGN CHOICE (log entry 121): the value 3 is refused with INVALID_PARAM
before the Shutter is looked at. -/
def opSetRole (id : Nat) (c : Cmd) (s : State) : State :=
  let r := fld c.w1 1 0
  if r = 3 then fail s id sInvalidParam 0
  else if shutter s ≠ 0 then fail s id sRoleLocked 0
  else finishOk (wf s rGlMode 0 3 2 r) id

/-- SET_MODE (R354): applies at the next step boundary, device-wide. -/
def opSetMode (id : Nat) (c : Cmd) (s : State) : State :=
  finishOk (defer s .device (.setMode (fld c.w1 1 0))) id

/-- DIAG_ECHO (R354). -/
def opDiagEcho (id : Nat) (c : Cmd) (s : State) : State := finish s id sOk 0 c.w1.toNat c.w2.toNat

/-- DIAG_FRAME_READ (R354, R23, R43): payload, then trailer, under a read lease; a FREE frame returns a zero payload. -/
def opDiagFrameRead (id : Nat) (c : Cmd) (s : State) : State :=
  let f := fld c.w1 24 0
  if f ≥ numFrames then fail s id sInvalidParam 0
  else
    let pay := if (frame s f).st = .free then List.replicate frameBytes 0 else payload s f
    let s := if canLease s f then unlease (lease s f) f else s
    finishOk (cmdWrite s c 2 (pay ++ trailerBytes (trailer s f))) id

end Sys2Proof.Machine
end

