-- ==== Sys2Proof/Machine/Shares.lean ====
section
/-! DEFINITION. Context records, reservations, shares, staging-SRAM placement, shapers and policers
(R308–R312, R317–R319, R329, R381). Teardown is in Contexts. -/
namespace Sys2Proof.Machine

/-- Share weight of context c in class k: 0 TE, 1 XE, 2 TU, 3 CU (R317). -/
def weight (s : State) (k c : Nat) : Nat := rf s rMtShare c (16 * k + 15) (16 * k)

/-- Sum of a class's weights over ACTIVE contexts, with the weights of one context replaced (R318). -/
def weightSum (s : State) (k c w : Nat) : Nat :=
  ((List.range 256).map fun i =>
    if i = c then w else if ctxState s i = 1 then weight s k i else 0).foldl (· + ·) 0

/-- Whether an assumed fraction F exceeds w ÷ Σw, in integers (R319). -/
def exceeds (f w sum : Nat) : Bool := decide (f * sum > w * 65536)

/-- The fractions a plan assumes, by class. -/
def planFrac (p : Plan) (k : Nat) : Nat := if k = 0 then p.fTe else if k = 1 then p.fXe else if k = 2 then p.fTu else p.fCu

/-- Whether every loaded plan keeps its guarantee when context c has the given weights (R319). -/
def sharesHold (s : State) (c : Nat) (ws : List Nat) : Bool :=
  s.st.plans.all fun kv => (List.range 4).all fun k =>
    let p := kv.2
    let w := if p.ctx = c then ws.getD k 0 else weight s k p.ctx
    !exceeds (planFrac p k) w (weightSum s k c (ws.getD k 0))

/-- MT_POOL at bring-up. -/
def poolFrames (s : State) : Nat := rf s rMtPool 0 24 0
def poolSram (s : State) : Nat := rf s rMtPool 0 43 25

/-- Sum of FRAMES and of SRAM_KIB over non-ABSENT contexts other than c (R310). -/
def framesReserved (s : State) (c : Nat) : Nat :=
  ((List.range 256).map fun i => if i = c ∨ ctxState s i = 0 then 0 else framesAlloc s i).foldl (· + ·) 0
def sramReserved (s : State) (c : Nat) : Nat :=
  ((List.range 256).map fun i => if i = c ∨ ctxState s i = 0 then 0 else rf s rMtAlloc i 43 25).foldl (· + ·) 0

/-! ### Placement in staging SRAM (R381) -/

/-- The context range of a die: base and bytes (R380). -/
def ctxRange (die : Nat) : Nat × Nat := if die = 0 then (0x020002000000, 96 * 2 ^ 20) else (0x020008800000, 120 * 2 ^ 20)

/-- Ranges in use on a die, rising. -/
def sramUsed (s : State) (die : Nat) : List (Nat × Nat) :=
  let (b, n) := ctxRange die
  let all := (List.range 256).flatMap fun c => (ctxSram s c).filter fun r => decide (r.2 ≠ 0 ∧ b ≤ r.1 ∧ r.1 < b + n)
  sortBy (fun a b : Nat × Nat => decide (a.1 ≤ b.1)) all

/-- Holes of a die's context range, rising, as (base, bytes). -/
def sramHoles (s : State) (die : Nat) : List (Nat × Nat) :=
  let (b, n) := ctxRange die
  let r := (sramUsed s die).foldl (fun (acc : List (Nat × Nat) × Nat) u =>
    (if u.1 > acc.2 then acc.1 ++ [(acc.2, u.1 - acc.2)] else acc.1, u.1 + u.2)) ([], b)
  if b + n > r.2 then r.1 ++ [(r.2, b + n - r.2)] else r.1

/-- Lowest hole of a die that can hold n bytes. -/
def sramFit (s : State) (die n : Nat) : Option Nat := ((sramHoles s die).find? fun h => decide (n ≤ h.2)).map (·.1)

/-- Largest hole of a die, lowest address among equals. -/
def sramLargest (s : State) (die : Nat) : Nat × Nat :=
  (sramHoles s die).foldl (fun m h => if h.2 > m.2 then h else m) (0, 0)

/-- Range 0 and range 1 of an allocation of n bytes with a save area: whole on SE0, else on SE1, else split with range 0
the largest hole of SE0, or of SE1, that holds the save area (log entry: DEDUCED). -/
def sramPlace (s : State) (n save : Nat) : Option ((Nat × Nat) × (Nat × Nat)) :=
  match sramFit s 0 n with
  | some a => some ((a, n), (0, 0))
  | none => match sramFit s 1 n with
    | some a => some ((a, n), (0, 0))
    | none =>
      let try_ (d : Nat) : Option ((Nat × Nat) × (Nat × Nat)) :=
        let h := sramLargest s d
        if h.2 < save then none else (sramFit s (1 - d) (n - h.2)).map fun a => (h, (a, n - h.2))
      match try_ 0 with
      | some r => some r
      | none => try_ 1

/-! ### CTX_CREATE, SET_SHARE (R308–R312, R319) -/

/-- Save-area bytes: 416 KiB and 64 times TE_SAVE_KIB (R312). -/
def saveBytes (teSave : Nat) : Nat := (416 + 64 * teSave) * 1024

/-- Weights of a CTX_CREATE or SET_SHARE word. -/
def cmdWeights (w : Word) : List Nat := [fld w 15 0, fld w 31 16, fld w 47 32, fld w 63 48]

/-- Meters and MT[c]_STEP_CNT that CTX_CREATE clears (R314). -/
def clearMeters (s : State) (c : Nat) : State :=
  let s := [rMtTeNs, rMtXeNs, rMtTuNs, rMtCuNs, rMtStackBytes, rMtTier2Bytes, rMtFrameMs, rMtStepCnt].foldl
    (fun s d => resetReg s d c 0) s
  (List.range 8).foldl (fun s k => resetReg (resetReg s rMtFabTx c k) rMtFabRx c k) s

/-- Zero a context's staging SRAM. -/
def zeroSram (s : State) (c : Nat) : State := (ctxSram s c).foldl (fun s r => zeroMem s r.1 r.2) s

/-- Zero the Deadbolt slices granted to a context (R388). -/
def zeroGrants (s : State) (c : Nat) : State :=
  (List.range 16).foldl (fun s g =>
    if rbit s rScDbGrant g 25 && rf s rScDbGrant g 7 0 == c then
      zeroMem s (sramBase 0 + rf s rScDbGrant g 14 8 * 65536) (rf s rScDbGrant g 22 15 * 65536)
    else s) s

/-- Write a context's record and placement, clear its meters and make it ACTIVE. -/
def ctxInstall (s : State) (c : Nat) (k : Cmd) (place : (Nat × Nat) × (Nat × Nat)) : State :=
  let s := wrReg s rMtCtx c 0 (word (1 + b2n (wbit k.w1 8) * 4 + fld k.w3 15 0 * 2 ^ 16 + fld k.w1 32 9 * 2 ^ 32))
  let s := wrReg s rMtShare c 0 k.w2
  let s := wrReg s rMtAlloc c 0 (word (fld k.w3 40 16 + fld k.w4 18 0 * 2 ^ 25 + fld k.w4 27 19 * 2 ^ 44))
  let s := wrReg s rMtSave c 0 (word place.1.1)
  let s := wrReg s rSpCtxSram0 c 0 (word (place.1.1 + (place.1.2 / 1024) * 2 ^ 44))
  let s := wrReg s rSpCtxSram1 c 0 (word (place.2.1 + (place.2.2 / 1024) * 2 ^ 44))
  let s := [rTeNumctl, rTeSrseed, rTeNumstat, rTeSatcnt].foldl (fun s d => resetReg s d c 0) s
  clearMeters (zeroGrants (zeroSram s c) c) c

/-- Checks of CTX_CREATE after the context's state (R309, R310, R312, R319, R381): none and the placement, or the
failure. -/
def ctxCheck (s : State) (c : Nat) (k : Cmd) : (Nat × Nat) ⊕ ((Nat × Nat) × (Nat × Nat)) :=
  let ws := cmdWeights k.w2
  let frames := fld k.w3 40 16
  let sram := fld k.w4 18 0
  let te := fld k.w4 27 19
  if ws.any (· == 0) ∨ fld k.w3 15 0 = 0 ∨ frames = 0 ∨ frames > poolFrames s ∨ sram < 512 ∨ sram > 262144 ∨ te > 256 ∨
      te % 4 ≠ 0 ∨ sram * 1024 < saveBytes te then .inl (sInvalidParam, 0)
  else if framesReserved s c + frames > poolFrames s then .inl (sNoFit, 1)
  else if sramReserved s c + sram > poolSram s then .inl (sNoFit, 2)
  else if !sharesHold s c ws then .inl (sNoFit, 8)
  else match sramPlace s (sram * 1024) (saveBytes te) with
    | none => .inl (sNoFit, 2)
    | some p => .inr p

/-- The check of a context named in an admin command's parameters (R341). -/
def namedCtx (s : State) (x : Nat) : Option (Nat × Nat) :=
  if x = 0 ∨ ctxState s x = 0 then some (sInvalidContext, 0)
  else if ctxState s x = 2 then some (sContextFault, 0) else none

/-- Range check of SET_SHARE: a zero weight is unchanged, so every value is in range. Context 0 and an absent context. -/
def shareCheck (c : Cmd) (s : State) : Option (Nat × Nat) := namedCtx s (fld c.w1 7 0)

/-- Weights a SET_SHARE gives. -/
def shareWeights (s : State) (c : Cmd) : List Nat :=
  (List.range 4).map fun k => let w := (cmdWeights c.w2).getD k 0; if w = 0 then weight s k (fld c.w1 7 0) else w

/-- The state check of SET_SHARE (R319). -/
def shareFits (s : State) (c : Cmd) : Bool := sharesHold s (fld c.w1 7 0) (shareWeights s c)

/-- Put a SET_SHARE in force. -/
def shareApply (s : State) (c : Cmd) : State :=
  let x := fld c.w1 7 0
  let ws := shareWeights s c
  let s := wrReg s rMtShare x 0 (word (ws.getD 0 0 + ws.getD 1 0 * 2 ^ 16 + ws.getD 2 0 * 2 ^ 32 + ws.getD 3 0 * 2 ^ 48))
  let s := if fld c.w3 15 0 = 0 then s else wf s rMtCtx x 31 16 (fld c.w3 15 0)
  touch s (3000 + x)

/-- SET_SHARE outside a transaction: at the next step boundary of the context. -/
def opSetShare (id : Nat) (c : Cmd) (s : State) : State :=
  if shareFits s c = false then fail s id sNoFit 8
  else defer (finishOk s id) (.context (fld c.w1 7 0)) (.setShare c)

/-! ### SET_SHAPER, SET_POLICER (R329) -/

/-- Ports a command names: one, or all for 31. -/
def cmdPorts (c : Cmd) : List Nat := if fld c.w1 4 0 = 31 then List.range 24 else [fld c.w1 4 0]

def rateOk (r b : Nat) : Bool := decide (r ≤ 100000) && (b == 0 || decide (b ≥ 4176))

/-- Range check of SET_SHAPER, its context first (R341). -/
def shaperCheck (c : Cmd) (s : State) : Option (Nat × Nat) :=
  let named := if wbit c.w1 9 then namedCtx s (fld c.w1 17 10) else none
  let port := fld c.w1 4 0
  let k := fld c.w1 7 5
  let q := fld c.w2 17 0
  let strict := wbit c.w2 18
  let rate := fld c.w2 35 19
  let crate := fld c.w3 16 0
  if named.isSome then named
  else if (24 ≤ port ∧ port ≤ 30) ∨
      (wbit c.w1 8 = true ∧ (rateOk rate (fld c.w2 59 36) = false ∨ q < 256 ∨ (strict = true ∧ k ≠ 0 ∧ k ≠ 7) ∨
        (strict = true ∧ rate = 0))) ∨
      (wbit c.w1 9 = true ∧ (rateOk crate (fld c.w3 40 17) = false ∨ fld c.w3 42 41 = 3)) then
    some (sInvalidParam, 0)
  else none

/-- Put a SET_SHAPER in force: registers, bucket contents clipped to the new sizes. -/
def shaperApply (s : State) (c : Cmd) : State :=
  let k := fld c.w1 7 5
  let s := if wbit c.w1 8 then (cmdPorts c).foldl (fun s p =>
      let lvl := (shapeLevel s p k).getD (fld (rdReg s rTsShape p k) 40 17 * 1000)
      let burst := fld c.w2 59 36
      let s := wrReg s rTsQuantum p k (word (fld c.w2 18 0))
      let s := wrReg s rTsShape p k (word (fld c.w2 35 19 + burst * 2 ^ 17))
      let s := modMt s fun m => { m with shape := tput m.shape (shapeKey p k) ⟨Nat.min lvl (burst * 1000), s.now⟩ }
      touch s (1000 + 8 * p + k)) s else s
  if wbit c.w1 9 then
    let x := fld c.w1 17 10
    let lvl := match ctxLevel s x with | some (_, l) => l | none => fld c.w3 40 17 * 1000
    let s := wrReg s rTsCtx x 0 (word (fld c.w3 42 0))
    let s := modMt s fun m => { m with ctxBucket := tput m.ctxBucket x ⟨Nat.min lvl (fld c.w3 40 17 * 1000), s.now⟩ }
    touch s (2000 + x)
  else s

/-- SET_SHAPER outside a transaction: from the next frame. -/
def opSetShaper (id : Nat) (c : Cmd) (s : State) : State := finishOk (shaperApply s c) id

/-- Range check of SET_POLICER. -/
def policerCheck (c : Cmd) (_ : State) : Option (Nat × Nat) :=
  let port := fld c.w1 4 0
  let cir := fld c.w2 16 0
  let cbs := fld c.w2 40 17
  let pir := fld c.w3 16 0
  let pbs := fld c.w3 40 17
  let red := fld c.w4 6 0
  if (24 ≤ port ∧ port ≤ 30) ∨ rateOk cir cbs = false ∨ rateOk pir pbs = false ∨ pir < cir ∨ pbs < cbs ∨
      (red ≠ 0 ∧ (red < 10 ∨ red > 100)) then some (sInvalidParam, 0) else none

/-- Put a SET_POLICER in force. -/
def policerApply (s : State) (c : Cmd) : State :=
  let k := fld c.w1 7 5
  (cmdPorts c).foldl (fun s p =>
    let oc := rdReg s rTsPolC p k
    let op := rdReg s rTsPolP p k
    let tc := refill (tget s.mt.polC (shapeKey p k)) (fld oc 16 0) (fld oc 40 17) s.now
    let tp := refill (tget s.mt.polP (shapeKey p k)) (fld op 16 0) (fld op 40 17) s.now
    let first := !(wbit oc 43)
    let s := wrReg s rTsPolC p k (word (fld c.w2 43 0))
    let s := wrReg s rTsPolP p k (word (fld c.w3 40 0))
    let s := if fld c.w4 6 0 = 0 then s else wf s rTsCtrl p 6 0 (fld c.w4 6 0)
    let cap (l b : Nat) : Nat := if first then b * 1000 else Nat.min l (b * 1000)
    let s := modMt s fun m => { m with
      polC := tput m.polC (shapeKey p k) ⟨cap tc (fld c.w2 40 17), s.now⟩,
      polP := tput m.polP (shapeKey p k) ⟨cap tp (fld c.w3 40 17), s.now⟩ }
    touch s (1000 + 8 * p + k)) s

/-- SET_POLICER outside a transaction. -/
def opSetPolicer (id : Nat) (c : Cmd) (s : State) : State := finishOk (policerApply s c) id

/-! ### SET_TIER_POLICY (R161), SET_POWER_CAP (R3) -/

/-- Range check of SET_POWER_CAP. -/
def capCheck (c : Cmd) (_ : State) : Option (Nat × Nat) :=
  let w := fld c.w1 10 0
  if w = 0 ∨ (400 ≤ w ∧ w ≤ 1100) then none else some (sInvalidParam, 0)

/-- Put a SET_POWER_CAP in force. -/
def capApply (s : State) (c : Cmd) : State := touch (wf s rPmCap 0 10 0 (fld c.w1 10 0)) 0

/-- SET_POWER_CAP outside a transaction. -/
def opSetPowerCap (id : Nat) (c : Cmd) (s : State) : State := finishOk (capApply s c) id

/-- MT[c]_USE: frames charged now, and staging SRAM in use: the save area and resident images' tiles. -/
def sramInUse (s : State) (c : Nat) : Nat :=
  (if ctxState s c = 1 ∧ c ≠ 0 then saveBytes (rf s rMtAlloc c 52 44) else 0) +
    ((s.st.images.filter fun kv => kv.2.ctx == c).map (·.2.sramBytes)).foldl (· + ·) 0

def viewMtUse (s : State) (c : Nat) : Nat := framesUsed s c + cdiv (sramInUse s c) 1024 * 2 ^ 25

end Sys2Proof.Machine
end

