-- ==== Sys2Proof/Machine/CellMsg.lean ====
section
/-! DEFINITION. Messages between controllers: the bodies of CONTROL messages (R275, R276), requests and their answers,
and the firmware's own writes of sequence state (R272), whose contents the manual gives and whose wire form it leaves to
the firmware (assumption log, entry 20). -/
namespace Sys2Proof.Machine

/-! ### Subtypes (R275, R276) -/

def mHingeOffer : Nat := 0x10
def mHingeForward : Nat := 0x11
def mHingeAccept : Nat := 0x12
def mHingeDone : Nat := 0x13
def mHingeReverted : Nat := 0x14
def mEpochNotice : Nat := 0x15
def mEpochAck : Nat := 0x16
def mLeaseRenew : Nat := 0x17
def mLeaseAck : Nat := 0x18
def mLatchQuery : Nat := 0x19
def mLatchReply : Nat := 0x1A
def mOrphanNotice : Nat := 0x1B
def mLatchAssign : Nat := 0x1C
def mHomeMoved : Nat := 0x1D
def mLatchRelease : Nat := 0x1E
def mHingeDecline : Nat := 0x1F
def mAdmitReq : Nat := 0x20
def mAdmitReply : Nat := 0x21
def mSeqRetire : Nat := 0x22
def mJoined : Nat := 0x23
def mLeaving : Nat := 0x24
def mHomeUnreachable : Nat := 0x25
def mMgrAck : Nat := 0x26
def mPromote : Nat := 0x27
def mLogReplicaReq : Nat := 0x28
def mLogReplicaReply : Nat := 0x29
def mMirrorReq : Nat := 0x2A
def mMirrorReply : Nat := 0x2B
def mHomeLookup : Nat := 0x2C
def mHomeLookupReply : Nat := 0x2D
def mProbe : Nat := 0x2E
def mProbeAck : Nat := 0x2F
def mSpillReq : Nat := 0x30
def mSpillReport : Nat := 0x31
def mPrefetchReq : Nat := 0x32
def mPrefetchReport : Nat := 0x33
def mRefInc : Nat := 0x34
def mRefDec : Nat := 0x35
def mRefAck : Nat := 0x36
def mRefDrop : Nat := 0x37
def mStripeReplace : Nat := 0x38
def mStripeReply : Nat := 0x39

/-! ### Latch messages (R275) -/

/-- Body of a Latch message: 64 B, and for HINGE_FORWARD of a sequence the descriptor and choice copies. -/
def encodeL (m : LMsg) : List Byte :=
  toLE 8 (m.sub + b2n m.obj.region * 2 ^ 8 + m.status * 2 ^ 16) ++
  toLE 8 (if m.obj.region then m.obj.id % 2 ^ 44 else m.obj.id % 2 ^ 32) ++
  toLE 8 (m.epoch % 2 ^ 32 + m.owner * 2 ^ 32 + m.st * 2 ^ 52 + b2n m.accepted * 2 ^ 54) ++
  toLE 8 (m.offerer + m.receiver * 2 ^ 20) ++ toLE 8 m.hingeId ++ List.replicate 24 0 ++ m.body

/-- Read a Latch message whose object, when a region, is homed at the given endpoint: none for a bad message (an
unlisted subtype, a nonzero reserved field or a wrong length). -/
def decodeL (home : Nat) (b : List Byte) : Option LMsg :=
  let w0 := w64At b 0
  let w1 := w64At b 8
  let w2 := w64At b 0x10
  let w3 := w64At b 0x18
  let sub := bits w0 7 0
  let region := bit w0 8
  let len := if sub = mHingeForward ∧ region = false then 352 else 64
  if b.length ≠ len ∨ sub < 0x10 ∨ sub > 0x1F ∨ bits w0 15 9 ≠ 0 ∨ bits w0 63 32 ≠ 0 ∨
      (if region then bits w1 63 44 ≠ 0 else bits w1 63 32 ≠ 0) ∨ bits w2 63 55 ≠ 0 ∨ bits w3 63 40 ≠ 0 ∨
      ((b.drop 0x28).take 24).any (· != 0) then none
  else some ⟨sub, bits w0 31 16, ⟨region, if region then home * 2 ^ 44 + w1 else w1⟩, bits w2 31 0, bits w2 51 32,
    bits w2 53 52, bit w2 54, bits w3 19 0, bits w3 39 20, w64At b 0x20, b.drop 64⟩

/-- A Latch message with everything but its object and epoch zero. -/
def lmsg (sub : Nat) (obj : Obj) (epoch : Nat) : LMsg := ⟨sub, 0, obj, epoch, 0, 0, false, 0, 0, 0, []⟩

/-- Send a Latch message on TC2 (R275). -/
def sendL (s : State) (dst : Nat) (m : LMsg) : State :=
  fwSend s dst ptControl 2 (.latch m) (encodeL m) .plain

/-! ### Cell, page and rebuild messages (R276) -/

/-- Class, whether OBJECT may be nonzero, and the bits of the words at 0x10, 0x18 and 0x20 each subtype uses. -/
def cInfo : Nat → Option (Nat × Bool × Nat × Nat × Nat)
  | 0x20 => some (0, false, 0xFFFFFFFF000001FF, 0, 0)
  | 0x21 => some (0, true, ones 52, ones 64, 0)
  | 0x22 => some (0, true, 0, 0, 0)
  | 0x23 => some (0, false, 3, 0, 0)
  | 0x24 => some (0, false, 3, 0, 0)
  | 0x25 => some (0, true, ones 20, 0, 0)
  | 0x26 => some (0, true, 0, 0, 0)
  | 0x27 => some (2, false, ones 20, 0, 0)
  | 0x28 => some (0, true, ones 20, 0, 0)
  | 0x29 => some (0, true, ones 20, 0, 0)
  | 0x2A => some (2, true, ones 20, 0, 0)
  | 0x2B => some (2, true, ones 20, 0, 0)
  | 0x2C => some (0, true, 0, 0, 0)
  | 0x2D => some (0, true, ones 20, 0, 0)
  | 0x2E => some (0, false, 0, 0, 0)
  | 0x2F => some (0, false, 0, 0, 0)
  | 0x30 => some (5, true, ones 9, 0, 0)
  | 0x31 => some (5, true, ones 64, 0, 0)
  | 0x32 => some (5, true, ones 10, 0, 0)
  | 0x33 => some (5, true, ones 32, 0, 0)
  | 0x34 => some (0, true, ones 32, ones 23, 0)
  | 0x35 => some (0, true, 0, 0, 0)
  | 0x36 => some (0, true, ones 32, 0, 0)
  | 0x37 => some (0, true, ones 64, 0, 0)
  | 0x38 => some (6, true, ones 36, ones 64, ones 64)
  | 0x39 => some (6, true, 0, 0, 0)
  | _ => none

/-- Body of a cell message: a 64 B header. -/
def encodeC (m : CMsg) : List Byte :=
  toLE 8 (m.sub + m.status * 2 ^ 16 + (m.req % 2 ^ 32) * 2 ^ 32) ++ toLE 8 m.obj ++ toLE 8 m.a ++ toLE 8 m.b ++ toLE 8 m.c ++
    List.replicate 24 0

/-- Read a cell message: none for a bad one. -/
def decodeC (b : List Byte) : Option CMsg :=
  let w0 := w64At b 0
  match cInfo (bits w0 7 0) with
  | none => none
  | some (_, o, ma, mb, mc) =>
    let obj := w64At b 8
    let x := w64At b 0x10
    let y := w64At b 0x18
    let z := w64At b 0x20
    if b.length ≠ 64 ∨ bits w0 15 8 ≠ 0 ∨ bits obj 63 32 ≠ 0 ∨ (o = false ∧ obj ≠ 0) ∨ x &&& ma ≠ x ∨ y &&& mb ≠ y ∨
        z &&& mc ≠ z ∨ ((b.drop 0x28).take 24).any (· != 0) then none
    else some ⟨bits w0 7 0, bits w0 31 16, bits w0 63 32, obj, x, y, z⟩

/-- Class of a cell message. -/
def cClass (sub : Nat) : Nat := match cInfo sub with | some (c, _) => c | none => 0

/-- A cell message with its class, ready to send. -/
def outC (dst : Nat) (m : CMsg) : OutMsg := ⟨dst, ptControl, cClass m.sub, (.cell m), encodeC m⟩

def sendOut (s : State) (o : OutMsg) : State := fwSend s o.dst o.type o.tc o.ctl o.payload .plain

/-- Send a cell message that needs no answer, or is one. -/
def sendC (s : State) (dst : Nat) (m : CMsg) : State := sendOut s (outC dst m)

/-- Send a request (R276): it gets a new REQ_ID and is recorded until answered or unanswered. -/
def askC (s : State) (dst sub obj a b c : Nat) (use : ReqUse) : Nat × State :=
  let id := s.ce.reqCtr
  let fw := s.fab.fwCtr
  let s := modCe s fun x => { x with reqCtr := (id + 1) % 2 ^ 32, reqs := tput x.reqs id ⟨dst, sub, obj, a, fw, s.now, use⟩ }
  (id, sendC s dst ⟨sub, 0, id, obj, a, b, c⟩)

/-! ### The firmware's own messages -/

/-- Bytes of a firmware message: a header of 64 B whose contents are free values (log entry 20), then its data. -/
def ownBytes (s : State) (body : List Byte) : List Byte × State :=
  ((List.range 8).flatMap (fun i => toLE 8 (Config.freeValue (s.freeCtr + i)).toNat) ++ body,
    { s with freeCtr := s.freeCtr + 8 })

/-- The data a firmware message carries after its header. -/
def ownBody : XMsg → List Byte
  | .shard _ _ p => p.bytes ++ List.replicate 256 0
  | .mirror _ _ w => w.rows.flatMap fun r => r.elems ++ r.scales
  | .log _ _ _ _ _ es => es.flatMap (toLE 4)
  | .home _ _ _ (.desc b _) => b
  | .create _ _ _ _ _ _ b => b
  | _ => []

/-- A firmware message ready to send on a class. -/
def outX (s : State) (dst tc : Nat) (m : XMsg) : OutMsg × State :=
  let (b, s) := ownBytes s (ownBody m)
  (⟨dst, ptControl, tc, .own m, b⟩, s)

def sendX (s : State) (dst tc : Nat) (m : XMsg) : State :=
  let (o, s) := outX s dst tc m
  sendOut s o

/-- Send a firmware request that is answered; mk makes the message from its request number. -/
def askX (s : State) (dst tc obj : Nat) (mk : Nat → XMsg) (use : ReqUse) : Nat × State :=
  let id := s.ce.reqCtr
  let s := modCe s fun x => { x with
    reqCtr := (id + 1) % 2 ^ 32, reqs := tput x.reqs id ⟨dst, 0, obj, 0, s.fab.fwCtr, s.now, use⟩ }
  (id, sendX s dst tc (mk id))

/-- An answer to a firmware request. -/
def answerX (s : State) (dst tc req status : Nat) (vals : List Nat) : State := sendX s dst tc (.answer req status vals)

/-- Ask several endpoints; the request numbers. -/
def askAll (s : State) (tc obj : Nat) (mk : Nat → XMsg) (use : ReqUse) : List Nat → List Nat × State
  | [] => ([], s)
  | d :: ds =>
    let (i, s) := askX s d tc obj mk use
    let (rest, s) := askAll s tc obj mk use ds
    (i :: rest, s)

/-- Hold a message until the requests are answered; with none, send it now. -/
def gateOn (s : State) (waiting : List Nat) (out : OutMsg) : State :=
  if waiting.isEmpty then sendOut s out
  else
    let g := s.ce.jobCtr
    let s := modCe s fun x => { x with jobCtr := g + 1, gates := tput x.gates g ⟨waiting, out⟩ }
    waiting.foldl (fun s i => modCe s fun x => { x with reqs := tmod x.reqs i fun r => { r with use := .gate g } }) s

/-- One request of a gate is answered, or goes unanswered: the last one lets the message go. -/
def gateStep (s : State) (g req : Nat) : State :=
  match tget s.ce.gates g with
  | none => s
  | some x =>
    let w := x.waiting.filter (· != req)
    if w.isEmpty then sendOut (modCe s fun c => { c with gates := tdel c.gates g }) x.out
    else modCe s fun c => { c with gates := tput c.gates g { x with waiting := w } }

/-! ### Registers of the cell (R307) -/

/-- The cell manager's endpoint. -/
def mgrEp (s : State) : Nat := rf s rLtMgrEp 0 19 0
/-- Whether this controller is the cell manager. -/
def isMgr (s : State) : Bool := rbit s rLtCtrl 0 2
def leaseNs (s : State) : Nat := rf s rLtLease 0 31 16 * 1000000
def renewNs (s : State) : Nat := rf s rLtLease 0 15 0 * 1000000
def homeDeadNs (s : State) : Nat := rf s rLtLease 0 47 32 * 1000000
/-- A bad message is dropped and counted (R275, R276). -/
def badMsg (s : State) : State := bump s rLtFenceCnt 0 63 48 1

/-- Whether the Shutter lets this controller serve its peers (R433, R434 step 6). -/
def serving (s : State) : Bool := shutter s == 2 || (shutter s == 1 && decide (s.gl.close.step < 6))

/-! ### Sequences held here -/

def seqOf (s : State) (q : Nat) : Option Seq := tget s.pg.seqs q
def setSeq (s : State) (q : Nat) (x : Seq) : State := modPg s fun p => { p with seqs := tput p.seqs q x }
def updSeq (s : State) (q : Nat) (f : Seq → Seq) : State := modPg s fun p => { p with seqs := tmod p.seqs q f }

/-- Raise the highest epoch seen of a sequence (R272). -/
def raiseSeen (s : State) (q epoch : Nat) : State :=
  modCe s fun c => { c with seen := tput c.seen q (Nat.max epoch (tgetD c.seen q 0)) }

/-- Whether a receiver other than the home applies a write at an epoch, and the state after (R272). -/
def fence (s : State) (q epoch : Nat) : Bool × State :=
  if epoch < tgetD s.ce.seen q 0 then (false, bump s rLtFenceCnt 0 31 0 1) else (true, raiseSeen s q epoch)

/-! ### Health (R302, R303) -/

/-- Health of a part: 0 for a stack OUT_OF_SERVICE and a port FAILED (R302, R303). -/
def healthOf (s : State) (n : Nat) : Nat :=
  if n < 24 ∧ stackDead s n then 0
  else if 24 ≤ n ∧ n < 48 ∧ rf s rEpStatus (n - 24) 1 0 = 3 then 0
  else 65535 - tgetD s.ce.penalty n 0

/-- Judge a part's LEVEL again; a fall below a threshold raises PREDICTIVE with the lanes or unit given (R303, R362). -/
def healthNote (s : State) (n extra : Nat) : State :=
  let h := healthOf s n
  let warn := rf s rHlThresh 0 15 0
  let crit := rf s rHlThresh 0 31 16
  let hyst := rf s rHlThresh 0 47 32
  let cur := rf s rHlScore n 17 16
  let lvl :=
    if h < crit then 2
    else if cur = 2 ∧ h ≤ crit + hyst then 2
    else if h < warn then 1
    else if cur ≥ 1 ∧ h ≤ warn + hyst then 1
    else 0
  let s := if lvl = cur then s else raiseEdge (wf s rHlScore n 17 16 lvl) irqHealth
  if lvl > cur then raiseDev s evPredictive 0 n (h + lvl * 2 ^ 16 + extra * 2 ^ 32) else s

/-- A part's health penalty grows (R302). -/
def penalise_ (s : State) (part n : Nat) : State :=
  healthNote (modCe s fun c => { c with penalty := tput c.penalty part (tgetD c.penalty part 0 + n) }) part 0

/-- HEALTH_DECAY (R303): every penalty is multiplied by 0.957603, truncating, and every part judged again. -/
def healthDecay (s : State) : State :=
  if s.now < s.ce.decayAt + rf s rHlCtrl 0 15 0 * 225000000000 then s
  else
  let s := modCe s fun c => { c with
    decayAt := s.now, penalty := c.penalty.map fun x => (x.1, x.2 * 957603 / 1000000) }
  (List.range 60).foldl (fun s n => healthNote s n 0) s

end Sys2Proof.Machine
end

