-- ==== Sys2Proof/Machine/Flash.lean ====
section
/-! DEFINITION. Configuration flash under the hold-up check (R416, R417) and the journal in the Sill (R297–R301). -/
namespace Sys2Proof.Machine

def modFlash (s : State) (f : FlashS → FlashS) : State := modGl s fun g => { g with flash := f g.flash }

/-- 16 times the bank voltage V in mV (R416). -/
def bank16 (s : State) : Nat :=
  match rf s rPmHoldupCfg 0 1 0 with
  | 0 => s.gl.flash.sense * rf s rPmHoldupCfg 0 45 38
  | 1 => tgetD s.gl.flash.vcap (rf s rPmHoldupCfg 0 5 2) 0 * 16
  | _ => 0

/-- Hold-up energy E in mJ, truncated (R416). -/
def holdupEnergy (s : State) : Nat :=
  let v := bank16 s
  let m := rf s rPmHoldupCfg 0 37 22 * 16
  if v > m then rf s rPmHoldupCfg 0 21 6 * (v * v - m * m) / 512000000 else 0

/-- Report the latest E and sample the source that is asserted while it is below REQ_MJ (R416, R365). -/
def holdupNote (s : State) : State :=
  let e := holdupEnergy s
  let low := decide (e < rf s rPmHoldupReq 0 15 0)
  let s := wf (wf s rPmHoldupStatus 0 15 0 (sat 16 e)) rPmHoldupStatus 0 16 16 (b2n (!low))
  setLevel s irqHoldup low

/-- Whether the hold-up check passes now. -/
def holdupOk (s : State) : Bool := decide (rf s rPmHoldupReq 0 15 0 ≤ holdupEnergy s)

/-- A write refused by the check is counted (R417). -/
def holdupRefused (s : State) : State := bump s rPmHoldupStatus 0 47 32 1

/-- SC_LC_STATUS after a GO: status and detail, BUSY clear (R393). -/
def lcAnswer (s : State) (st d : Nat) : State :=
  wf (wf (wf s rScLcStatus 0 0 0 0) rScLcStatus 0 47 32 st) rScLcStatus 0 23 16 d

/-- The Deadbolt is wiped (R389): its 8 MiB are zero, and the keys it held are gone. -/
def dbWipe (s : State) : State :=
  let s := zeroMem s (sramBase 0) 0x800000
  let s := modFab s fun f => { f with keys := { keys := [], newest := none, newSeen := none, seenPhase := none } }
  wf s rScKeyStatus 0 17 16 0

/-- Every SPDM session is closed (R390, R393). -/
def closeSessions (s : State) : State :=
  wf (modGl s fun g => { g with sec := { g.sec with sessions := [] } }) rScSpdmCnt 0 2 0 0

/-- What a refused write leaves behind (R417). -/
def flashRefused (s : State) : FlashItem → State
  | .boot _ => bump s rJrCkptCnt 0 31 16 1
  | .started _ _ => bump s rJrCkptCnt 0 31 16 1
  | .ended _ _ => bump s rJrCkptCnt 0 31 16 1
  | .txn _ _ _ => bump s rJrCkptCnt 0 31 16 1
  | .repair st row => modFlash s fun f =>
    { f with retry := f.retry ++ [(st, row)], retryAt := if f.retry.isEmpty then s.now else f.retryAt }
  | .lifecycle _ _ => lcAnswer s sHoldup 0
  | .wear _ _ => s
  | .svn _ => s
  | .trip _ _ _ => s
  | .holdup _ _ => s

/-- What a completed write leaves in flash. -/
def flashStored (s : State) : FlashItem → State
  | .boot n => bump (modFlash s fun f => { f with boot := n }) rJrCkptCnt 0 15 0 1
  | .started op r => bump (modFlash s fun f => { f with jr := tput f.jr op r }) rJrCkptCnt 0 15 0 1
  | .ended op r => bump (modFlash s fun f => { f with jr := tput f.jr op r }) rJrCkptCnt 0 15 0 1
  | .txn op r cs => bump (modFlash s fun f => { f with jr := tput f.jr op r, txns := f.txns ++ [(op, cs)] }) rJrCkptCnt 0 15 0 1
  | .repair st row => bump (modFlash s fun f => { f with repairs := f.repairs ++ [(st, row)] }) rMcRepair st 15 0 1
  | .lifecycle _ _ => s
  | .wear l n => modFlash s fun f => { f with wear := (l, n) }
  | .svn n => wf s rScLc 0 15 8 n
  | .trip d n t => modFlash s fun f => { f with trip := some (d, n, t) }
  | .holdup r c => modFlash s fun f => { f with holdup := some (r, c) }

/-- Start a write with its own hold-up sample (R416, R418), the latest reading of the bank. A lifecycle transition that
passes wipes the Deadbolt and closes every session before it burns (R393 step 1). -/
def flashStart (s : State) (i : FlashItem) : State :=
  let s := holdupNote s
  if holdupOk s then
    let s := match i with
      | .lifecycle _ _ => closeSessions (dbWipe s)
      | _ => s
    modFlash s fun f => { f with busy := some i }
  else flashRefused (holdupRefused s) i

/-- A write that is due: it starts with its own sample, or waits for the one running (R418). -/
def flashDue (s : State) (i : FlashItem) : State :=
  if s.gl.flash.busy.isSome then modFlash s fun f => { f with queue := f.queue ++ [i] } else flashStart s i

/-- Start the writes that wait, oldest first, until one is running. -/
def flashNext (s : State) : Nat → State
  | 0 => s
  | n + 1 =>
    if s.gl.flash.busy.isSome then s
    else match s.gl.flash.queue with
      | [] => s
      | i :: q => flashNext (flashStart (modFlash s fun f => { f with queue := q }) i) n

/-- FLASH_WRITE_DONE (R418): the write running completes, and the next that was due starts with its own sample. Answers
what was written. -/
def flashDone (s : State) : Option FlashItem × State :=
  match s.gl.flash.busy with
  | none => (none, s)
  | some i =>
    let s := flashStored (modFlash s fun f => { f with busy := none }) i
    (some i, flashNext s (s.gl.flash.queue.length + 1))

/-- REPAIR_RECORD_RETRY (R417): once a minute the refused row repairs are tried again. -/
def repairRetry (s : State) : State :=
  if s.now < s.gl.flash.retryAt + 60000000000 then s
  else
  let l := s.gl.flash.retry
  l.foldl (fun s x => flashDue s (.repair x.1 x.2)) (modFlash s fun f => { f with retry := [], retryAt := s.now })

/-! ### The journal -/

def jrRebuild : Nat := 1
def jrMigrate : Nat := 2
def jrImage : Nat := 3
def jrTxn : Nat := 4

/-- Whether a new operation has slots for its two records (R297). -/
def jrRoom (s : State) : Bool := decide (2 * s.ce.jr.length + 2 ≤ 16320)

/-- The live operation started for w. -/
def jrFind (s : State) (w : JrWait) : Option Nat := (s.ce.jrOps.find? fun x => x.2 == w).map (·.1)

/-- Start a journaled operation (R297, R298): its OP_ID, or none when no slot is free and it waits. -/
def jrStart (s : State) (kind obj aux : Nat) (w : JrWait) : Option Nat × State :=
  if jrRoom s then
    let op := s.ce.boot * 2 ^ 32 + s.ce.nextOp
    let r : JrRec := ⟨kind, 1, obj, 0, aux, s.now, s.now, 0, true, 0⟩
    let s := modCe s fun c => { c with
      nextOp := c.nextOp + 1, jr := tput c.jr op r, jrOps := tput c.jrOps op w }
    (some op, if kind = jrRebuild then flashDue s (.started op r) else s)
  else (none, modCe s fun c => { c with jrWaits := c.jrWaits ++ [w] })

/-- Append a record: a new phase or progress. -/
def jrPhase (s : State) (op phase progress : Nat) : State :=
  modCe s fun c => { c with
    jr := tmod c.jr op fun r => { r with phase := phase, progress := progress, update := s.now } }

/-- End an operation with its final status; REBUILD and IMG_INSTALL ends are checkpointed (R300). -/
def jrEnd (s : State) (op phase status : Nat) : State :=
  match tget s.ce.jr op with
  | none => s
  | some r =>
    let r := { r with phase := phase, status := status, live := false, update := s.now, finished := s.now }
    let s := modCe s fun c => { c with jr := tput c.jr op r, jrOps := tdel c.jrOps op }
    if r.kind = jrRebuild ∨ r.kind = jrImage then flashDue s (.ended op r) else s

/-- Drop the finished operations whose records are reusable: 60 s after the finish (R297). -/
def jrReuse (s : State) : State :=
  modCe s fun c => { c with
    jr := c.jr.filter fun x => x.2.live || decide (s.now < x.2.finished + 60000000000) }

/-- JR_QUERY (R301): KIND, PHASE, OUTCOME, STATUS of the operation JR_QUERY_ID names. -/
def viewJrQuery (s : State) : Nat :=
  let id := rf s rJrQueryId 0 47 0
  let word (r : Option JrRec) (o : Nat) : Nat := match r with
    | some r => r.kind + r.phase * 2 ^ 8 + o * 2 ^ 12 + (if o = 1 then r.status * 2 ^ 14 else 0)
    | none => o * 2 ^ 12
  if id / 2 ^ 32 = s.ce.boot then
    match tget s.ce.jr id with
    | some r => word (some r) (if r.live then 0 else 1)
    | none => word none 3
  else if id / 2 ^ 32 < s.ce.boot then
    match tget s.gl.flash.jr id with
    | some r => word (some r) (if r.live then 2 else 1)
    | none => word none 2
  else word none 3

/-- JR_STATUS: LIVE_OPS and BOOT beside what the last reset left. -/
def viewJrStatus (s : State) : Nat :=
  let w := rdReg s rJrStatus 0 0
  setBits (setBits w.toNat 13 0 (tcount s.ce.jr (·.live))) 45 30 s.ce.boot

/-- HL_SCORE of a part. -/
def viewHlScore (s : State) (n : Nat) : Nat := healthOf s n + rf s rHlScore n 17 16 * 2 ^ 16

end Sys2Proof.Machine
end

