-- ==== Sys2Proof/Machine/Security.lean ====
section
/-! DEFINITION. Tamper detectors, lifecycle transitions, the SPDM responder and link keys (R388–R397), and the BAR2
apertures (R383–R385). -/
namespace Sys2Proof.Machine

def modSec (s : State) (f : SecS → SecS) : State := modGl s fun g => { g with sec := f g.sec }

/-! ### Tamper (R390) -/

/-- SC_TAMPER.ACTIVE follows the conditions that hold. -/
def tamperActive (s : State) : State :=
  wf s rScTamper 0 11 8 (s.gl.sec.conditions.foldl (fun a d => a ||| 2 ^ d) 0)

/-- A condition begins. An enabled detector trips: it is latched and counted, the Deadbolt wiped, both link-key phases
and every session cleared. Answers whether the trip asks for a warm reset: RESET_ON, and not latched before. -/
def tamperTrip (s : State) (d : Nat) : Bool × State :=
  let s := tamperActive (modSec s fun x => { x with conditions := addSorted d x.conditions })
  if rbit s rScTamperCtrl 0 d then
    let was := rbit s rScTamper 0 d
    let s := wrReg s rScTamper 0 0 (word ((rdReg s rScTamper 0 0).toNat ||| 2 ^ d))
    let s := closeSessions (dbWipe (bump s rScTamper 0 31 16 1))
    let s := modSec s fun x => { x with deadbolt := false }
    (rbit s rScTamperCtrl 0 (4 + d) && !was, s)
  else (false, s)

/-- While the Deadbolt is out of use it stays zero: what a context wrote to a slice of it is discarded (R390). -/
def deadboltShut (s : State) : State := if s.gl.sec.deadbolt then s else dbWipe s

/-- The Deadbolt returns to use once no enabled detector's condition holds and no bit is latched, and the identity key is
derived again. -/
def tamperSettle (s : State) : State :=
  let holds := s.gl.sec.conditions.any fun d => rbit s rScTamperCtrl 0 d
  if !s.gl.sec.deadbolt && !holds && rf s rScTamper 0 3 0 == 0 then
    modSec s fun x => { x with deadbolt := true }
  else s

/-- A condition stops holding. -/
def tamperClear (s : State) (d : Nat) : State :=
  tamperSettle (tamperActive (modSec s fun x => { x with conditions := x.conditions.filter (· != d) }))

/-- Write of SC_TAMPER: ones clear LATCHED bits. -/
def tamperWrite (s : State) (w : Nat) : State :=
  tamperSettle (wf s rScTamper 0 3 0 (rf s rScTamper 0 3 0 &&& (15 - w % 16)))

/-! ### Lifecycle (R391–R393) -/

def lcState (s : State) : Nat := rf s rScLc 0 2 0

/-- The 288 bytes of the token. -/
def lcToken (s : State) : List Byte := (List.range 36).flatMap fun i => toLE 8 (rdReg s rScLcToken i 0).toNat

/-- The fused hash the signer key of a token must have: the vendor's below PROVISIONED, the owner's from there on (R392). -/
def signerHash (s : State) : List Byte := if lcState s < 2 then Config.vendorHash else s.gl.sec.ownerHash

/-- Checks 1 to 5 of R393, in order. -/
def lcCheck (s : State) : Option (Nat × Nat) :=
  let b := lcToken s
  let target := leAt b 0 1 % 8
  let st := lcState s
  let zero (off n : Nat) : Bool := (slice b off n).all (· == 0)
  if w64At b 0 / 8 ≠ 0 ∨ zero 0x18 8 = false ∨ zero 0x110 16 = false ∨ (target ≠ 2 ∧ zero 0x20 48 = false) ∨
      ¬ ((target = st + 1 ∨ target = 4) ∧ st < 4 ∧ target ≤ 4) then some (sInvalidParam, 2)
  else if w64At b 8 ≠ (rdReg s rScDeviceId 0 0).toNat then some (sInvalidParam, 3)
  else if w64At b 0x10 ≠ (rdReg s rScLcNonce 0 0).toNat then some (sInvalidParam, 4)
  else if Config.sha384 (slice b 0x50 96) ≠ signerHash s ∨
      Config.ecdsaVerify (slice b 0x50 96) (Config.sha384 (slice b 0 0x50)) (slice b 0xB0 96) = false then
    some (sInvalidParam, 1)
  else if s.gl.sec.conditions ≠ [] then some (sInvalidParam, 5)
  else none

/-- SC_LC_NONCE takes a new random value: a free value (log entry 3). -/
def newNonce (s : State) : State :=
  let (v, s) := fresh s
  wrReg s rScLcNonce 0 0 v

/-- SC_LC_CTRL.GO (R393). A GO while BUSY is ignored. -/
def lcGo (s : State) : State :=
  if rbit s rScLcStatus 0 0 then s
  else
    let s := newNonce (match lcCheck s with
      | some (st, d) => lcAnswer s st d
      | none =>
        let i := FlashItem.lifecycle (leAt (lcToken s) 0 1 % 8) (slice (lcToken s) 0x20 48)
        flashDue (wf s rScLcStatus 0 0 0 1) i)
    s

/-- All stacks and all SRAM are zeroed (R393, DECOMMISSIONED): what firmware keeps in frames goes with them. -/
def zeroAll (s : State) : State :=
  let s := { s with mem := s.mem.filter fun c => decide (tier2Base ≤ c.1) }
  let s := modPg s fun p => { p with
    trailers := [], seqs := [], poison := [], sums := [], reports := [], index := [], holdJobs := [] }
  let s := modCe s fun c => { c with homes := [], copies := [], logs := [], mirrors := [] }
  modSt s fun x => { x with plans := [], images := [], adapters := [], current := [], grammars := [] }

/-- The fuses after a burn: the state and, for PROVISIONED, the owner hash (R393 step 2). -/
def lcFuses (s : State) (target : Nat) (owner : List Byte) : State :=
  modSec (wf s rScLc 0 2 0 target) fun x => { x with ownerHash := if target = 2 then owner else x.ownerHash }

/-- The burn is done (R393 steps 2 and 3). -/
def lcBurnt (s : State) (target : Nat) (owner : List Byte) : State :=
  let s := modSec (lcFuses s target owner) fun x => { x with lcPending := true }
  lcAnswer (if target = 4 then zeroAll s else s) sOk 0

/-! ### The SPDM responder (R395) -/

def spdmOut (s : State) (bus : Nat) (r : SpdmOut) : State :=
  let s := modSec s fun x => { x with out := (bus, r) :: x.out }
  match r with
  | .error _ => bump s rScSpdmCnt 0 47 32 1
  | _ => s

/-- Whether the lifecycle state has SPDM (R391): a request is not answered otherwise. -/
def spdmOn (s : State) : Bool := 1 ≤ lcState s && lcState s ≤ 3

/-- Answer a request: nothing without SPDM, Busy while the Deadbolt is not in use (R390). -/
def spdmDo (s : State) (bus : Nat) (f : State → State) : State :=
  if !spdmOn s then s
  else if !s.gl.sec.deadbolt then spdmOut s bus (.error .busy)
  else f s

def spdmSay (s : State) (bus : Nat) (r : SpdmOut) : State := spdmDo s bus fun s => spdmOut s bus r

def certChain (s : State) : List Byte := Config.certChain (lcState s)

/-- Measurement block n of R395. -/
def measurement (s : State) : Nat → List Byte
  | 1 => Config.bootRomVersion
  | 2 => Config.firmwareDigest
  | 3 => [byte (rf s rScBoot 0 15 8)]
  | 4 => [byte (lcState s)]
  | _ => if s.gl.sec.policy then Config.policyDigest else List.replicate 48 0

/-- CHALLENGE: a signed response, counted. -/
def spdmChallenge (s : State) (bus : Nat) (nonce : List Byte) : State :=
  spdmDo s bus fun s => spdmOut (bump s rScSpdmCnt 0 31 16 1) bus
    (.challengeAuth (Config.ecdsaSign (certChain s ++ nonce)))

/-- GET_MEASUREMENTS of one block, or of all (block 0xFF). -/
def spdmMeasure (s : State) (bus block : Nat) (nonce : List Byte) : State :=
  let ns := if block = 0xFF then [1, 2, 3, 4, 5] else if 1 ≤ block ∧ block ≤ 5 then [block] else []
  let ms := ns.map fun n => (n, measurement s n)
  spdmDo s bus fun s => spdmOut s bus (.measurements ms (Config.ecdsaSign ((ms.flatMap (·.2)) ++ nonce)))

/-- KEY_EXCHANGE starts a session while fewer than 4 are open. -/
def spdmKeyExchange (s : State) (bus : Nat) (owner : Bool) (share : List Byte) : State :=
  spdmDo s bus fun s =>
    if s.gl.sec.sessions.length ≥ 4 then spdmOut s bus (.error .busy)
    else
      let id := s.gl.sec.sessCtr
      let s := modSec s fun x => { x with sessCtr := id + 1, sessions := tput x.sessions id ⟨false, owner, 0⟩ }
      let s := wf s rScSpdmCnt 0 2 0 s.gl.sec.sessions.length
      spdmOut (bump s rScSpdmCnt 0 31 16 1) bus (.keyExchangeRsp id (Config.ecdsaSign (certChain s ++ share)))

/-- A request inside a session; a session that is not open, or not in the state asked, is answered with
UnexpectedRequest. -/
def spdmSession (s : State) (bus id : Nat) (finished : Bool) (f : SpdmSess → State → State) : State :=
  spdmDo s bus fun s => match tget s.gl.sec.sessions id with
    | some x => if x.finished == finished then f x s else spdmOut s bus (.error .unexpectedRequest)
    | none => spdmOut s bus (.error .unexpectedRequest)

def setSession (s : State) (id : Nat) (x : SpdmSess) : State :=
  modSec s fun y => { y with sessions := tput y.sessions id x }

def spdmFinish (s : State) (bus id : Nat) : State :=
  spdmSession s bus id false fun x s => spdmOut (setSession s id { x with finished := true }) bus .finishRsp

def spdmKeyUpdate (s : State) (bus id : Nat) : State :=
  spdmSession s bus id true fun x s => spdmOut (setSession s id { x with keys := x.keys + 1 }) bus .keyUpdateAck

def spdmHeartbeat (s : State) (bus id : Nat) : State :=
  spdmSession s bus id true fun _ s => spdmOut s bus .heartbeatAck

def spdmEnd (s : State) (bus id : Nat) : State :=
  spdmSession s bus id true fun _ s =>
    let s := modSec s fun y => { y with sessions := tdel y.sessions id }
    spdmOut (wf s rScSpdmCnt 0 2 0 s.gl.sec.sessions.length) bus .endSessionAck

/-! ### Link keys (R195, R196, R396) -/

/-- Whether a controller takes keys of a group: its own once a key is staged, any before. -/
def groupOk (s : State) (g : Nat) : Bool := s.fab.keys.keys.isEmpty || rf s rScKeyStatus 0 15 0 == g

/-- SC_KEY_STATUS.PHASE0 and PHASE1. -/
def keyFlags (s : State) : State :=
  wf s rScKeyStatus 0 17 16 (b2n (thas s.fab.keys.keys 0) + 2 * b2n (thas s.fab.keys.keys 1))

/-- LINK_KEY_STAGE inside an owner's session: the key goes into a phase of every port's receive side, unless the phase is
current for transmit. -/
def keyStage (s : State) (bus id group phase key : Nat) : State :=
  spdmSession s bus id true fun x s =>
    if !x.owner || !groupOk s group || phase % 2 == rf s rScKeyStatus 0 18 18 then
      spdmOut s bus (.error .unexpectedRequest)
    else
      let p := phase % 2
      let s := modFab s fun f => { f with keys := { f.keys with
        keys := tput f.keys.keys p key, newest := some p, newSeen := none,
        seenPhase := if f.keys.seenPhase = some p then none else f.keys.seenPhase } }
      spdmOut (keyFlags (wf s rScKeyStatus 0 15 0 group)) bus .vendorOk

/-- LINK_KEY_INSTALL: the staged phase becomes current for transmit on every port with TX_EN set; its counters start at
0. -/
def keyInstall (s : State) (bus id group : Nat) : State :=
  spdmSession s bus id true fun x s =>
    let p := 1 - rf s rScKeyStatus 0 18 18
    if !x.owner || !groupOk s group || !thas s.fab.keys.keys p then spdmOut s bus (.error .unexpectedRequest)
    else
      let s := wf s rScKeyStatus 0 18 18 p
      let s := modFab s fun f => { f with ports := f.ports.map fun y =>
        (y.1, { y.2 with counter := y.2.counter.set p 0 }) }
      let s := (List.range 24).foldl (fun s n => wf s rEpStatus n 9 9 p) s
      spdmOut s bus .vendorOk

/-- KEY_PHASE_RETIRE (R196): 8 ms after the new phase was first seen the previous phase's key is dropped. -/
def keyRetire (s : State) : State :=
  match s.fab.keys.newSeen, s.fab.keys.seenPhase with
  | some t, some p =>
    if t + 8000000 ≤ s.now then
      keyFlags (modFab s fun f => { f with keys := { f.keys with keys := tdel f.keys.keys (1 - p), newSeen := none } })
    else s
  | _, _ => s

/-! ### BAR2 apertures (R383, R384) -/

/-- SP_ERR bit n. -/
def spErr (s : State) (n : Nat) : State := wrReg s rSpErr 0 0 (word ((rdReg s rSpErr 0 0).toNat ||| 2 ^ n))

def aptOn (s : State) (a : Nat) : Bool := rbit s rSpApt2 a 0
def aptBase (s : State) (a : Nat) : Nat := rf s rSpApt0 a 16 0
def aptSize (s : State) (a : Nat) : Nat := rf s rSpApt0 a 35 18
def aptTarget (s : State) (a : Nat) : Nat := rf s rSpApt1 a 43 0

/-- Stack frames an aperture covers. -/
def aptFrames (s : State) (a : Nat) : List Nat :=
  match areaOf s (aptTarget s a) with
  | .stack _ => (List.range (aptSize s a)).map (aptTarget s a / frameBytes + ·)
  | _ => []

/-- Whether a local range touches a region (R213). -/
def touchesRegion (s : State) (lo n : Nat) : Bool :=
  s.fab.regions.any fun x => decide (x.1 < lo + n ∧ lo < x.1 + 0x200000)

/-- The checks of R383 for aperture a bound to context c. -/
def aptOk (s : State) (a c : Nat) : Bool :=
  let b := aptBase s a
  let n := aptSize s a
  let t := aptTarget s a
  c != 0 && ctxState s c == 1 && decide (1 ≤ n) && decide (b + n ≤ 131072) && t % 0x10000 == 0 &&
  ((List.range 256).all fun o => o == a || !aptOn s o ||
    decide (b + n ≤ aptBase s o ∨ aptBase s o + aptSize s o ≤ b)) &&
  inAlloc s c t (n * 0x10000) && !touchesRegion s t (n * 0x10000)

/-- Clear ENABLE of an aperture: its leases end. -/
def aptOff (s : State) (a : Nat) : State :=
  if aptOn s a then (aptFrames s a).foldl unlease (wf s rSpApt2 a 0 0 0) else s

/-- Write of SP_APT[a] +0x10 (R383, R398). -/
def aptWrite (s : State) (a w : Nat) : State :=
  let v := w % 2 ^ 16
  let old := (rdReg s rSpApt2 a 0).toNat
  if old % 2 = 1 then
    if v / 2 ≠ old / 2 then spErr s 0
    else if v % 2 = 1 then s else aptOff s a
  else if v % 2 = 0 then wrReg s rSpApt2 a 0 (word v)
  else if aptOk s a (bits v 10 3) then (aptFrames s a).foldl lease (wrReg s rSpApt2 a 0 (word v))
  else spErr s 0

/-- Write of SP_APT[a] +0x00 or +0x08: refused with APT_INVALID while it would change an enabled aperture; a SIZE outside 1 to 131,072 sets
GL_ERR.RSVD_WRITE (R398). -/
def aptField (s : State) (d : RegDesc) (a : Nat) (w : Word) : State :=
  if aptOn s a && w != rdReg s d a 0 then spErr s 0
  else if d.base = rSpApt0.base ∧ (fld w 35 18 < 1 ∨ 131072 < fld w 35 18) then rsvdWrite s
  else wrReg s d a 0 w

/-- A refused request to BAR2 (R384). -/
def aptMiss (s : State) (write : Bool) : State :=
  let s := spErr (bump s rSpAptCnt 0 31 0 1) 1
  if write then s else toHost s (.completion none)

/-- The aperture that holds every byte of a request and the right. -/
def aptFor (s : State) (off n : Nat) (write : Bool) : Option Nat :=
  (List.range 256).find? fun a => aptOn s a && rbit s rSpApt2 a (if write then 2 else 1) &&
    decide (aptBase s a * 0x10000 ≤ off ∧ off + n ≤ (aptBase s a + aptSize s a) * 0x10000)

/-- A read of the adapter region (R385): the weights of the adapter slot whose entry run holds every byte. -/
def adapterRead (s : State) (off n : Nat) : Option (List Byte) :=
  (s.st.adapters.find? fun x => x.2.hostServed && x.2.loaded &&
    decide (x.2.run.1 * 0x10000 ≤ off ∧ off + n ≤ (x.2.run.1 + x.2.run.2) * 0x10000)).map fun x =>
    (List.range n).map fun i =>
      let o := off - x.2.run.1 * 0x10000 + i
      readByte s.mem (frameAddr (x.2.frames.getD (o / frameBytes) 0) + o % frameBytes)

/-- BAR2_REQUEST (R384, R385, R453): a read of n bytes, or a write of data, at an offset. A poisoned write is dropped. -/
def bar2 (s : State) (off : Nat) (data : Option (List Byte)) (n : Nat) (poisoned : Bool) : State :=
  match data with
  | none =>
    if off < 0x200000000 then
      match aptFor s off n false with
      | some a =>
        let at_ := aptTarget s a + (off - aptBase s a * 0x10000)
        toHost (touchSpan s (rf s rSpApt2 a 10 3) (at_, n)) (.completion (some (rdMem s at_ n)))
      | none => aptMiss s false
    else match adapterRead s (off - 0x200000000) n with
      | some b => toHost s (.completion (some b))
      | none => aptMiss s false
  | some b =>
    if poisoned then s
    else if off ≥ 0x200000000 then aptMiss s true
    else match aptFor s off b.length true with
      | none => aptMiss s true
      | some a =>
        let at_ := aptTarget s a + (off - aptBase s a * 0x10000)
        let s := touchSpan (writeClear s at_ b) (rf s rSpApt2 a 10 3) (at_, b.length)
        if rbit s rSpApt2 a 11 && decide (off + b.length > (aptBase s a + aptSize s a) * 0x10000 - 64) then
          addCtr s (rf s rSpApt2 a 10 3) (rf s rSpApt2 a 15 12)
        else s

end Sys2Proof.Machine
end

