-- ==== Sys2Proof/Machine/Codec.lean ====
section
/-! DEFINITION. What the codec units compute for erasure coding: parity P and Q of a stripe over GF(2^8) with generator
0x02 and polynomial 0x11D (R290), and a missing shard from K readable ones (R292). -/
namespace Sys2Proof.Machine

/-- Multiply by 0x02 in GF(2^8) with polynomial 0x11D. -/
def gfX2 (a : Nat) : Nat := if a ≥ 128 then ((2 * a) % 256) ^^^ 0x1D else 2 * a

/-- Product in GF(2^8): eight steps of shift and add. -/
def gfMul (a b : Nat) : Nat :=
  ((List.range 8).foldl (fun (r : Nat × Nat) i => (if bit b i then r.1 ^^^ r.2 else r.1, gfX2 r.2)) (0, a)).1

/-- Power of the generator 0x02. -/
def gfPow : Nat → Nat
  | 0 => 1
  | n + 1 => gfX2 (gfPow n)

/-- a to the 254th, the inverse of a nonzero a. -/
def gfInv (a : Nat) : Nat :=
  (List.range 7).foldl (fun (r : Nat × Nat) _ => let q := gfMul r.2 r.2; (gfMul r.1 q, q)) (1, a) |>.1

/-- Bytewise XOR of two payloads; a missing tail counts as zero. -/
def xorBytes : List Byte → List Byte → List Byte
  | [], bs => bs
  | as, [] => as
  | a :: as, b :: bs => (a ^^^ b) :: xorBytes as bs

/-- Bytewise product of a payload with a constant. -/
def scaleBytes (c : Nat) (bs : List Byte) : List Byte := if c = 1 then bs else bs.map fun b => byte (gfMul c b.toNat)

/-- P of the data shards (R290). -/
def parityP (ds : List (List Byte)) : List Byte := ds.foldl xorBytes []

/-- Q of the data shards: the sum of g^j · D_j (R290). -/
def parityQ (ds : List (List Byte)) : List Byte :=
  ((List.range ds.length).zip ds).foldl (fun a d => xorBytes a (scaleBytes (gfPow d.1) d.2)) []

/-- The data shards of a stripe of k from what is readable (index 0 to k − 1 data, k P, k + 1 Q), absent shards of a short
stripe given as empty payloads; none when fewer than k are readable. -/
def solveData (k : Nat) (sh : List (Option (List Byte))) : Option (List (List Byte)) :=
  let get (j : Nat) : Option (List Byte) := (sh.getD j none)
  let miss := (List.range k).filter fun j => (get j).isNone
  let known (j : Nat) : List Byte := (get j).getD []
  let sumP := (List.range k).foldl (fun a j => xorBytes a (known j)) []
  let sumQ := (List.range k).foldl (fun a j => xorBytes a (scaleBytes (gfPow j) (known j))) []
  let fill (vals : List (Nat × List Byte)) : List (List Byte) := (List.range k).map fun j =>
    ((vals.find? (·.1 == j)).map (·.2)).getD (known j)
  match miss, get k, get (k + 1) with
  | [], _, _ => some (fill [])
  | [a], some p, _ => some (fill [(a, xorBytes p sumP)])
  | [a], none, some q => some (fill [(a, scaleBytes (gfInv (gfPow a)) (xorBytes q sumQ))])
  | [a, b], some p, some q =>
    let sp := xorBytes p sumP
    let sq := xorBytes q sumQ
    let ga := gfPow a
    let gb := gfPow b
    let da := scaleBytes (gfInv (ga ^^^ gb)) (xorBytes sq (scaleBytes gb sp))
    some (fill [(a, da), (b, xorBytes sp da)])
  | _, _, _ => none

/-- One shard of a stripe from the readable ones (R292); a parity shard from all the data shards. -/
def solveShard (k j : Nat) (sh : List (Option (List Byte))) : Option (List Byte) :=
  (solveData k sh).map fun ds => if j = k then parityP ds else if j = k + 1 then parityQ ds else ds.getD j []

end Sys2Proof.Machine
end

