-- ==== Sys2Proof/Machine/Home.lean ====
section
/-! DEFINITION. What a controller does as home of a sequence or region: the Latch record and its changes
(R268–R270, R277, R279, R280), leases (R273), fencing (R271, R272), assignment (R282, R283), release (R436) and promotion
of a replica (R285). -/
namespace Sys2Proof.Machine

def homeOf (s : State) (q : Nat) : Option Home := tget s.ce.homes q
def setHome (s : State) (q : Nat) (h : Home) : State := modCe s fun c => { c with homes := tput c.homes q h }
def updHome (s : State) (q : Nat) (f : Home → Home) : State := modCe s fun c => { c with homes := tmod c.homes q f }

/-- Greatest epoch (R268). -/
def maxEpoch : Nat := 0xFFFFFFFF

/-! ### Members of a stripe group (R269) -/

/-- Live members of a group after one, in member order and wrapping, without the endpoints given. -/
def membersAfter (g : Group) (ep : Nat) (skip : List Nat) : List Nat :=
  let n := g.members.length
  match g.members.findIdx? (· == ep) with
  | none => []
  | some i => ((List.range n).filterMap fun j =>
      let p := (i + 1 + j) % n
      let m := g.members.getD p 0
      if g.failed.contains p || skip.contains m || m == ep then none else some m)

/-- Replicas and mirror partner of a sequence homed at an endpoint (R269). -/
def placeAfter (g : Group) (home owner : Nat) : List Nat := (membersAfter g home [owner]).take 3

/-! ### The Latch of a sequence or region -/

/-- Local address of a region homed here. -/
def localOf (o : Obj) : Nat := o.id % 2 ^ 44

/-- The Latch of an object homed here. -/
def lvOf (s : State) (o : Obj) : Option Lv :=
  if o.region then
    (if o.id / 2 ^ 44 = self s then (tget s.fab.regions (localOf o)).map fun r =>
      ⟨r.ctx, r.owner, r.latch, false, r.epoch, r.offeredTo, r.assigning, r.offeredAt, r.hingeId, r.done, r.expired⟩
    else none)
  else (homeOf s o.id).map fun h =>
    ⟨h.ctx, h.owner, h.st, h.prefill, h.epoch, h.offeredTo, h.assigning, h.offerTime, h.hingeId, h.done, h.expired⟩

/-- Send a sequence's record to its replicas (R269). -/
def replicate (s : State) (q : Nat) : State :=
  match homeOf s q with
  | some h => (askAll s 2 q (fun i => .copy i q h) .plain h.reps).2
  | none => s

/-- Change the Latch of an object; an epoch advance of a region is noted (R211); the replicas of a sequence are told. -/
def putLv (s : State) (o : Obj) (v : Lv) : State :=
  if o.region then modFab s fun f => { f with regions := tmod f.regions (localOf o) fun r =>
    { r with
      owner := v.owner, latch := v.st, epoch := v.epoch, offeredTo := v.offeredTo, assigning := v.assigning,
      offeredAt := v.offerTime, hingeId := v.hingeId, done := v.done, expired := v.expired,
      advances := (if v.epoch = r.epoch then r.advances else r.advances ++ [s.now]) } }
  else replicate (updHome s o.id fun h =>
    { h with
      owner := v.owner, st := v.st, prefill := v.prefill, epoch := v.epoch, offeredTo := v.offeredTo,
      assigning := v.assigning, offerTime := v.offerTime, hingeId := v.hingeId, done := v.done, expired := v.expired }) o.id

/-- Whether an epoch may advance now: not past its greatest value (R268), and for a region fewer than 128 times in any
4 ms (R211). -/
def mayAdvance (s : State) (o : Obj) (v : Lv) : Bool :=
  decide (v.epoch < maxEpoch) &&
  (!o.region || decide (((((tget s.fab.regions (localOf o)).map (·.advances)).getD []).filter
    fun t => decide (s.now < t + 4000000)).length < 128))

/-! ### Fenced parties and lost sequences -/

/-- Parties an EPOCH_NOTICE goes to: mirror partner, log holders and replicas (R272). -/
def fenced (h : Home) : List Nat := (((if h.mirror = 0 then [] else [h.mirror]) ++ h.logs ++ h.reps).filter (· != 0)).eraseDups

/-- Send EPOCH_NOTICE to parties (R272). -/
def sendNotices (s : State) (q epoch : Nat) (to_ : List Nat) : State :=
  to_.foldl (fun s d => sendL s d (lmsg mEpochNotice ⟨false, q⟩ epoch)) s

/-- The descriptor copy with its STATE field replaced (R45). -/
def descState (b : List Byte) (st : Nat) : List Byte := toLE 8 (setBits (w64At b 0) 43 40 st) ++ b.drop 8

/-- The home sets a sequence LOST_STATE: in its descriptor copy, with the events of R293 at the owner's host and the
manager's. -/
def setLost (s : State) (q : Nat) : State :=
  match homeOf s q with
  | none => s
  | some h =>
    if h.lost then s
    else
      let s := updHome s q fun h => { h with lost := true, desc := descState h.desc 8 }
      let s := bump s rLtDegradedCnt 0 47 32 1
      let s := sendX s h.owner 2 (.lost q h.ctx)
      let s := if mgrEp s = h.owner then s else sendX s (mgrEp s) 2 (.lost q h.ctx)
      replicate s q

/-- ORPHAN_NOTICE to the cell manager, naming the former owner (R273). -/
def orphanNotice (s : State) (o : Obj) (v : Lv) : State :=
  sendL s (mgrEp s) { lmsg mOrphanNotice o v.epoch with owner := v.owner, st := 2 }

/-- A Latch goes ORPHAN (R270): the epoch advances when adv, the parties of a sequence are fenced, the manager is told,
and a sequence still in prefill is LOST_STATE (R282). -/
def goOrphan (s : State) (o : Obj) (v : Lv) (adv : Bool) : State :=
  let v' := { v with
    st := 2, epoch := if adv then v.epoch + 1 else v.epoch, offeredTo := 0, assigning := false, offerTime := 0, expired := false }
  let s := putLv s o v'
  let s := if o.region then s else match homeOf s o.id with
    | some h =>
      let s := setHome s o.id { h with notices := fenced h, noticeFrom := s.now, noticeAt := s.now }
      sendNotices s o.id v'.epoch (fenced h)
    | none => s
  let s := orphanNotice s o v'
  if v.prefill then setLost s o.id else s

/-! ### Leases (R273, R274) -/

/-- A lease starts, or starts again, with the exchange that made a controller owner. -/
def startLease (s : State) (owner : Nat) : State :=
  if owner = self s then s else modCe s fun c => { c with leases := tput c.leases owner ⟨s.now, false⟩ }

/-- Whether an owner's lease is valid here. -/
def leaseValid (s : State) (owner : Nat) : Bool :=
  owner == self s || (match tget s.ce.leases owner with | some l => !l.expired | none => false)

/-- LEASE_RENEW (R273): after the expiry the answer is STALE_EPOCH. The first one of a region's owner starts its
lease. -/
def leaseRenew (s : State) (src : Nat) : State :=
  let first := s.fab.regions.any fun kv => kv.2.owner == src && kv.2.latch == 0 && !kv.2.renewed
  let bad := (match tget s.ce.leases src with | some l => l.expired | none => false) && !first
  let ack := lmsg mLeaseAck ⟨false, 0⟩ 0
  if bad then sendL s src { ack with status := sStaleEpoch }
  else
    let s := startLease s src
    let s := modFab s fun f => { f with regions := f.regions.map fun kv => (kv.1, if kv.2.owner = src then { kv.2 with renewed := true } else kv.2) }
    sendL s src ack

/-- Objects homed here whose Latch satisfies a test. -/
def homedObjs (s : State) (p : Lv → Bool) : List Obj :=
  ((s.ce.homes.map fun kv => (⟨false, kv.1⟩ : Obj)) ++ (s.fab.regions.map fun kv => (⟨true, self s * 2 ^ 44 + kv.1⟩ : Obj))).filter
    fun o => match lvOf s o with | some v => p v | none => false

/-- An owner's lease expires at this home: HELD Latches go ORPHAN, offers are marked (R273). -/
def leaseExpire (s : State) (owner : Nat) : State :=
  match tget s.ce.leases owner with
  | none => s
  | some l =>
    if l.expired ∨ s.now < l.last + leaseNs s then s
    else
      let s := modCe s fun c => { c with leases := tput c.leases owner { l with expired := true } }
      let s := bump s rLtFenceCnt 0 47 32 1
      let s := (homedObjs s fun v => v.owner == owner && v.st == 1 && !v.assigning).foldl (fun s o =>
        match lvOf s o with | some v => putLv s o { v with expired := true } | none => s) s
      (homedObjs s fun v => v.owner == owner && v.st == 0).foldl (fun s o =>
        match lvOf s o with
        | some v => if mayAdvance s o v then goOrphan s o v true else putLv s o { v with expired := o.region }
        | none => s) s

/-- No first renewal within TIMEOUT_MS of a region's creation sets it ORPHAN (R274). -/
def regionRenewTimeout (s : State) (a : Nat) : State :=
  match tget s.fab.regions a with
  | none => s
  | some r =>
    let o : Obj := ⟨true, self s * 2 ^ 44 + a⟩
    if r.renewed ∨ r.latch ≠ 0 ∨ s.now < r.createdAt + leaseNs s then s
    else match lvOf s o with
      | some v => if mayAdvance s o v then goOrphan s o v true else s
      | none => s

/-- Regions whose owner's lease has expired here and whose epoch may advance at last (R211, R273). -/
def lateOrphans (s : State) : List Obj := homedObjs s fun v => v.st == 0 && v.owner != self s && v.expired

/-- The orphanings that R211 made wait. -/
def orphansRun (s : State) : State := (lateOrphans s).foldl (fun s o => match lvOf s o with
  | some v => if mayAdvance s o v then goOrphan s o v true else s
  | none => s) s

/-! ### Offer, accept, timeout, decline (R277, R279, R280, R283) -/

/-- A new HINGE_ID of this controller (R275). -/
def newHinge (s : State) : Nat × State :=
  (self s * 2 ^ 44 + s.ce.hingeCtr % 2 ^ 44, modCe s fun c => { c with hingeCtr := c.hingeCtr + 1 })

/-- HINGE_FORWARD with the descriptor and choice copies of a sequence. -/
def forward (s : State) (o : Obj) (v : Lv) : State :=
  sendL s v.offeredTo { lmsg mHingeForward o v.epoch with
    owner := v.owner, st := 1, offerer := (if v.assigning then 0 else v.owner), receiver := v.offeredTo, hingeId := v.hingeId,
    body := (if o.region then [] else ((homeOf s o.id).map (fun h => slice h.desc 0 288)).getD []) }

/-- HINGE_REVERTED to a party with a status and the object's position. -/
def revert (s : State) (dst : Nat) (o : Obj) (hinge status : Nat) : State :=
  let m := lmsg mHingeReverted o 0
  let m := match lvOf s o with | some v => { m with epoch := v.epoch, owner := v.owner, st := v.st } | none => m
  sendL s dst { m with status := status, hingeId := hinge, receiver := dst }

/-- HINGE_OFFER at the home: the four checks of R277 in order. -/
def homeOffer (s : State) (src : Nat) (m : LMsg) : State :=
  let s := bump s rLtHingeCnt 0 15 0 1
  let no (st : Nat) : State := revert (bump s rLtHingeCnt 0 47 32 1) src m.obj m.hingeId st
  match lvOf s m.obj with
  | none => no sInvalidParam
  | some v =>
    if v.st ≠ 0 then no sInvalidParam
    else if v.owner ≠ src then no sStaleEpoch
    else if v.epoch ≠ m.epoch then no sStaleEpoch
    else
      let v := { v with
        st := 1, offeredTo := m.receiver, assigning := false, offerTime := s.now, hingeId := m.hingeId, prefill := false }
      forward (putLv s m.obj v) m.obj v

/-- HINGE_DONE to offerer, receiver and, for an assignment, the cell manager (R275). -/
def sendDone (s : State) (o : Obj) (v : Lv) (offerer : Nat) (assigned : Bool) : State :=
  let d : LMsg := { lmsg mHingeDone o v.epoch with
    owner := v.owner, offerer := offerer, receiver := v.owner, hingeId := v.hingeId }
  let s := if assigned then sendL s (mgrEp s) d else sendL s offerer d
  sendL s v.owner d

/-- Complete a transfer to its receiver: HELD at EPOCH + 1 (R279). -/
def transfer (s : State) (o : Obj) (v : Lv) : State :=
  let old := v.owner
  let asg := v.assigning
  let v := { v with
    st := 0, owner := v.offeredTo, epoch := v.epoch + 1, offeredTo := 0, assigning := false, offerTime := 0,
    done := (v.hingeId, v.offeredTo), expired := false }
  let s := putLv s o v
  let s := startLease s v.owner
  let s := if asg then bump s rLtHingeCnt 0 63 48 1 else bump s rLtHingeCnt 0 31 16 1
  let s := if o.region then modFab s fun f => { f with regions := tmod f.regions (localOf o) fun r => { r with renewed := true, pendAcc := none } }
    else s
  sendDone s o v old asg

/-- HINGE_ACCEPT at the home (R279). -/
def homeAccept (s : State) (src : Nat) (m : LMsg) : State :=
  match lvOf s m.obj with
  | none => revert s src m.obj m.hingeId sInvalidParam
  | some v =>
    if v.st = 1 ∧ v.hingeId = m.hingeId ∧ v.offeredTo = src then
      (if v.epoch ≥ maxEpoch then revert s src m.obj m.hingeId sInvalidParam
       else if mayAdvance s m.obj v then transfer s m.obj v
       else modFab s fun f => { f with regions := tmod f.regions (localOf m.obj) fun r => { r with pendAcc := some (src, m.hingeId) } })
    else if v.done = (m.hingeId, src) then
      sendL s src { lmsg mHingeDone m.obj v.epoch with owner := v.owner, receiver := src, hingeId := m.hingeId }
    else revert s src m.obj m.hingeId sHingeReverted

/-- Accepts of regions that waited for R211. -/
def pendingAccepts (s : State) : State :=
  s.fab.regions.foldl (fun s kv => match kv.2.pendAcc with
    | none => s
    | some (src, hid) =>
      let o : Obj := ⟨true, self s * 2 ^ 44 + kv.1⟩
      match lvOf s o with
      | some v =>
        if v.st = 1 ∧ v.hingeId = hid ∧ v.offeredTo = src then (if mayAdvance s o v then transfer s o v else s)
        else modFab s fun f => { f with regions := tmod f.regions kv.1 fun r => { r with pendAcc := none } }
      | none => s) s

/-- Resolve an offer that ends without transfer (R280): by the case of its kind and of the offerer's lease. -/
def endOffer (s : State) (o : Obj) (v : Lv) : State :=
  let recv := v.offeredTo
  if v.assigning then
    let v' := { v with st := 2, offeredTo := 0, assigning := false, offerTime := 0 }
    let s := putLv s o v'
    let s := bump s rLtHingeCnt 0 47 32 1
    let s := revert (revert s recv o v.hingeId sHingeReverted) (mgrEp s) o v.hingeId sHingeReverted
    orphanNotice s o v'
  else if mayAdvance s o v = false then s
  else if v.expired ∨ leaseValid s v.owner = false then
    let s := goOrphan (bump s rLtHingeCnt 0 47 32 1) o v true
    revert (revert s v.owner o v.hingeId sHingeReverted) recv o v.hingeId sHingeReverted
  else
    let s := putLv s o { v with st := 0, epoch := v.epoch + 1, offeredTo := 0, offerTime := 0 }
    let s := bump s rLtHingeCnt 0 47 32 1
    revert (revert s v.owner o v.hingeId sHingeReverted) recv o v.hingeId sHingeReverted

/-- When a pending offer times out (R280). -/
def offerEnd (s : State) (v : Lv) : Nat :=
  v.offerTime + (if v.assigning then rf s rLtHinge 0 55 40 * 1000000 else rf s rLtHinge 0 19 0 * 1000)

/-- The offer timer of an object: its timeout, or QUERY_US after a promoted home asked the receiver (R280, R285). -/
def offerTimeout (s : State) (o : Obj) : State :=
  match lvOf s o with
  | none => s
  | some v =>
    let asked := if o.region then 0 else ((homeOf s o.id).map (·.asked)).getD 0
    if v.st ≠ 1 then s
    else if asked ≠ 0 then
      (if s.now < asked + rf s rLtHinge 0 39 20 * 1000 then s
       else endOffer (updHome s o.id fun h => { h with asked := 0 }) o v)
    else if s.now < offerEnd s v then s
    else endOffer s o v

/-- HINGE_DECLINE at the home (R283). -/
def homeDecline (s : State) (src : Nat) (m : LMsg) : State :=
  match lvOf s m.obj with
  | none => s
  | some v =>
    if v.st ≠ 1 ∨ v.assigning = false ∨ v.hingeId ≠ m.hingeId ∨ v.offeredTo ≠ src then s
    else
      let v' := { v with st := 2, offeredTo := 0, assigning := false, offerTime := 0 }
      let s := bump (putLv s m.obj v') rLtHingeCnt 0 47 32 1
      let s := revert (revert s src m.obj m.hingeId m.status) (mgrEp s) m.obj m.hingeId m.status
      if m.status = sLostState ∧ m.obj.region = false then setLost s m.obj.id else orphanNotice s m.obj v'

/-- LATCH_ASSIGN at the home (R282): answered with HINGE_REVERTED when refused, another epoch first. -/
def homeAssign (s : State) (src : Nat) (m : LMsg) : State :=
  match lvOf s m.obj with
  | none => revert s src m.obj m.hingeId sInvalidParam
  | some v =>
    let lost := !m.obj.region && ((homeOf s m.obj.id).map (·.lost)).getD false
    if v.epoch ≠ m.epoch then revert s src m.obj m.hingeId sStaleEpoch
    else if v.st ≠ 2 ∨ v.prefill ∨ lost then revert s src m.obj m.hingeId sInvalidParam
    else
      let (hid, s) := newHinge s
      let v := { v with st := 1, offeredTo := m.receiver, assigning := true, offerTime := s.now, hingeId := hid }
      forward (putLv s m.obj v) m.obj v

/-- LATCH_RELEASE at the home (R436). -/
def homeRelease (s : State) (src : Nat) (m : LMsg) : State :=
  let reply (s : State) (st : Nat) : State :=
    let r := match lvOf s m.obj with
      | some v => { lmsg mLatchReply m.obj v.epoch with owner := v.owner, st := v.st }
      | none => lmsg mLatchReply m.obj 0
    sendL s src { r with status := st }
  match lvOf s m.obj with
  | none => reply s sInvalidParam
  | some v =>
    if v.owner ≠ src ∨ v.epoch ≠ m.epoch then reply s sStaleEpoch
    else if v.st ≠ 0 ∨ mayAdvance s m.obj v = false then reply s sInvalidParam
    else reply (goOrphan s m.obj v true) sOk

/-- The answer of a home to LATCH_QUERY. -/
def homeAnswer (o : Obj) (v : Lv) : LMsg :=
  { lmsg mLatchReply o v.epoch with
    owner := v.owner, st := v.st, offerer := (if v.st = 1 ∧ v.assigning = false then v.owner else 0), receiver := v.offeredTo,
    hingeId := v.hingeId }

/-- LATCH_QUERY at a home or a receiver (R275, R285): a party that sent HINGE_ACCEPT and waits says so. -/
def latchQueryIn (s : State) (src : Nat) (m : LMsg) : State :=
  match lvOf s m.obj with
  | some v => sendL s src (homeAnswer m.obj v)
  | none =>
    match s.ce.hinges.find? fun h => h.obj == m.obj && !h.offerer && decide (h.phase = 2) with
    | some h => sendL s src { lmsg mLatchReply m.obj h.epoch with accepted := true, receiver := self s, hingeId := h.hingeId }
    | none =>
      match (if m.obj.region then none else seqOf s m.obj.id) with
      | some q => sendL s src { lmsg mLatchReply m.obj q.epoch with owner := self s }
      | none => sendL s src { lmsg mLatchReply m.obj 0 with status := sInvalidParam }

/-- EPOCH_ACK (R272). -/
def epochAck (s : State) (src : Nat) (m : LMsg) : State :=
  updHome s m.obj.id fun h => { h with notices := h.notices.filter (· != src) }

/-- Every 20 µs the home resends EPOCH_NOTICE, for TIMEOUT_MS (R272). -/
def noticeResend (s : State) (q : Nat) : State :=
  match homeOf s q with
  | none => s
  | some h =>
    if h.notices.isEmpty ∨ s.now < h.noticeAt + 20000 then s
    else if h.noticeFrom + leaseNs s ≤ s.now then setHome s q { h with notices := [] }
    else sendNotices (setHome s q { h with noticeAt := s.now }) q h.epoch h.notices

/-! ### Creation, retirement and table writes (R268–R270, R272) -/

/-- Take a system frame for a record of firmware: its address, 0 when no frame is free. -/
def recordFrame (s : State) (use : SysUse) (owner : Nat) : Nat × State :=
  match takeFrame s .system 0 use owner with
  | (some f, s) => (f, s)
  | (none, s) => (0, s)

/-- The request that creates a Latch: HELD by the requester at epoch 1; the answer names mirror, replicas and where the
record lies (R269, R270). -/
def homeCreate (s : State) (src req q ctx group : Nat) (prefill : Bool) (logs : List Nat) (desc : List Byte) : State :=
  match tget s.ce.groups group, homeOf s q with
  | some g, none =>
    let pl := placeAfter g (self s) src
    let (f, s) := recordFrame s .latch q
    let h : Home := ⟨ctx, src, 0, prefill, 1, 0, false, 0, 0, pl.getD 2 0, pl.take 2, logs, group, (0, 0), false, false,
      slice desc 0 288, [], [], [], 0, 0, 0, f⟩
    let s := startLease (setHome s q h) src
    answerX (replicate s q) src 2 req sOk [pl.getD 2 0, pl.getD 0 0, pl.getD 1 0, frameAddr f]
  | _, _ => answerX s src 2 req sInvalidParam []

/-- Free a sequence's records here and retire its Latch; the cell manager is told with SEQ_RETIRE (R270, R276). -/
def homeRetire (s : State) (q : Nat) : State :=
  match homeOf s q with
  | none => s
  | some h =>
    let s := dropSystem s h.frame
    let s := modCe s fun c => { c with homes := tdel c.homes q }
    let s := h.reps.foldl (fun s d => sendX s d 2 (.uncopy q)) s
    (askC s (mgrEp s) mSeqRetire q 0 0 0 (.retire q)).2

/-- A record moved to a promoted home: the former home, which closes its Shutter, keeps nothing of it. -/
def homeForget (s : State) (q : Nat) : State :=
  match homeOf s q with
  | none => s
  | some h => modCe (dropSystem s h.frame) fun c => { c with homes := tdel c.homes q }

/-- Members of a group at its FAILED positions. -/
def failedOf (s : State) (group : Nat) : List Nat :=
  match tget s.ce.groups group with
  | some g => g.failed.map fun p => g.members.getD p 0
  | none => []

/-- Unreadable shards of a stripe (R293): those whose HEALTH bit is clear, and those a member at a FAILED position holds. -/
def unreadable (s : State) (e : StripeE) : List Nat := (List.range (e.k + 2)).filter fun j =>
  !e.health.contains j || (e.slots.getD j 0 != 0 && (failedOf s e.group).contains (e.slots.getD j 0 / 2 ^ 44))

/-- The home judges a stripe by its unreadable shards (R293): three or more with a data shard among them lose the
sequence. -/
def judgeStripe (s : State) (q : Nat) (e : StripeE) : State :=
  let u := unreadable s e
  if u.length ≥ 3 ∧ u.any (fun j => decide (j < e.count)) = true then setLost s q else s

/-- Judge every stripe of the sequences homed here after a group's record changed (R293, R478). -/
def judgeGroup (s : State) (id : Nat) : State :=
  (s.ce.homes.filter fun kv => kv.2.group == id).foldl (fun s kv => kv.2.stripes.foldl (fun s e => judgeStripe s kv.1 e.2) s) s

/-- The record after a table write (R48, R269, R291). -/
def homeApply (h : Home) : HomeW → Home
  | .entries es => { h with bt := es.foldl (fun t e => tput t (e.1 * 2 ^ 32 + e.2.1) e.2.2) h.bt }
  | .stripe n e es => { h with
      bt := es.foldl (fun t x => tput t (x.1 * 2 ^ 32 + x.2.1) x.2.2) h.bt, stripes := tput h.stripes n e }
  | .desc b logs => { h with desc := slice b 0 288, logs := logs }
  | .health n j => { h with stripes := tmod h.stripes n fun e => { e with health := e.health.filter (· != j) } }
  | .repoint old new => { h with
      bt := h.bt.map (fun kv => (kv.1, if kv.2 = old then new else kv.2)),
      stripes := h.stripes.map fun kv => (kv.1, { kv.2 with slots := kv.2.slots.map fun w => if w = old then new else w }) }

/-- A table write arrives (R269, R272): applied only at the record's epoch; the answer waits until both replicas have
placed it. A HEALTH bit is cleared by any reader. -/
def homeWrite (s : State) (src req q epoch : Nat) (w : HomeW) : State :=
  match homeOf s q with
  | none => answerX s src 2 req sInvalidParam []
  | some h =>
    let free := match w with | .health _ _ => true | _ => false
    if free = false ∧ (h.epoch ≠ epoch ∨ h.owner ≠ src) then
      answerX (bump s rLtFenceCnt 0 31 0 1) src 2 req sStaleEpoch [h.owner, h.epoch]
    else
      let h := homeApply h w
      let s := setHome s q h
      let s := match w with
        | .health n _ => match tget h.stripes n with | some e => judgeStripe s q e | none => s
        | .stripe _ e _ => judgeStripe s q e
        | _ => s
      let (ids, s) := askAll s 2 q (fun i => .copy i q h) .plain h.reps
      let (o, s) := outX s src 2 (.answer req sOk [])
      gateOn s ids o

/-- A record arrives at a replica: applied at an epoch not below the highest seen (R272). -/
def copyIn (s : State) (src req q : Nat) (h : Home) : State :=
  let (ok, s) := fence s q h.epoch
  if ok then answerX (modCe s fun c => { c with copies := tput c.copies q (src, h) }) src 2 req sOk []
  else answerX s src 2 req sStaleEpoch []

/-- MIRROR_REQ at the home: a new partner by R269's order, written into MIRROR (R295). -/
def homeMirror (s : State) (src : Nat) (m : CMsg) : State :=
  let rep (s : State) (st new : Nat) : State := sendC s src ⟨mMirrorReply, st, m.req, m.obj, new, 0, 0⟩
  match homeOf s m.obj with
  | none => rep s sInvalidParam 0
  | some h => match tget s.ce.groups h.group with
    | none => rep s sNoFit 0
    | some g => match (membersAfter g (self s) (h.owner :: m.a :: h.reps)).head? with
      | none => rep s sNoFit 0
      | some new => rep (replicate (setHome s m.obj { h with mirror := new }) m.obj) sOk new

/-- STRIPE_REPLACE at the home (R294): the slot is replaced and its HEALTH bit set only when it still equals OLD, and a
data shard's block-table entries with it (R291). -/
def homeReplace (s : State) (src : Nat) (m : CMsg) : State :=
  let rep (s : State) (st : Nat) : State := sendC s src ⟨mStripeReply, st, m.req, m.obj, 0, 0, 0⟩
  let n := bits m.a 31 0
  let j := bits m.a 35 32
  match homeOf s m.obj with
  | none => rep s sInvalidParam
  | some h => match tget h.stripes n with
    | none => rep s sInvalidParam
    | some e =>
      if e.slots.getD j 0 ≠ m.b ∨ (m.b = 0 ∧ e.health.contains j) ∨ pageTooHigh (word m.c) = true then rep s sInvalidParam
      else
        let e := { e with slots := e.slots.set j m.c, health := addSorted j e.health }
        let bt := if m.b = 0 then h.bt else h.bt.map fun kv => (kv.1, if kv.2 = m.b then m.c else kv.2)
        let h := { h with stripes := tput h.stripes n e, bt := bt }
        rep (replicate (setHome s m.obj h) m.obj) sOk

/-! ### Promotion (R285) -/

/-- A promoted home tells owner and manager once its record stands (R285 step 3). -/
def homeMoved (s : State) (q : Nat) : State :=
  match homeOf s q with
  | none => s
  | some h =>
    let m := { lmsg mHomeMoved ⟨false, q⟩ h.epoch with owner := h.owner, st := h.st }
    let s := sendL s h.owner m
    if mgrEp s = h.owner then s else sendL s (mgrEp s) m

/-- Promote one record held as a replica (R285): a new replica is picked, an offer is resolved by asking its
receiver. -/
def promoteOne (s : State) (q : Nat) (h : Home) : State :=
  let (f, s) := recordFrame s .latch q
  let keep := h.reps.filter (· != self s)
  let new := match tget s.ce.groups h.group with
    | some g => (membersAfter g (self s) (h.owner :: h.mirror :: keep)).take (2 - keep.length)
    | none => []
  let s := setHome s q { h with reps := keep ++ new, frame := f, asked := if h.st = 1 then s.now else 0 }
  let s := modCe s fun c => { c with copies := tdel c.copies q }
  let s := startLease s h.owner
  let s := replicate s q
  let s := if h.st = 1 then sendL s h.offeredTo (lmsg mLatchQuery ⟨false, q⟩ h.epoch) else s
  homeMoved s q

/-- PROMOTE (R285): every record of the failed home whose first live replica this controller is. A second PROMOTE says that the replica
before it did not answer (R276, log entry 126). -/
def promote (s : State) (failed : Nat) : State :=
  (s.ce.copies.filter fun kv => kv.2.1 == failed).foldl (fun s kv =>
    let h := { kv.2.2 with asked := 0 }
    let first := (h.reps.filter fun r => match tget s.ce.groups h.group with
      | some g => !(g.failed.any fun p => g.members.getD p 0 == r)
      | none => true).headD (self s)
    if first = self s ∨ kv.2.2.asked ≠ 0 then promoteOne s kv.1 h
    else modCe s fun c => { c with copies := tput c.copies kv.1 (failed, { h with asked := 1 }) }) s

/-- LATCH_REPLY at a promoted home that asked an offer's receiver (R285 step 1). -/
def promotedReply (s : State) (src : Nat) (m : LMsg) : State :=
  match homeOf s m.obj.id, lvOf s m.obj with
  | some h, some v =>
    if m.obj.region ∨ h.asked = 0 ∨ v.st ≠ 1 ∨ v.offeredTo ≠ src then s
    else
      let s := setHome s m.obj.id { h with asked := 0 }
      if m.accepted ∨ (m.status = sOk ∧ m.owner = src) then (if mayAdvance s m.obj v then transfer s m.obj v else s)
      else endOffer s m.obj v
  | _, _ => s

/-- LT_COUNT: records homed here, Latches owned, ORPHAN records (R307). -/
def viewLtCount (s : State) : Nat :=
  let homed := s.ce.homes.length + s.fab.regions.length
  let orphan := tcount s.ce.homes (·.st == 2) + tcount s.fab.regions (·.latch == 2)
  sat 24 homed + sat 24 (s.pg.seqs.length + s.ce.regs.length) * 2 ^ 24 + sat 16 orphan * 2 ^ 48

end Sys2Proof.Machine
end

