-- ==== Sys2Proof/Machine/Manager.lean ====
section
/-! DEFINITION. What the cell manager does: the admission ledger and region directory (R287), naming homes and log
holders (R269, R276), probes and failed members (R285, R478), rebuild orders (R294) and assignment (R282). -/
namespace Sys2Proof.Machine

/-- Send a Latch message and record it until its answer, which the object tells, arrives. -/
def askL (s : State) (dst : Nat) (m : LMsg) (use : ReqUse) : State :=
  let id := s.ce.reqCtr
  let s := modCe s fun x => { x with
    reqCtr := (id + 1) % 2 ^ 32, reqs := tput x.reqs id ⟨dst, m.sub, m.obj.id, 0, s.fab.fwCtr, s.now, use⟩ }
  sendL s dst m

/-- Drop the requests made for a use. -/
def dropReq (s : State) (use : ReqUse) : State :=
  modCe s fun x => { x with reqs := x.reqs.filter fun kv => kv.2.use != use }

/-! ### Ledger replicas (R287) -/

/-- The ledger replicas in use. -/
def ledgerReps (s : State) : List Nat := (List.range 2).filterMap fun i =>
  if rbit s rLtMgrReplica i 20 then some (rf s rLtMgrReplica i 19 0) else none

/-- Apply a change of the manager's records. -/
def ledgerApply (s : State) : LedgerW → State
  | .seq id (some e) => modCe s fun c => { c with ledger := tput c.ledger id e }
  | .seq id none => modCe s fun c => { c with ledger := tdel c.ledger id }
  | .region a (some e) => modCe s fun c => { c with regionDir := tput c.regionDir a e }
  | .region a none => modCe s fun c => { c with regionDir := tdel c.regionDir a }
  | .group id g => judgeGroup (modCe s fun c => { c with groups := tput c.groups id g }) id

/-- Make a change and place it on the replicas; the requests to wait for. -/
def ledgerPut (s : State) (w : LedgerW) : List Nat × State :=
  askAll (ledgerApply s w) 0 0 (fun i => .ledger i w) .plain (ledgerReps s)

/-- Change a group's record: the replicas and every controller of the cell get it (R288, R294). -/
def groupPut (s : State) (id : Nat) (g : Group) : State :=
  let (_, s) := ledgerPut s (.group id g)
  (((s.ce.members.map (·.1)) ++ g.members ++ g.spares).eraseDups).foldl (fun s d =>
    if d = self s then s else sendX s d 0 (.group id g)) s

/-! ### Requests to the manager (R276) -/

/-- Answer subtype of a request to the cell manager. -/
def mgrAnswer (sub : Nat) : Nat :=
  if sub = mAdmitReq then mAdmitReply else if sub = mLogReplicaReq then mLogReplicaReply
  else if sub = mHomeLookup then mHomeLookupReply else mMgrAck

/-- A controller that is not the manager answers at once with TARGET_DEAD (R276). -/
def mgrOnly (s : State) (src : Nat) (m : CMsg) (f : State → State) : State :=
  if isMgr s then f s else sendC s src ⟨mgrAnswer m.sub, sTargetDead, m.req, m.obj, 0, 0, 0⟩

/-- Whether the manager takes a member as eligible home. -/
def homeEligible (s : State) (ep : Nat) : Bool :=
  if ep = self s then rbit s rLtCtrl 0 0 else Config.homeEnKnown ep

/-- The homes a group offers: live eligible members with two replicas and a mirror partner after them (R269). -/
def groupHomes (s : State) (g : Group) (owner : Nat) : List Nat :=
  (List.range g.members.length).filterMap fun p =>
    let m := g.members.getD p 0
    if g.failed.contains p || !homeEligible s m || decide ((placeAfter g m owner).length < 3) then none else some m

/-- One of a list, which of them the manual leaves open (log entry 5). -/
def pickOf {α : Type} (s : State) (l : List α) : Option α × State :=
  let (w, s) := fresh s
  (if l.isEmpty then none else l[w.toNat % l.length]?, s)

/-- The groups and homes that an admission asked for by owner src may name (R276). -/
def admitCands (s : State) (src : Nat) : List (Nat × Nat) :=
  s.ce.groups.flatMap fun kv => (groupHomes s kv.2 src).map fun h => (kv.1, h)

/-- The manager admits sequence q of context c to group gid at home home (R276): three log replicas follow the home in the group from
a free place, the ledger takes the entry, and ADMIT_REPLY goes out when the ledger's replicas hold it. -/
def admitPlace (s : State) (src : Nat) (m : CMsg) (c q gid home : Nat) : State :=
  let live := match tget s.ce.groups gid with | some g => home :: membersAfter g home [] | none => []
  let (w, s) := fresh s
  let at_ := w.toNat % live.length
  let logs := ((live.drop at_) ++ live.take at_).take 3
  let (ids, s) := ledgerPut s (.seq q (some ⟨c, home, gid, 0, 0, logs⟩))
  gateOn s ids (outC src ⟨mAdmitReply, sOk, m.req, q, gid + home * 2 ^ 32,
    logs.getD 0 0 + logs.getD 1 0 * 2 ^ 20 + logs.getD 2 0 * 2 ^ 40, 0⟩)

/-- ADMIT_REQ (R276, R287). -/
def admitReq (s : State) (src : Nat) (m : CMsg) : State :=
  let no (st d : Nat) : State := sendC s src ⟨mAdmitReply, st, m.req, 0, 0, d * 2 ^ 60, 0⟩
  let c := bits m.a 7 0
  let cand := admitCands s src
  if ctxState s c ≠ 1 then no sInvalidContext 0
  else if cand.isEmpty then no sNoFit 12
  else if s.ce.ledger.length ≥ 8388608 then no sNoFit 13
  else
    let (pr, s) := pickOf s cand
    let (q, s) := pick s (fun n => !thas s.ce.ledger n) 1 0xFFFFFFFE
    match pr, q with
    | some (gid, home), some q => admitPlace s src m c q gid home
    | _, _ => no sNoFit 13

/-- MGR_ACK of a request. -/
def mgrAck (m : CMsg) (st : Nat) : CMsg := ⟨mMgrAck, st, m.req, m.obj, 0, 0, 0⟩

/-- SEQ_RETIRE (R276): the entry goes after two reclamation points; an entry already removed is answered OK. -/
def seqRetire (s : State) (src : Nat) (m : CMsg) : State :=
  match tget s.ce.ledger m.obj with
  | none => sendC s src (mgrAck m sOk)
  | some e =>
    if e.state = 1 then sendC s src (mgrAck m sOk)
    else
      let (ids, s) := ledgerPut s (.seq m.obj (some { e with state := 1, left := 2 }))
      gateOn s ids (outC src (mgrAck m sOk))

/-- The ledger at a reclamation point of the manager (R276). -/
def ledgerTick (s : State) : State :=
  if isMgr s then
    (s.ce.ledger.filter fun kv => kv.2.state == 1).foldl (fun s kv =>
      if kv.2.left ≤ 1 then (ledgerPut s (.seq kv.1 none)).2
      else modCe s fun c => { c with ledger := tput c.ledger kv.1 { kv.2 with left := kv.2.left - 1 } }) s
  else s

/-- HOME_LOOKUP. -/
def homeLookup (s : State) (src : Nat) (m : CMsg) : State :=
  match tget s.ce.ledger m.obj with
  | some e => sendC s src ⟨mHomeLookupReply, sOk, m.req, m.obj, e.home, 0, 0⟩
  | none => sendC s src ⟨mHomeLookupReply, sInvalidParam, m.req, m.obj, 0, 0, 0⟩

/-- The member that takes the place of log replica old of a sequence with ledger entry e (R276): the next free one of its group, else a
CACHE node that answers. -/
def nextReplica (s : State) (e : LedgerE) (old : Nat) : Option Nat :=
  let inGroup := match tget s.ce.groups e.group with
    | none => []
    | some g =>
      let l := if g.members.contains old then membersAfter g old e.logs else membersAfter g (g.members.getD 0 0) e.logs
      l.filter fun d => !e.logs.contains d
  let cache := (s.ce.members.filter fun kv => kv.2.role == 2 && !kv.2.silent && !e.logs.contains kv.1).map (·.1)
  (inGroup ++ cache).head?

/-- LOG_REPLICA_REQ: the next live member after LOST that holds none of the others, else the lowest live CACHE-role
controller that holds none, else NO_FIT (R276). -/
def logReplicaReq (s : State) (src : Nat) (m : CMsg) : State :=
  match tget s.ce.ledger m.obj with
  | none => sendC s src ⟨mLogReplicaReply, sNoFit, m.req, m.obj, 0, 0, 0⟩
  | some e =>
    match nextReplica s e m.a with
    | none => sendC s src ⟨mLogReplicaReply, sNoFit, m.req, m.obj, 0, 0, 0⟩
    | some new =>
      let logs := e.logs.map fun d => if d = m.a then new else d
      let (ids, s) := ledgerPut s (.seq m.obj (some { e with logs := logs }))
      gateOn s ids (outC src ⟨mLogReplicaReply, sOk, m.req, m.obj, new, 0, 0⟩)

/-! ### Members, failures and rebuild (R285, R294, R478) -/

/-- Start the rebuild of one failed position while a spare is free and fewer than two rebuild (R288, R294): the spare
gets the ledger's sequences of the group in ascending SEQ_ID. -/
def startRebuild (s : State) (id : Nat) : State :=
  match tget s.ce.groups id with
  | none => s
  | some g =>
    let waiting := g.failed.filter fun p => !g.rebuilding.contains p
    let free := g.spares.filter fun d => !(g.targets.any (·.1 == d)) &&
      (if d = self s then rbit s rLtCtrl 0 1 else Config.rebuildEnKnown d)
    match waiting.head?, free.head? with
    | some p, some d =>
      if g.rebuilding.length ≥ 2 then s
      else
        let s := groupPut s id { g with rebuilding := addSorted p g.rebuilding, targets := g.targets ++ [(d, p)] }
        let seqs := (s.ce.ledger.filter fun kv => kv.2.group == id).map fun kv => (kv.1, kv.2.home)
        sendX s d 6 (.rebuild id p seqs)
    | _, _ => s

/-- Mark every position a member holds FAILED and start rebuild (R478, R294). -/
def failPositions (s : State) (ep : Nat) : State :=
  s.ce.groups.foldl (fun s kv =>
    match (kv.2.members.findIdx? (· == ep)) with
    | none => s
    | some p =>
      if kv.2.failed.contains p then s
      else startRebuild (groupPut s kv.1 { kv.2 with failed := addSorted p kv.2.failed }) kv.1) s

/-- Promote replicas of the records a member homes: PROMOTE goes to the next live members of each group, which take the
records they are first live replica of (R285). -/
def promoteFor (s : State) (ep : Nat) : State :=
  let gs := ((s.ce.ledger.filter fun kv => kv.2.home == ep).map (·.2.group)).eraseDups
  let to_ := (gs.flatMap fun id => match tget s.ce.groups id with
    | some g => (membersAfter g ep []).take 3
    | none => []).eraseDups
  to_.foldl (fun s d => (askC s d mPromote 0 ep 0 0 .plain).2) s

/-- PROMOTE went unanswered at a member: the next ones are asked again, for records that still name the failed home (R276). -/
def promoteNext (s : State) (d ep : Nat) : State :=
  let gs := ((s.ce.ledger.filter fun kv => kv.2.home == ep).map (·.2.group)).eraseDups
  let to_ := (gs.flatMap fun id => match tget s.ce.groups id with
    | some g => ((membersAfter g ep []).take 3 |>.dropWhile (· != d)).drop 1
    | none => []).eraseDups
  to_.foldl (fun s d => (askC s d mPromote 0 ep 0 0 .plain).2) s

/-- A member is gone: its records are promoted and its positions FAILED (R478). -/
def memberGone (s : State) (ep : Nat) : State := failPositions (promoteFor s ep) ep

/-- JOINED: the new member gets the group records. -/
def joined (s : State) (src : Nat) (m : CMsg) : State :=
  let s := modCe s fun c => { c with members := tput c.members src ⟨bits m.a 1 0, s.now, false⟩ }
  let s := if src = self s then s else s.ce.groups.foldl (fun s kv => sendX s src 0 (.group kv.1 kv.2)) s
  sendC s src (mgrAck m sOk)

/-- LEAVING: marked at once (R478). -/
def leaving (s : State) (src : Nat) (m : CMsg) : State :=
  let s := modCe s fun c => { c with members := tdel c.members src }
  sendC (memberGone s src) src (mgrAck m sOk)

/-- HOME_UNREACHABLE: the manager probes the home at once (R478). A home that names itself closes its Shutter and asks for
promotion without a wait (R434 step 4). -/
def homeUnreachable (s : State) (src : Nat) (m : CMsg) : State :=
  if src = m.a then sendC (promoteFor s src) src (mgrAck m sOk)
  else sendC (askC s m.a mProbe 0 0 0 0 .plain).2 src (mgrAck m sOk)

/-- The members the manager probes: those that joined and those its groups name. -/
def probed (s : State) : List Nat :=
  (((s.ce.members.map (·.1)) ++ s.ce.groups.flatMap (fun kv => kv.2.members)).filter (· != self s)).eraseDups

/-- Every RENEW_MS the manager sends PROBE to every other member (R478). -/
def probeTimer (s : State) : State :=
  if isMgr s = false ∨ s.now < s.ce.probeAt + renewNs s then s
  else
    let s := modCe s fun c => { c with
      probeAt := s.now, members := (probed s).foldl (fun t d => if thas t d then t else tput t d ⟨2, s.now, false⟩) c.members }
    (probed s).foldl (fun s d => (askC s d mProbe 0 0 0 0 .plain).2) s

/-- PROBE_ACK: the member answers; a silent one is not restored to its positions (R478). -/
def probeAck (s : State) (src : Nat) (m : CMsg) : State :=
  let s := modCe s fun c => { c with reqs := tdel c.reqs m.req }
  modCe s fun c => { c with members := tmod c.members src fun x => { x with lastAck := s.now, silent := false } }

/-- A member other than the manager that answered no probe for HOME_DEAD_MS is silent (R478). -/
def memberSilent (s : State) (ep : Nat) : State :=
  match tget s.ce.members ep with
  | none => s
  | some x =>
    if isMgr s = false ∨ ep = self s ∨ x.silent ∨ s.now < x.lastAck + homeDeadNs s then s
    else memberGone (modCe s fun c => { c with members := tput c.members ep { x with silent := true } }) ep

/-- A spare has rebuilt a position: it becomes the member, and REBUILD_DONE is raised (R294). -/
def rebuilt (s : State) (src id pos : Nat) : State :=
  match tget s.ce.groups id with
  | none => s
  | some g =>
    if isMgr s = false ∨ g.targets.contains (src, pos) = false then s
    else
      let g := { g with
        members := g.members.set pos src, failed := g.failed.filter (· != pos), rebuilding := g.rebuilding.filter (· != pos),
        targets := g.targets.filter (· != (src, pos)), spares := g.spares.filter (· != src) }
      let s := groupPut s id g
      startRebuild (raiseDev s evRebuildDone 0 id pos) id

/-- ORPHAN_NOTICE: LATCH_ORPHANED or REGION_ORPHANED is raised at the manager's host (R273, R362). -/
def orphanIn (s : State) (m : LMsg) : State :=
  if isMgr s = false then s
  else if m.obj.region then
    raiseCtx s ((tget s.ce.regionDir m.obj.id).map (·.1) |>.getD 0) evRegionOrphaned 0 m.epoch m.obj.id
  else raiseSeq s ((tget s.ce.ledger m.obj.id).map (·.ctx) |>.getD 0) evLatchOrphaned 0 m.obj.id m.owner

/-- HOME_MOVED at the manager: the ledger names the new home (R285). -/
def homeMovedMgr (s : State) (src : Nat) (m : LMsg) : State :=
  match (if isMgr s then tget s.ce.ledger m.obj.id else none) with
  | some e =>
    let s := modCe s fun c => { c with reqs := c.reqs.filter fun kv => !(kv.2.sub == mPromote && kv.2.dst == src && kv.2.a == e.home) }
    let s := (ledgerPut s (.seq m.obj.id (some { e with home := src }))).2
    if e.home = src then s else sendX s e.home 2 (.moved m.obj.id)
  | none => s

/-! ### Region directory and assignment -/

/-- A region is registered or leaves the directory; answered when the replicas hold it (R287). -/
def regionDirIn (s : State) (src req addr c created : Nat) (gone : Bool) : State :=
  if isMgr s = false then answerX s src 0 req sTargetDead []
  else if !gone && decide (s.ce.regionDir.length ≥ 8388608) then answerX s src 0 req sNoFit [13]
  else
    let (ids, s) := ledgerPut s (.region addr (if gone then none else some (c, created)))
    let (o, s) := outX s src 0 (.answer req sOk [])
    gateOn s ids o

/-- The object a LATCH_QUERY, LATCH_ASSIGN or HINGE_OFFER names. -/
def cmdObj (c : Cmd) : Obj := if wbit c.w2 0 then ⟨true, c.w1.toNat⟩ else ⟨false, c.w1.toNat % 2 ^ 32⟩

/-- LATCH_ASSIGN (R282): only at the manager; forwarded to the home. -/
def opLatchAssign (id : Nat) (c : Cmd) (s : State) : State :=
  let o := cmdObj c
  let home := if o.region then some (o.id / 2 ^ 44) else (tget s.ce.ledger o.id).map (·.home)
  if isMgr s = false then fail s id sInvalidParam 0
  else match home with
    | none => fail s id sInvalidParam 0
    | some h =>
      askL (pend s id (.latch 0)) h { lmsg mLatchAssign o (fld c.w3 31 0) with receiver := fld c.w2 20 1 } (.assign id)

/-- HINGE_DONE or HINGE_REVERTED reaches the manager: its LATCH_ASSIGN for the object completes (R282). -/
def assignEnds (s : State) (o : Obj) (status pos : Nat) : State :=
  ((s.host.opens.filter fun x => x.opcode == 0x5B && cmdObj x.cmd == o).map (·.id)).foldl (fun s id =>
    let s := dropReq s (.assign id)
    if status = sOk then finishOk s id
    else finish s id status (if status = sHingeReverted then 2 else 0) (if status = sStaleEpoch then pos else 0) 0) s

end Sys2Proof.Machine
end

