-- ==== Sys2Proof/Machine/Tier.lean ====
section
/-! DEFINITION. Tier 2: slots (R49, R155–R157), spill and prefetch (R158, R159, R174), tier policy (R161), background
spill (R57), the writes to a sequence's home they cause (R269, R285), and compressed summaries (R171–R173). -/
namespace Sys2Proof.Machine

/-! ### Writes to the home (R269, R285) -/

/-- Write to a sequence's tables at its home, at the owner's epoch. While the home is unreachable the write is held. -/
def homeSend (s : State) (q : Nat) (w : HomeW) (use : ReqUse) : Nat × State :=
  match seqOf s q with
  | none => (0, s)
  | some x =>
    if thas s.ce.unreach x.home then
      let id := s.ce.reqCtr
      let (o, s) := outX s x.home 2 (.home id q x.epoch w)
      (id, modCe s fun c => { c with
        reqCtr := (id + 1) % 2 ^ 32, held := c.held ++ [(q, o)], reqs := tput c.reqs id ⟨x.home, 0, q, 0, 2 ^ 40, s.now, use⟩ })
    else askX s x.home 2 q (fun i => .home i q x.epoch w) use

/-- Index of a page in its layer's block table (R48): ordinal by TOKEN_BASE × groups + head group. -/
def entryIndex (x : Seq) (p : PageRef) : Nat :=
  (x.pages.filter fun r => r.layer == p.layer && r.hg == p.hg && decide (r.base < p.base)).length * groups x.geo + p.hg

/-- The table entry of a page, for the home. -/
def entryOfPage (x : Seq) (p : PageRef) : Nat × Nat × Nat := (p.layer, entryIndex x p, p.entry.toNat)

/-- Replace a handle or locator wherever this controller names it, and tell the sequences' homes: the owner rewrites the
home's tables, a holder tells the owners (R158 step 3, R159 step 3). -/
def repoint (s : State) (old new : Word) : State :=
  let own := (s.pg.seqs.filter fun kv => kv.2.pages.any fun p => p.entry == old).map (·.1)
  let others := ((s.pg.index.filter fun h => h.entry == old && h.owner != self s).map fun h => (h.owner, h.seq)).eraseDups
  let mine := (s.pg.index.filter fun h => h.entry == old && h.owner == self s).map (·.seq)
  let s := modPg s fun p => { p with
    index := p.index.map (fun h => if h.entry = old then { h with entry := new } else h),
    seqs := p.seqs.map fun kv => (kv.1, { kv.2 with
      pages := kv.2.pages.map fun r => if r.entry = old then { r with entry := new } else r }) }
  let s := (own ++ mine).eraseDups.foldl (fun s q => (homeSend s q (.repoint old.toNat new.toNat) (.table q)).2) s
  others.foldl (fun s o => sendX s o.1 5 (.repoint o.2 old.toNat new.toNat)) s

/-! ### Slots and policy (R155, R157, R161) -/

/-- First byte of port i's range in the tier-2 window. -/
def portBase (s : State) (i : Nat) : Nat := ((List.range i).map (portGib s)).foldl (· + ·) 0 * 2 ^ 30
/-- The port whose range holds a whole slot; none for one that would span two ranges. -/
def slotPort (s : State) (n : Nat) : Option Nat := (List.range 3).find? fun i =>
  decide (portBase s i ≤ n * slotBytes ∧ n * slotBytes + slotBytes ≤ portBase s i + portGib s i * 2 ^ 30)

/-- Whether a slot of port i lies on device d (R456). -/
def slotOnDevice (s : State) (i d n : Nat) : Bool :=
  match s.gl.cxl[i]? with
  | none => false
  | some x =>
    let lo := portBase s i + ((x.devices.take d).foldl (· + ·) 0) * 2 ^ 20
    decide (lo < n * slotBytes + slotBytes ∧ n * slotBytes < lo + x.devices.getD d 0 * 2 ^ 20)

/-- Whether a slot of port i lies on a device that is gone. -/
def slotGone (s : State) (i n : Nat) : Bool :=
  match s.gl.cxl[i]? with
  | none => false
  | some x => x.gone.any fun d => slotOnDevice s i d n

/-- Whether a slot may be allocated: free, within one port's range, the port up, and not the port's marker (R157). -/
def slotFree (s : State) (n : Nat) : Bool :=
  !thas s.pg.slots n && (match slotPort s n with
    | some i => rbit s rMcTierPorts 0 (52 + i) && decide (portBase s i + 64 ≤ n * slotBytes) && !slotGone s i n
    | none => false)

/-- Slots context c holds. -/
def slotsOf (s : State) (c : Nat) : Nat := tcount s.pg.slots (·.ctx == c)

/-- Whether context c has a tier 2 for new spills and copies: enabled, MODE not NONE, quota not reached (R161, R176). -/
def tierFor (s : State) (c : Nat) : Bool :=
  rbit s rMcTierCtrl 0 0 && rf s rMcTierPolicy c 1 0 != 2 &&
    (rf s rMcTierPolicy c 27 2 == 0 || decide (slotsOf s c < rf s rMcTierPolicy c 27 2))

/-- TTL of a pause when the command gives 0 (R161). -/
def defaultTtl (s : State) (c : Nat) : Nat := let t := rf s rMcTierPolicy c 44 28; if t = 0 then 600 else t

/-- Range check of SET_TIER_POLICY. -/
def tierCheck (c : Cmd) (s : State) : Option (Nat × Nat) :=
  match namedCtx s (fld c.w1 7 0) with
  | some e => some e
  | none => if fld c.w1 9 8 = 3 ∨ fld c.w2 42 26 > 86400 then some (sInvalidParam, 0) else none

/-- Put a tier policy in force. -/
def tierApply (s : State) (c : Cmd) : State :=
  let x := fld c.w1 7 0
  let w := rdReg s rMcTierPolicy x 0
  let ttl := if fld c.w2 42 26 = 0 then 600 else fld c.w2 42 26
  touch (wrReg s rMcTierPolicy x 0 (setFld (setFld (setFld w 1 0 (fld c.w1 9 8)) 27 2 (fld c.w2 25 0)) 44 28 ttl)) (3000 + x)

/-- SET_TIER_POLICY outside a transaction: at the next step boundary. -/
def opSetTierPolicy (id : Nat) (c : Cmd) (s : State) : State :=
  defer (finishOk s id) (.context (fld c.w1 7 0)) (.setTierPolicy c)

/-- Whether a block-table entry is of type 0b10 or 0b11, or names a slot beyond the window, or here beyond the attached capacity
(R49). -/
def badEntry (s : State) (w : Word) : Bool :=
  match entryOf w with
  | .bad => true
  | .slot ep n => decide (ep = self s ∧ slotsTotal s ≤ n)
  | .page _ _ _ _ => false

/-! ### Spill (R158) -/

/-- The write of a spilled page to its slot, under a lease on its frame (R158 step 2). -/
def spillWrite (s : State) (f n : Nat) : State :=
  let s := stackAccess (lease s f) (frame s f).ctx (frameAddr f) frameBytes
  wrMem (copyMem s (frameAddr f) (slotAddr n) frameBytes) (slotAddr n + frameBytes) (trailerBytes (trailer s f))

/-- Spills that waited for a lease, now to be had, go on (R43). -/
def spillsLeased (s : State) : State :=
  s.pg.spills.foldl (fun s x =>
    if x.leased ∨ canLease s x.frame = false then s
    else spillWrite (modPg s fun p => { p with
      spills := p.spills.map fun y => if y = x then { y with leased := true } else y }) x.frame x.slot) s

/-- Start a spill of the page in frame f for sequence q: a slot, a lease, and the write; with 65,535 leases on the frame it waits for one
(R43). Returns the slot. A poisoned page is not sent on (R151), and stays; a spill that finds no slot is counted (R158). -/
def spillStart (s : State) (f q : Nat) : Option Nat × State :=
  let c := (frame s f).ctx
  if tierFor s c = false ∨ (frame s f).st ≠ .sealed ∨ s.pg.spills.any (·.frame == f) then (none, s)
  else if pagePoisoned s f then (none, bump (notePoison s f) rMcTierCnt c 63 32 1)
  else match pick s (slotFree s) 0 (Nat.max 1 (slotsTotal s)) with
    | (none, s) => (none, bump s rMcTierCnt c 63 32 1)
    | (some n, s) =>
      let free := canLease s f
      let s := setSlot (if free then spillWrite s f n else s) n ⟨0, 0, c, q, 0, trailer s f⟩
      (some n, modPg s fun p => { p with spills := p.spills ++ [⟨f, n, q, free⟩] })

/-- A spill fails: the page stays SEALED in its frame, the slot is released (R158), and a pause counts it as kept (R174). -/
def spillFail (s : State) (x : Spill) : State :=
  let s := if x.leased then unlease s x.frame else s
  let s := modPg s fun p => { p with
    slots := tdel p.slots x.slot, spills := p.spills.filter fun y => y.slot != x.slot
    holdJobs := p.holdJobs.map fun j => if j.seq = x.seq ∧ j.kind = 0 ∧ 0 < j.done then { j with done := j.done - 1, kept := j.kept + 1 } else j
    reports := tmod p.reports x.seq fun r => if r.kind = 0 ∧ 0 < r.done then { r with done := r.done - 1, kept := r.kept + 1 } else r }
  bump s rMcTierCnt (frame s x.frame).ctx 63 32 1

/-- Steps 3 and 4 of a spill: the tables name the slot, the reference count moves to it, and the frame goes to
FREE-PENDING. A page whose last reference was dropped is abandoned: slot and frame both go through grace (R174). -/
def spillDone (s : State) (x : Spill) : State :=
  let r := frame s x.frame
  let s := unlease s x.frame
  let s := modPg s fun p => { p with spills := p.spills.filter fun y => y.slot != x.slot }
  if r.st ≠ .sealed then releaseSlot s x.slot
  else
    let s := setSlot s x.slot { (slot s x.slot).getD ⟨0, 0, 0, 0, 0, noTrailer⟩ with state := 1, refs := r.refs }
    let s := repoint s (handle (self s) x.frame r.gen) (locator (self s) x.slot)
    toPending s x.frame

/-! ### Prefetch (R159) -/

/-- FREE frames a prefetch or admission must leave. -/
def lowMark (s : State) : Nat := rf s rPgFreeWm 0 24 0

/-- Start a prefetch of a slot into a new frame; none when no frame can be taken. -/
def prefetchStart (s : State) (n q : Nat) : Option Nat × State :=
  match slot s n with
  | none => (none, s)
  | some t =>
    if t.state ≠ 1 ∨ freeFrames s < lowMark s + 1 ∨ mayTake s t.ctx 1 = false ∨ s.pg.prefetches.any (·.slot == n) then (none, s)
    else match takeFrame s .opened t.ctx .none q with
      | (none, s) => (none, s)
      | (some f, s) => (some f, modPg s fun p => { p with prefetches := p.prefetches ++ [⟨n, f, q⟩] })

/-- A trailer that goes with a copied page: its own GENERATION, no row statistics (R39). -/
def copyTrailer (s : State) (f : Nat) (t : Trailer) (st : Nat) : Trailer :=
  { t with gen := (frame s f).gen, statsRef := 0, state := st }

/-- The checks R40 makes of the page in a slot: HEADER_CRC, PAYLOAD_CRC, and fields no page has. -/
def slotFaults (s : State) (n : Nat) (t : Trailer) : List Nat :=
  (if t.headerCrc ≠ headerCrc t then [0] else []) ++
  (if t.payloadCrc ≠ crc32c (rdMem s (slotAddr n) frameBytes) then [1] else []) ++
  (if t.state ≥ 6 ∨ t.ptCode = 3 then [2] else [])

/-- Whether a slot's page is a poisoned sealed page: the slot is lost or not held (R157), or its page fails a check. -/
def slotBad (s : State) (n : Nat) : Bool :=
  match slot s n with
  | some t => t.state == 3 || t.state == 2 || slotFaults s n t.trailer != []
  | none => true

/-- A prefetch stops with its page still in its slot (R174): the port is down. -/
def prefetchStop (s : State) (x : Prefetch) : State :=
  toPending (modPg s fun p => { p with prefetches := p.prefetches.filter fun y => y.slot != x.slot }) x.frame

/-- A slot read into its frame completes (R159 steps 2 to 4). A read in error is counted and issued again (R163). A CRC failure
leaves a poisoned page: the frame is released and the slot is marked lost. -/
def prefetchDone (s : State) (x : Prefetch) (ok : Bool) : State :=
  match slot s x.slot with
  | none => prefetchStop s x
  | some t =>
    if t.state ≠ 1 then prefetchStop s x
    else if ok = false then bump s rMcTierCnt t.ctx 63 32 1
    else
      let s := modPg s fun p => { p with prefetches := p.prefetches.filter fun y => y.slot != x.slot }
      let bad := slotFaults s x.slot t.trailer
      let s := stackAccess (copyMem s (slotAddr x.slot) (frameAddr x.frame) frameBytes) t.ctx (frameAddr x.frame) frameBytes
      if bad.isEmpty = false then setSlot (toPending (bad.foldl pgErr s) x.frame) x.slot { t with state := 3 }
      else
        let s := setFrame s x.frame { frame s x.frame with st := .sealed, refs := t.refs }
        let s := setTrailer s x.frame { copyTrailer s x.frame t.trailer 3 with statsRef := t.trailer.statsRef }
        let s := repoint s (locator (self s) x.slot) (handle (self s) x.frame (frame s x.frame).gen)
        releaseSlot s x.slot

/-! ### Reports (R166, R168, R170) -/

/-- Local frame a table entry names here, and local slot. -/
def localFrame (s : State) (w : Word) : Option Nat := match entryOf w with
  | .page ep f g _ => if ep = self s ∧ (frame s f).gen = g then some f else none
  | _ => none
def localSlot (s : State) (w : Word) : Option Nat := match entryOf w with
  | .slot ep n => if ep = self s then some n else none
  | _ => none

/-- Entries of a sequence that name pages held here: in the owner's working table and in the holding index. -/
def entriesHere (s : State) (q : Nat) : List Word :=
  (((((seqOf s q).map (·.pages)).getD []).map (·.entry)) ++ (s.pg.index.filter (·.seq == q)).map (·.entry)).eraseDups.filter
    fun w => (localFrame s w).isSome || (localSlot s w).isSome

/-- Priority class and PLACE of a sequence, as its owner sends them with its shards (R160). -/
def hintOf (x : Seq) : Nat := x.priority + (if x.noSpill then 8 else if x.early then 16 else 0)

/-- The hint of a page here: of its sequence when this controller owns it, else of the holding that names it. -/
def hintAt (s : State) (q f : Nat) : Option Nat :=
  match seqOf s q with
  | some x => some (hintOf x)
  | none => (s.pg.index.find? fun h => localFrame s h.entry == some f).map (·.hint)

/-- Whether a hint says NO_SPILL. -/
def hintPins (h : Nat) : Bool := h / 8 == 1

/-- Whether every slot is held: tier 2 is full. -/
def tierFull (s : State) : Bool := decide (slotsTotal s ≤ s.pg.slots.length)

/-- Start every spill a pause asks of this controller (R166 step 3): pages with reference count 1 and NO_SPILL 0, until tier 2 is
full. The number started, or already on their way, and the number kept. -/
def spillAll (s : State) (q : Nat) : (Nat × Nat) × State :=
  let r := ((entriesHere s q).filterMap (localFrame s)).foldl (fun (a : (Nat × Nat × Bool) × State) f =>
    let r := frame a.2 f
    if r.st ≠ .sealed then a
    else if a.2.pg.spills.any (·.frame == f) then ((a.1.1 + 1, a.1.2), a.2)
    else if r.refs ≠ 1 ∨ a.1.2.2 ∨ (hintAt a.2 q f).any hintPins then ((a.1.1, a.1.2.1 + 1, a.1.2.2), a.2)
    else match spillStart a.2 f q with
      | (some _, s) => ((a.1.1 + 1, a.1.2), s)
      | (none, s) => ((a.1.1, a.1.2.1 + 1, tierFull s), s)) ((0, 0, false), s)
  ((r.1.1, r.1.2.1), r.2)

/-- Start the prefetch of every spilled page of a sequence held here, lowest layer first, then lowest TOKEN_BASE (R168
step 3). -/
def prefetchAll (s : State) (q : Nat) : State :=
  let ns := (entriesHere s q).filterMap (localSlot s)
  let key (n : Nat) : Nat × Nat := match slot s n with | some t => (t.trailer.layer, t.trailer.tokenBase) | none => (0, 0)
  let ns := sortBy (fun a b : Nat => decide ((key a).1 < (key b).1 ∨ ((key a).1 = (key b).1 ∧ (key a).2 ≤ (key b).2))) ns
  ns.foldl (fun s n => (prefetchStart s n q).2) s

/-- Pages of a sequence here that are still in tier 2. -/
def leftHere (s : State) (q : Nat) : Nat := ((entriesHere s q).filterMap (localSlot s)).length

/-- Whether transfers of a sequence are in progress here. -/
def movingHere (s : State) (q : Nat) : Bool := s.pg.spills.any (·.seq == q) || s.pg.prefetches.any (·.seq == q)

/-! ### Background spill and spill candidates (R57, R160) -/

/-- Rank of a local sealed page for spilling: priority class of its sequence, SPILL_EARLY, seal time. none when it may not be
spilled, or is poisoned. -/
def spillRank (s : State) (f : Nat) : Option (Nat × Nat × Nat) :=
  let r := frame s f
  if r.st ≠ .sealed ∨ r.leases ≠ 0 ∨ tierFor s r.ctx = false ∨ s.pg.spills.any (·.frame == f) then none
  else
    let t := trailer s f
    if t.layer = 0xFFFF ∨ (s.pg.index.any fun h => localFrame s h.entry == some f) ∨
        (s.pg.seqs.any fun kv => kv.2.pages.any fun p => localFrame s p.entry == some f) then
      match hintAt s t.seq f with
      | some h => if hintPins h ∨ pagePoisoned s f then none else some (h % 8, b2n (h / 8 != 2), t.sealTime)
      | none => none
    else none

/-- Whether rank a is spilled before rank b: lowest class first, SPILL_EARLY first in a class, then oldest SEAL_TIME. -/
def rankBefore (a b : Nat × Nat × Nat) : Bool :=
  decide (b.1 < a.1 ∨ (a.1 = b.1 ∧ (a.2.1 < b.2.1 ∨ (a.2.1 = b.2.1 ∧ a.2.2 ≤ b.2.2))))

/-- The next page to spill. -/
def spillNext (s : State) : Option Nat :=
  (s.pg.frames.foldl (fun (best : Option (Nat × (Nat × Nat × Nat))) kv =>
    match spillRank s kv.1, best with
    | some r, none => some (kv.1, r)
    | some r, some b => if rankBefore r b.2 && r != b.2 then some (kv.1, r) else some b
    | none, b => b) none).map (·.1)

/-- Spill the next candidate for a refill or in the background (R57 step 1); whether one was started. -/
def spillOne (s : State) : Bool × State :=
  match (if tierFull s then none else spillNext s) with
  | none => (false, s)
  | some f => match spillStart s f (trailer s f).seq with
    | (some _, s) => (true, bump s rPgFallbackCnt 0 31 0 1)
    | (none, s) => (false, s)

/-- Background spill: started below PG_FREE_WM.LOW, until FREE frames exceed HIGH (R57). -/
def backgroundSpill (s : State) : State :=
  let run := rbit s rPgCtrl 0 1 &&
    (decide (freeFrames s < lowMark s) || (s.pg.bgSpill && decide (freeFrames s ≤ rf s rPgFreeWm 0 49 25)))
  let s := modPg s fun p => { p with bgSpill := run }
  if run then (spillOne s).2 else s

/-! ### Rows in a format (R35, R68, R71, R75) -/

/-- A row of values written in a format: element bytes, scale bytes, saturations counted, NaN seen. -/
structure RowOut where
  elems : List Byte
  scales : List Byte
  sats : Nat
  nan : Bool
deriving DecidableEq, Repr

/-- Groups of 32 values. -/
def blocks32 (vs : List Num) : Nat → List (List Num)
  | 0 => []
  | n + 1 => if vs.isEmpty then [] else vs.take 32 :: blocks32 (vs.drop 32) n

/-- Write a row of values in a format, rounding to nearest, or with the 16-bit random values given (R71, R75, R76). -/
def rowOut (f : Nat) (vs : List Num) (rnds : Option (List Nat)) : RowOut :=
  if f = 5 ∨ f = 6 then
    let bs := blocks32 vs (vs.length / 32 + 1)
    let ms := (List.range bs.length).map fun i => mxBlock f (bs.getD i []) (rnds.map fun l => l.drop (32 * i))
    ⟨packRow f (ms.flatMap (·.elems)), ms.map fun m => byte m.scale, (ms.map (·.sats)).foldl (· + ·) 0, ms.any (·.nan)⟩
  else
    let cs := vs.map (convert f)
    ⟨packRow f (cs.map (·.code)), [], (cs.filter (·.sat)).length, cs.any (·.nan)⟩

/-- Values of the row of token t of head h of a page at an address: K (region 0) or V (region 1). -/
def pageRow (s : State) (addr : Nat) (g : Geometry) (region h t : Nat) : List Num :=
  rowValues g.format (rdMem s (addr + rowOffset g region h t) (rowBytes g))
    (if g.format = 5 ∨ g.format = 6 then rdMem s (addr + scaleRowOffset g region h t) (g.headDim / 32) else []) g.headDim

/-- Write one row of values into a page at an address. -/
def putPageRow (s : State) (addr : Nat) (g : Geometry) (region h t : Nat) (r : RowOut) : State :=
  let s := wrMem s (addr + rowOffset g region h t) r.elems
  if g.format = 5 ∨ g.format = 6 then wrMem s (addr + scaleRowOffset g region h t) r.scales else s

/-- Bytes of a page in MXFP4: B of R172. -/
def summaryBytes (g : Geometry) : Nat := 2 * g.hpp * ptRows g.ptCode * g.headDim * 17 / 32

/-- Count a context's saturated elements (R71). -/
def noteSats (s : State) (c n : Nat) : State := if n = 0 then s else wf (bump s rTeSatcnt c 47 0 n) rTeNumstat c 1 1 1

/-- Copy a page's rows between formats and addresses (R171, R173); the saturations counted. A page already in MXFP4 goes as it
is. -/
def convertPage (s : State) (src dst : Nat) (g g' : Geometry) (rows : Nat) : Nat × State :=
  let s := cuWork s src (2 * g.hpp * rows * rowBytes g)
  if g = g' then (0, copyMem s src dst (summaryBytes g)) else
  (List.range (2 * g.hpp * rows)).foldl (fun (a : Nat × State) i =>
    let region := i / (g.hpp * rows)
    let h := i / rows % g.hpp
    let t := i % rows
    let r := rowOut g'.format (pageRow a.2 src g region h t) none
    (a.1 + r.sats, putPageRow a.2 dst g' region h t r)) (0, s)

/-! ### Compressed summaries (R171–R173) -/

/-- Geometry of a summary's pages: the page's own, in MXFP4. -/
def mx4Geo (g : Geometry) : Geometry := { g with format := 6 }

/-- Context, address and trailer of the page an entry names here, and its reference count; none where it may not be read: it is
poisoned, moving, or not sealed. -/
def pageHere (s : State) (w : Word) : Option (Nat × Nat × Trailer × Nat) :=
  match localFrame s w, localSlot s w with
  | some f, _ => if (frame s f).st ≠ .sealed ∨ pagePoisoned s f then none else some ((frame s f).ctx, frameAddr f, trailer s f, (frame s f).refs)
  | none, some n => if slotBad s n then none else (slot s n).map fun t => (t.ctx, slotAddr n, t.trailer, t.refs)
  | none, none => none

/-- Add the summary of a page, read at an address: to the last frame of its (layer, head group) with room, or a new one. false when no
frame is free. -/
def summarise (s : State) (q : Nat) (w : Word) (c a : Nat) (t : Trailer) (h : Option Holding) : Bool × State :=
  let g := trailerGeo t
  let b := summaryBytes g
  let n := Nat.min 8 (frameBytes / b)
  let same := s.pg.sums.filter fun e => e.seq == q && e.layer == t.layer && e.hg == t.hg
  let place := match same.getLast? with
    | some e => if e.index + 1 < n then some (e.frame, e.index + 1) else none
    | none => none
  let r : Option (Nat × Nat) × State := match place with
    | some p => (some p, s)
    | none => match takeFrame s .system c .summary q with
      | (some x, s) =>
        (some (x, 0), setTrailer s x { noTrailer with
          seq := q, layer := t.layer, hg := t.hg, format := 6, state := 3, tokenBase := t.tokenBase, gen := (frame s x).gen,
          ptCode := t.ptCode, headsM1 := t.headsM1, headDim := t.headDim, context := t.context, producer := t.producer })
      | (none, s) => (none, s)
  match r with
  | (none, s) => (false, s)
  | (some (x, i), s) =>
    let (sats, s) := convertPage s a (frameAddr x + i * b) g (mx4Geo g) (ptRows g.ptCode)
    let s := noteSats s c sats
    let s := stackAccess (stackAccess s c a (2 * g.hpp * ptRows g.ptCode * rowBytes g)) c (frameAddr x + i * b) b
    let s := setTrailer s x { trailer s x with payloadCrc := crc32c (payload s x) }
    let ent : SumEntry := ⟨q, t.layer, t.hg, t.tokenBase, t.fill, x, i, t, w,
      (h.map (·.stripe)).getD 0, (h.map (·.shard)).getD 0, (h.map (·.owner)).getD (self s), (h.map (·.hint)).getD 0⟩
    (true, modPg s fun p => { p with sums := p.sums ++ [ent] })

/-- Drop one reference to the page an entry names here. -/
def dropPage (s : State) (w : Word) : State :=
  match localFrame s w, localSlot s w with
  | some f, _ => dropRef s f
  | none, some n => dropSlotRef s n
  | none, none => s

/-- A holder's part of a pause in BRINGUP, TEST or RECOVERY (R171): each page with reference count 1, in a frame or a slot, is
condensed, or dropped where KV is not kept; parity pages are freed. A poisoned page is not read, and stays (log entry 106). Counts
of pages freed and kept. -/
def summariseAll (s : State) (q : Nat) : (Nat × Nat) × State :=
  (entriesHere s q).foldl (fun (a : (Nat × Nat) × State) w =>
    let s := a.2
    let h := s.pg.index.find? fun h => h.entry == w && h.seq == q
    let drop (s : State) : State := dropPage (modPg s fun p => { p with index := p.index.filter fun x => !(x.seq == q && x.entry == w) }) w
    match pageHere s w with
    | none => ((a.1.1, a.1.2 + b2n (((localFrame s w).map fun f => (frame s f).st == .sealed).getD true)), s)
    | some (c, addr, t, refs) =>
      if refs ≠ 1 then ((a.1.1, a.1.2 + 1), s)
      else if t.layer = 0xFFFF ∨ (t.format ≠ 6 ∧ t.headDim % 32 ≠ 0) then ((a.1.1 + 1, a.1.2), drop s)
      else match summarise s q w c addr t h with
        | (true, s) => ((a.1.1 + 1, a.1.2), drop s)
        | (false, s) => ((a.1.1, a.1.2 + 1), s)) ((0, 0), s)

/-- Kind of a sequence's summary (R171): 0 exact, 1 LOSSY, 2 token log only. -/
def summaryKind (g : Geometry) : Nat := if g.format = 6 then 0 else if g.headDim % 32 = 0 then 1 else 2

/-- Whether a sequence's summary here is usable: no frame of it is poisoned (R173). -/
def summaryUsable (s : State) (q : Nat) : Bool :=
  (s.pg.sums.filter (·.seq == q)).all fun e => (frame s e.frame).use == .summary && !framePoisoned s e.frame

/-- Free a sequence's summary frames here. -/
def freeSummary (s : State) (q : Nat) : State :=
  let fs := ((s.pg.sums.filter (·.seq == q)).map (·.frame)).eraseDups
  let s := fs.foldl dropSystem s
  modPg s fun p => { p with sums := p.sums.filter (·.seq != q) }

/-- Restore a sequence's summary pages here into new frames (R173): exact, or widened to the storage format; the trailers
come from the summary index. The number that found no frame. -/
def restoreSummary (s : State) (q : Nat) : Nat × State :=
  let es := s.pg.sums.filter (·.seq == q)
  let r := es.foldl (fun (a : Nat × State) e =>
    match takeFrame a.2 .opened e.trailer.context .none q with
    | (none, s) => (a.1 + 1, s)
    | (some f, s) =>
      let g := trailerGeo e.trailer
      let (sats, s) := convertPage s (frameAddr e.frame + e.index * summaryBytes g) (frameAddr f) (mx4Geo g) g e.fill
      let s := stackAccess (stackAccess s e.trailer.context (frameAddr e.frame) (summaryBytes g)) e.trailer.context (frameAddr f)
        (2 * g.hpp * ptRows g.ptCode * rowBytes g)
      let s := noteSats s e.trailer.context sats
      let s := setFrame s f { frame s f with st := .sealed }
      let s := setTrailer s f { copyTrailer s f e.trailer 3 with payloadCrc := crc32c (payload s f) }
      let w := handle (self s) f (frame s f).gen
      let own := e.owner == self s && (seqOf s q).isSome && e.stripe == 0 && e.shard == 0
      let s := if own then s else modPg s fun p => { p with
        index := p.index ++ [⟨q, e.layer, e.hg, e.entry, e.tokenBase, e.fill, false, e.stripe, e.shard, e.owner, e.trailer.context, e.hint⟩] }
      (a.1, repoint s e.entry w)) (0, s)
  (r.1, freeSummary r.2 q)

/-! ### Views (R176) -/

/-- MC[s]_STATUS as read (R154, R423, R429): until READY ends a reset a stack that has power is UNTRAINED, then TRAINING; a warm
reset holds it in self-refresh from 5 µs to 5 ms and then checks its training. -/
def viewMcStatus (s : State) (k : Nat) : Nat :=
  let w := (rdReg s rMcStatus k 0).toNat
  let dt := s.now - s.gl.resetAt
  if s.gl.phase ≠ 1 ∨ bits w 2 0 = 4 then w
  else if s.gl.warm then (if dt < 5000 then w else setBits w 2 0 (if dt < 5000000 then 3 else 1))
  else setBits w 2 0 (b2n (decide (66000000 ≤ dt)))

/-- MC_TIER_STATUS. -/
def viewTierStatus (s : State) : Nat := slotsTotal s + (slotsTotal s - s.pg.slots.length) * 2 ^ 26

/-- MC_TIER_USE of a context: slots held. -/
def viewTierUse (s : State) (c : Nat) : Nat := slotsOf s c

end Sys2Proof.Machine
end

