-- ==== Sys2Proof/Machine/Power.lean ====
section
/-! DEFINITION. Power: measurement, pacing, sprint, wear and sleep (R31, R400–R415, R418). -/
namespace Sys2Proof.Machine

def modPower (s : State) (f : PowerS → PowerS) : State := modGl s fun g => { g with power := f g.power }


def inSprint (s : State) : Bool := rbit s rPmStatus 0 0
def windDown (s : State) : Bool := rbit s rPmStatus 0 1

/-! ### Limits (R408, R409) -/

/-- The limit in force, in W. -/
def limitNow (s : State) : Nat :=
  if inSprint s && !windDown s then 1400
  else
    let cap := rf s rPmCap 0 10 0
    let l := if inSprint s then 1100 else if cap = 0 then 1100 else Nat.min 1100 cap
    match s.gl.power.thermLimit with
    | some t => Nat.min l t
    | none => l

/-- PM_CAP.LIMIT_W follows the limit in force. -/
def limitNote (s : State) : State := wf s rPmCap 0 26 16 (limitNow s)

/-- One adjustment of the duties (R408). -/
def paceOnce (s : State) (p : Nat) : State :=
  let lim := limitNow s
  let te := rf s rPmPace 0 8 0
  let st := rf s rPmPace 0 17 9
  if p > lim then
    if te > 64 then wf s rPmPace 0 8 0 (Nat.max 64 (te - 16))
    else if st > 128 then wf s rPmPace 0 17 9 (Nat.max 128 (st - 16))
    else s
  else if p * 100 < lim * 98 then
    if st < 256 then wf s rPmPace 0 17 9 (Nat.min 256 (st + 16))
    else wf s rPmPace 0 8 0 (Nat.min 256 (te + 16))
  else s

def paceN (s : State) (p : Nat) : Nat → State
  | 0 => s
  | n + 1 => paceN (paceOnce s p) p n

/-- Whether a stack in service reports at least c °C. -/
def stackHot (s : State) (c : Nat) : Bool :=
  (List.range 24).any fun k => !stackDead s k && decide (c ≤ rf s rMcStatus k 15 8)

/-- Whether a die sensor reads at least c °C. -/
def dieHot (s : State) (c : Nat) : Bool := (List.range 12).any fun d => decide (c ≤ rf s rPmDieTemp d 7 0)

/-- PACING_TICK (R408, R409): p is the 1 ms average of package power and now the present power, in W. Readings are whole
degrees, so one that is below its limit is 1 °C below it. -/
def pacingTick (s : State) (p now : Nat) : State :=
  let on := !inSprint s && (dieHot s (rf s rPmTherm 0 6 0) || stackHot s (rf s rPmTherm 0 14 8))
  let s := modPower s fun x => { x with thermLimit := if on then some (now * 95 / 100) else none }
  let s := wf s rPmStatus 0 3 3 (b2n on)
  let s := paceN (limitNote s) p (if windDown s && p > 1100 then 16 else 1)
  let paced := decide (rf s rPmPace 0 8 0 < 256) || decide (rf s rPmPace 0 17 9 < 256)
  let s := wf s rPmStatus 0 2 2 (b2n (paced && !on))
  if paced then
    let us := s.gl.power.pacedUs + 100
    let s := modPower s fun x => { x with pacedUs := us % 1000 }
    if us ≥ 1000 then bump s rPmPace 0 63 32 1 else s
  else s

/-! ### Wear (R415) -/

/-- Residency up to now is added to the current slot while the rate points are at sprint. -/
def wearAccrue (s : State) : State :=
  let s := if inSprint s then
      modPower s fun x => { x with slots := x.slots.set x.slot (x.slots.getD x.slot 0 + (s.now - x.resAt)) }
    else s
  modPower s fun x => { x with resAt := s.now }

def wearUsedNs (s : State) : Nat := s.gl.power.slots.foldl (· + ·) 0 + s.gl.power.expired

/-- Wear budget left, in ms. -/
def wearLeftMs (s : State) : Nat := (12960 * 1000000000 - wearUsedNs s) / 1000000

/-- WEAR_SLOT_CHANGE: the window moves on by a slot; one that ends during a sprint is not credited until its end. The
slots are checkpointed. -/
def wearSlot (s : State) : State :=
  if s.now < s.gl.power.slotAt + 900000000000 then s
  else
  let s := wearAccrue s
  let s := modPower s fun x =>
    let n := (x.slot + 1) % 97
    { x with
      expired := if inSprint s then x.expired + x.slots.getD n 0 else 0,
      slots := x.slots.set n 0, slot := n, slotAt := x.slotAt + 900000000000 }
  flashDue s (.wear s.gl.power.slots s.gl.power.slot)

/-- PM_WEAR: USED_S and SLOT. -/
def viewPmWear (s : State) : Nat :=
  setBits (setBits (rdReg s rPmWear 0 0).toNat 13 0 (sat 14 (wearUsedNs s / 1000000000))) 34 28 s.gl.power.slot

/-! ### Sprint (R410–R413, R418) -/

/-- The checks of R410 in ascending detail: the first that fails. -/
def sprintCheck (s : State) : Option Nat :=
  let grant := rf s rPmSprintCtrl 0 31 16
  if (List.range 24).any fun k => !stackDead s k && !rbit s rMcStatus k 4 then some 1
  else if wearLeftMs s < grant then some 2
  else if rf s rPmSprintRemain 0 47 24 < grant ∨ s.gl.power.rearm = true then some 3
  else if rf s rPmElec 0 11 0 < 560 ∨ (s.gl.power.excursions.any fun t => decide (s.now < t + 100000000)) = true then some 4
  else if rf s rPmCap 0 10 0 ≠ 0 ∧ rf s rPmCap 0 10 0 < 1100 then some 5
  else if rbit s rPmStatus 0 4 = false then some 6
  else if rbit s rPmSprintCtrl 0 0 = false then some 7
  else none

/-- The detail of R410 for an ending cause. -/
def causeDetail : Nat → Nat
  | 2 => 3
  | 3 => 4
  | 4 => 2
  | 5 => 5
  | 6 => 6
  | _ => 7

def nomMv (s : State) : Nat := rf s rPmVse 0 9 0
def sprMv (s : State) : Nat := rf s rPmVse 0 19 10
def nowMv (s : State) : Nat := rf s rPmVse 0 29 20

/-- A SPRINT_REQUEST is denied (R410). -/
def sprintDeny (s : State) (id d : Nat) : State := fail (bump s rPmSprintCnt 0 31 16 1) id sSprintDenied d

/-- Every request waiting for its boundary is denied, and VDD_SE returns to NOM_MV (R411, R418). -/
def sprintDrop (s : State) (d : Nat) : State :=
  match s.gl.power.asks with
  | [] => s
  | l =>
    let s := modPower s fun x => { x with asks := [], target := nomMv s }
    let s := modHost s fun h => { h with deferred := h.deferred.filter fun x => match x.act with
      | .sprintBegin _ => false
      | _ => true }
    l.foldl (fun s x => sprintDeny s x.1 d) s

/-- The requests whose setpoint is reached wait for the next device-wide boundary. -/
def sprintReady (s : State) : State :=
  if nowMv s = sprMv s ∧ s.gl.power.target = sprMv s then
    match s.gl.power.asks with
    | [] => s
    | (id, _) :: _ => if s.host.deferred.any fun x => x.act == .sprintBegin id then s else defer s .device (.sprintBegin id)
  else s

/-- SPRINT_REQUEST (R410, R411, R418). -/
def opSprintRequest (id : Nat) (c : Cmd) (s : State) : State :=
  let max := fld c.w1 31 0
  if windDown s then sprintDeny s id (causeDetail (s.gl.power.cause.getD 0))
  else if inSprint s then finishOk (modPower s fun x => { x with maxMs := max, maxFrom := s.now }) id
  else match sprintCheck s with
    | some d => sprintDeny s id d
    | none =>
      let s := pend s id .sprint
      sprintReady (modPower s fun x => { x with asks := x.asks ++ [(id, max)], target := sprMv s })

/-- Both rate points change (R29): to sprint or back to nominal. -/
def ratePoint (s : State) (on : Bool) : State :=
  let s := wf (wearAccrue s) rPmStatus 0 0 0 (b2n on)
  (List.range 24).foldl (fun s k => if stackDead s k then s else wf s rMcStatus k 3 3 (b2n on)) s

/-- The boundary where sprint begins: checked again, then the change and the final replies (R410, R411). -/
def sprintBegin (s : State) : State :=
  match sprintCheck s with
  | some d => sprintDrop s d
  | none =>
    let l := s.gl.power.asks
    let s := ratePoint s true
    let s := modPower s fun x => { x with
      asks := [], maxMs := (l.getLast?.map (·.2)).getD 0, maxFrom := s.now, cause := none, thermLimit := none }
    let s := limitNote (bump s rPmSprintCnt 0 15 0 1)
    l.foldl (fun s x => finishOk s x.1) s

/-- An ending cause is reached: 2 to 7 wind down first; the end comes at the next device-wide boundary (R413). A cause
reached earlier stands (R418). -/
def sprintEnding (s : State) (cause : Nat) : State :=
  if inSprint s && s.gl.power.cause.isNone then
    let s := modPower s fun x => { x with cause := some cause }
    let s := if cause ≥ 2 then limitNote (wf s rPmStatus 0 1 1 1) else s
    defer s .device (.sprintEnd cause)
  else s

/-- The boundary where sprint ends (R413). -/
def sprintEnd (s : State) (cause : Nat) : State :=
  if inSprint s then
    let s := wf (ratePoint s false) rPmStatus 0 1 1 0
    let s := modPower s fun x => { x with
      cause := none, target := nomMv s, expired := 0, rearm := x.rearm || cause == 2, maxMs := 0 }
    let s := limitNote (wf s rPmSprintCnt 0 35 32 cause)
    raiseEdge (raiseDev s evSprintEnd 0 cause 0) irqSprintEnd
  else s

/-- SPRINT_RELEASE: OK also outside sprint; a request waiting for its boundary is denied with detail 7 (R413, R418). -/
def opSprintRelease (id : Nat) (_ : Cmd) (s : State) : State :=
  finishOk (sprintEnding (sprintDrop s 7) 0) id

/-- A setpoint held inside 0.60 V to 0.85 V (R28), in mV. -/
def clampMv (v : Nat) : Nat := Nat.min 850 (Nat.max 600 v)

/-- The on-die timing monitors ask for 5 mV more (true) or less: the setpoint of the clock point in use, and the target that follows
it, move by a step (R28). -/
def monitorStep (s : State) (more : Bool) : State :=
  let hi := s.gl.power.target == sprMv s && s.gl.power.target != nomMv s
  let v := if hi then sprMv s else nomMv s
  let v' := clampMv (if more then v + 5 else v - 5)
  modPower (if hi then wf s rPmVse 0 19 10 v' else wf s rPmVse 0 9 0 v') fun x => { x with target := v' }

/-- SPRINT_VOLTAGE_STEP: what the timing monitors ask of the setpoint, and every 10 µs VDD_SE moves 5 mV toward it (R411, R28). -/
def voltageStep (s : State) (mon : Option Bool) : State :=
  let s := match mon with
    | some more => monitorStep s more
    | none => s
  if s.now < s.gl.power.stepAt + 10000 then s
  else
    let v := nowMv s
    let t := s.gl.power.target
    let v' := if v < t then Nat.min t (v + 5) else Nat.max t (v - 5)
    sprintReady (wf (modPower s fun x => { x with stepAt := s.now }) rPmVse 0 29 20 v')

/-! ### Remaining time (R412) -/

/-- Enclosure of ln(n / d), n ≥ d > 0, in units of 2^−p. -/
def lnIv (n d p : Nat) : Nat × Nat :=
  let k := Nat.log2 (n / d)
  let dk := d * 2 ^ k
  let l2 := atanh2 1 3 p
  let m := atanh2 (n - dk) (n + dk) p
  (k * l2.1 + m.1, k * l2.2 + m.2)

/-- THERMAL_MS with temperatures in mK above 0 °C: 0 at the limit, all ones when the limit is never reached, else
τ · ln((t_ss − t) ÷ (t_ss − l)), truncated and saturating. -/
def thermalMs (tau t tss l : Nat) : Nat :=
  if t ≥ l then 0
  else if tss ≤ l then 0xFFFFFF
  else Nat.min 0xFFFFFF (tau * (lnIv (tss - t) (tss - l) 96).1 / 2 ^ 96)

/-- Steady-state temperature in mK (R412): powers in mW, filtered powers subtracted. -/
def tSteady (s : State) (t p pf pse psef : Nat) : Nat :=
  let rp := rf s rPmThermModel 0 27 16
  let rs := rf s rPmThermModel 0 39 28
  (t * 1000 + rp * p + rs * pse - (rp * pf + rs * psef)) / 1000

/-- Die readings: MAX_C, PEAK_C, the hot-die source, and the penalty of a die at or above 100 °C for 1 s (R302, R365). -/
def dieTemps (s : State) (ts : List Nat) : State :=
  let s := (List.range 12).foldl (fun s d =>
    let t := Nat.min 255 (ts.getD d 0)
    let s := wf s rPmDieTemp d 7 0 t
    let s := if t > rf s rPmDieTemp d 15 8 then wf s rPmDieTemp d 15 8 t else s
    if t ≥ 100 then
      match tget s.gl.power.hotSince d with
      | none => modPower s fun x => { x with hotSince := tput x.hotSince d s.now }
      | some t0 =>
        if t0 + 1000000000 ≤ s.now then
          penalise_ (modPower s fun x => { x with hotSince := tput x.hotSince d s.now }) (48 + d) 128
        else s
    else modPower s fun x => { x with hotSince := tdel x.hotSince d }) s
  let s := wf s rPmStatus 0 15 8 ((List.range 12).foldl (fun a d => Nat.max a (rf s rPmDieTemp d 7 0)) 0)
  setLevel s irqHot (dieHot s 100)

/-- Time left of MAX_MS, when it bounds the sprint. -/
def maxLeftMs (s : State) : Option Nat :=
  if inSprint s && s.gl.power.maxMs != 0 then
    some (s.gl.power.maxMs - (s.now - s.gl.power.maxFrom) / 1000000)
  else none

/-- The causes that hold at an evaluation, in rising code. -/
def endCauses (s : State) (x : Thermal) : List Nat :=
  let beyond := match s.gl.power.overAt with
    | some t => decide (t + 2000000 ≤ s.now)
    | none => false
  ([(1, maxLeftMs s == some 0), (2, rf s rPmSprintRemain 0 47 24 == 0 || stackHot s (rf s rPmTherm 0 14 8)),
    (3, beyond || x.railOver), (4, wearLeftMs s == 0), (5, rf s rPmCap 0 10 0 != 0 && decide (rf s rPmCap 0 10 0 < 1100)),
    (6, !rbit s rPmStatus 0 4), (7, !rbit s rPmSprintCtrl 0 0)].filter (·.2)).map (·.1)

/-- THERMAL_EVAL (R412, R413, R418): once a millisecond, with the frame meters of R330. -/
def thermalEval (s : State) (x : Thermal) : State :=
  let s := dieTemps (wearAccrue s) x.temps
  let s := wf (wf s rPmStatus 0 27 16 (Nat.min 4095 x.pkgW)) rPmStatus 0 39 28 (Nat.min 4095 x.seA)
  let t := Nat.max (rf s rPmDieTemp 0 7 0) (rf s rPmDieTemp 1 7 0)
  let l := rf s rPmTherm 0 6 0
  let p := if inSprint s then x.p else 1330000
  let pse := if inSprint s then x.pse else 211500
  let ms := thermalMs (rf s rPmThermModel 0 15 0) (t * 1000) (tSteady s (t * 1000) p x.pf pse x.psef) (l * 1000)
  let s := wf s rPmSprintRemain 0 47 24 ms
  let rem := Nat.min (Nat.min ms (wearLeftMs s)) ((maxLeftMs s).getD 0xFFFFFF)
  let s := wf s rPmSprintRemain 0 23 0 (Nat.min 0xFFFFFF rem)
  let s := if s.gl.power.rearm && decide (t + rf s rPmSprintCtrl 0 39 32 ≤ l) then
      modPower s fun y => { y with rearm := false }
    else s
  let s := match endCauses s x with
    | [] => s
    | c :: _ => sprintEnding s c
  let s := match (endCauses s x).filter (· ≥ 2) with
    | [] => s
    | c :: _ => if inSprint s then s else sprintDrop s (causeDetail c)
  (List.range 256).foldl (fun s c => if ctxState s c = 0 then s else meter s rMtFrameMs c 0 (framesUsed s c)) s

/-! ### Measuring (R405–R407, R458) -/

/-- POWER_ESTIMATE_TICK (R405, R407, R416): the VDD_SE estimate for the next microsecond in A, package energy of the last
one in µJ, and HOLDUP_SENSE in mV. -/
def estimateTick (s : State) (seA uj sense : Nat) : State :=
  let e := s.gl.power.energyUj + uj
  let s := meterWord (modPower s fun x => { x with energyUj := e % 1000 }) (e / 1000)
  let beyond := decide (seA > 1750)
  let rated := rf s rPmElec 0 11 0
  let s := modPower s fun x => { x with
    stopTiles := beyond,
    excursions := if beyond then s.now :: (x.excursions.filter fun t => decide (s.now < t + 100000000)) else x.excursions,
    overAt := if seA > rated then (if x.overAt.isSome then x.overAt else some s.now) else none }
  let s := if beyond then bump s rPmElec 0 39 24 1 else s
  holdupNote (modFlash s fun f => { f with sense := Nat.min 1500 sense })
where
  /-- PM_ENERGY, a 64-bit count of mJ. -/
  meterWord (s : State) (n : Nat) : State :=
    wrReg s rPmEnergy 0 0 (word ((rdReg s rPmEnergy 0 0).toNat + n))

def vrValid (s : State) (i : Nat) : Bool := rbit s rPmVr0 i 19

/-- TELEMETRY_OK returns once every valid entry has answered 3 polls in a row without a fault (R406). -/
def telemetryBack (s : State) : State :=
  if (List.range 16).all fun i => !vrValid s i || decide (3 ≤ tgetD s.gl.power.polls i 0) then wf s rPmStatus 0 4 4 1 else s

/-- A regulator's STATUS_WORD reports a fault, or it has missed too many polls. -/
def telemetryLost (s : State) (i : Nat) : State :=
  wf (modPower s fun x => { x with polls := tput x.polls i 0 }) rPmStatus 0 4 4 0

/-- PMBUS_POLL (R406): one valid entry's telemetry; none when it does not answer. -/
def pmbusPoll (s : State) (i : Nat) (r : Option Poll) : State :=
  if !vrValid s i then s
  else match r with
    | none =>
      let s := bump s rPmVr1 i 55 48 1
      let s := modPower s fun x => { x with polls := tput x.polls i 0 }
      if rf s rPmVr1 i 55 48 ≥ 3 then telemetryLost s i else s
    | some p =>
      let w := Nat.min 0xFFFF p.vout + Nat.min 0xFFF p.iout * 2 ^ 16 + Nat.min 0xFFF p.pout * 2 ^ 28 + Nat.min 0xFF p.temp * 2 ^ 40
      let s := wrReg s rPmVr1 i 0 (word w)
      let s := modFlash s fun f => { f with vcap := tput f.vcap i p.vcap }
      let s := if rf s rPmHoldupCfg 0 1 0 = 1 then holdupNote s else s
      if p.fault then telemetryLost s i
      else telemetryBack (modPower s fun x => { x with polls := tput x.polls i (Nat.min 3 (tgetD x.polls i 0 + 1)) })

/-- PMB_ALERT (R458): every valid entry's STATUS_WORD is read, and the faults, given by entry, are cleared. -/
def pmbAlert (s : State) (faults : List Nat) : State :=
  (faults.filter (vrValid s)).foldl telemetryLost s

/-! ### Stack temperature (R31) -/

/-- STACK_TEMP_REPORT: TEMP_C, and refresh doubled above 85 °C, counted in the stack's health. -/
def stackTemp (s : State) (k t : Nat) : State :=
  let was := rbit s rMcStatus k 5
  let hot := decide (t > 85)
  let s := wf (wf s rMcStatus k 15 8 (Nat.min 255 t)) rMcStatus k 5 5 (b2n hot)
  if hot && !was then penalise_ s k 128 else s

/-! ### Sleep (R382, R401–R404) -/

/-- The PWR register of a unit class, and its wake latency in ns (R402). -/
def pwrReg : Nat → RegDesc
  | 0 => rTePwr
  | 1 => rXePwr
  | 2 => rTuPwr
  | _ => rCuPwr

def unitCount : Nat → Nat
  | 0 => 64
  | 1 => 64
  | 2 => 16
  | _ => 24

def wakeNs : Nat → Nat
  | 0 => 3000
  | _ => 2000

def unitKey (cls n : Nat) : Nat := cls * 2 ^ 8 + n

/-- SE die of a unit of classes 0 to 2. -/
def unitDie (cls n : Nat) : Nat := n / (unitCount cls / 2)

def isGated (s : State) (cls n : Nat) : Bool := s.gl.sleep.gated.contains (unitKey cls n)

/-- Units of a die whose gating stops its PLL. -/
def dieUnits (die : Nat) : List (Nat × Nat) :=
  [0, 1, 2].flatMap fun c => (List.range (unitCount c / 2)).map fun i => (c, die * (unitCount c / 2) + i)

/-- When a unit's idle time began: at the work last given to it, or at the end of what it runs (R402). -/
def unitIdleFrom (s : State) (cls n : Nat) : Nat :=
  Nat.max (tgetD s.gl.sleep.lastWork (unitKey cls n) 0) ((tget s.mt.runs (unitKey cls n)).elim 0 (·.ends))

/-- UNIT_IDLE_GATE (R402): a unit idle for GATE_THRESH_US is power-gated when GATE_EN is 1. -/
def unitGate (s : State) (cls n : Nat) : State :=
  let r := pwrReg cls
  if n < unitCount cls ∧ rbit s r n 0 = true ∧
      unitIdleFrom s cls n + rf s r n 23 4 * 1000 ≤ s.now then
    let s := modSleep s fun x => { x with gated := addSorted (unitKey cls n) x.gated }
    if cls < 3 ∧ (dieUnits (unitDie cls n)).all (fun u => isGated s u.1 u.2) = true ∧
        thas s.gl.sleep.pllIdle (unitDie cls n) = false then
      modSleep s fun x => { x with pllIdle := tput x.pllIdle (unitDie cls n) s.now }
    else s
  else s

/-- PLL_STOP (R401). -/
def pllStop (s : State) (die : Nat) : State :=
  match tget s.gl.sleep.pllIdle die with
  | some t =>
    if rbit s rPmSleep 0 0 && decide (t + rf s rPmSleep 0 31 16 * 1000000 ≤ s.now) && !s.gl.sleep.plls.contains die then
      modSleep s fun x => { x with plls := addSorted die x.plls }
    else s
  | none => s

/-- Work for a unit: a gated one starts to wake after extra ns, its die's PLL first when it is stopped. Answers whether the
unit can run now. -/
def wakeUnit (s : State) (cls n extra : Nat) : Bool × State :=
  let k := unitKey cls n
  let s := modSleep s fun x => { x with lastWork := tput x.lastWork k s.now }
  if !isGated s cls n then (true, s)
  else if thas s.gl.sleep.waking k then (false, s)
  else
    let die := unitDie cls n
    let stopped := cls < 3 && s.gl.sleep.plls.contains die
    let s := if stopped && !thas s.gl.sleep.pllWake die then
        modSleep s fun x => { x with pllWake := tput x.pllWake die (s.now + 25000) }
      else s
    let from_ := if stopped then tgetD s.gl.sleep.pllWake die s.now else s.now
    (false, modSleep s fun x => { x with waking := tput x.waking k (from_ + extra + wakeNs cls) })

/-- UNIT_WAKE_DONE: a unit's wake latency has passed. -/
def unitAwake (s : State) (cls n : Nat) : State :=
  let k := unitKey cls n
  match tget s.gl.sleep.waking k with
  | some t =>
    if t ≤ s.now ∧ ¬ (cls < 3 ∧ s.gl.sleep.plls.contains (unitDie cls n) = true) then
      modSleep s fun x => { x with
        waking := tdel x.waking k, gated := x.gated.filter (· != k),
        pllIdle := if cls < 3 then tdel x.pllIdle (unitDie cls n) else x.pllIdle }
    else s
  | none => s

/-- PLL_RESTART_DONE: a stopped PLL locks after 25 µs, at the rate point in force. -/
def pllDone (s : State) (die : Nat) : State :=
  match tget s.gl.sleep.pllWake die with
  | some t =>
    if t ≤ s.now then
      modSleep s fun x => { x with plls := x.plls.filter (· != die), pllWake := tdel x.pllWake die }
    else s
  | none => s

/-- Wake the tile engines of both dies in groups of 8, one group every 0.5 µs, and the codec units of some stacks (R403). -/
def wakeForPane (s : State) (ks : List Nat) : State :=
  let s := (List.range 64).foldl (fun s n => (wakeUnit s 0 n (n % 32 / 8 * 500)).2) s
  ks.foldl (fun s k => (wakeUnit s 3 k 0).2) s

/-- STACK_SELF_REFRESH (R404): a READY stack without an access for SR_IDLE_US. -/
def stackSleep (s : State) (k : Nat) : State :=
  if rbit s rPmSleep 0 1 && rf s rMcStatus k 2 0 == 2 && decide (tgetD s.mt.stackAt k 0 + rf s rPmSleep 0 47 32 * 1000 ≤ s.now) then
    wf s rMcStatus k 2 0 3
  else s

/-- SRAM_RETENTION (R382): a bank whose AUTO bit is 1 enters retention once nothing has used it or kept it awake for IDLE_US. -/
def sramRetain (s : State) (b : Nat) : State :=
  if rbit s rSpBankPwr (b / 64) (b % 64) && !sramBusy s &&
      decide (Nat.max s.mt.sramAt (tgetD s.mt.bankAt b 0) + rf s rSpRetCtrl 0 15 0 * 1000 ≤ s.now) then
    wrReg s rSpBankState (b / 64) 0 (word ((rdReg s rSpBankState (b / 64) 0).toNat ||| 2 ^ (b % 64)))
  else s

/-- SRAM_BANK_WAKE: the wake of a bank ends. -/
def bankAwake (s : State) (b : Nat) : State :=
  match tget s.gl.sleep.bankWake b with
  | some t =>
    if t ≤ s.now then
      let s := modSleep s fun x => { x with bankWake := tdel x.bankWake b }
      wrReg s rSpBankState (b / 64) 0 (setFld (rdReg s rSpBankState (b / 64) 0) (b % 64) (b % 64) 0)
    else s
  | none => s

end Sys2Proof.Machine
end

