-- ==== Sys2Proof/Machine/Regions.lean ====
section
/-! DEFINITION. Regions at their home and at their owner: REGION_CREATE, REGION_MODIFY with the messages they take
(R207, R209, R210, R213, R232, R271, R274, R287), and an owner's own leases (R273, R274). -/
namespace Sys2Proof.Machine

/-! ### An owner's leases (R273, R274) -/

/-- Send LEASE_RENEW to a home, which starts the lease when there is none. -/
def renewTo (s : State) (home : Nat) : State :=
  if home = self s then s
  else
    let l := tgetD s.ce.own home ⟨[], none, false⟩
    sendL (modCe s fun c => { c with own := tput c.own home { l with sent := l.sent ++ [s.now] } }) home
      (lmsg mLeaseRenew ⟨false, 0⟩ 0)

/-- The exchange that made this controller owner counts as its first renewal, sent at a time (R274). -/
def leaseFrom (s : State) (home at_ : Nat) : State :=
  if home = self s then s
  else modCe s fun c => { c with own := tput c.own home (match tget c.own home with
    | none => ⟨[], some at_, false⟩
    | some l => { l with acked := some (Nat.max at_ (l.acked.getD 0)), lapsed := false }) }

/-- Homes of what this controller owns, other than itself. -/
def ownHomes (s : State) : List Nat :=
  (((s.pg.seqs.map fun kv : Nat × Seq => kv.2.home) ++ (s.ce.regs.map fun kv : Nat × OwnReg => kv.1 / 2 ^ 44)).filter (· != self s)).eraseDups

/-- Whether this controller's lease at a home holds now (R274). -/
def ownLease (s : State) (home : Nat) : Bool :=
  home == self s || (match tget s.ce.own home with
    | some l => l.acked.isSome && !l.lapsed
    | none => false)

/-- LEASE_ACK (R274): it acknowledges the oldest renewal not yet acknowledged. STALE_EPOCH means the lease had expired at
the home: the owner asks the home about everything it owns there. -/
def leaseAck (s : State) (src : Nat) (m : LMsg) : State :=
  match tget s.ce.own src with
  | none => s
  | some l => match l.sent with
    | [] => s
    | t :: rest =>
      if m.status = sOk then
        modCe s fun c => { c with own := tput c.own src { sent := rest, acked := some (Nat.max t (l.acked.getD 0)), lapsed := decide (t + leaseNs s ≤ s.now) } }
      else
        let s := modCe s fun c => { c with own := tput c.own src { l with sent := rest, lapsed := true } }
        let s := (s.pg.seqs.filter fun kv => kv.2.home == src).foldl (fun s kv =>
          askL s src (lmsg mLatchQuery ⟨false, kv.1⟩ kv.2.epoch) (.query ⟨false, kv.1⟩)) s
        (s.ce.regs.filter fun kv => kv.1 / 2 ^ 44 == src).foldl (fun s kv =>
          askL s src (lmsg mLatchQuery ⟨true, kv.1⟩ kv.2.epoch) (.query ⟨true, kv.1⟩)) s

/-- LEASE_RENEW_TIMER (R273): every RENEW_MS each home is renewed. -/
def leaseTimer (s : State) : State :=
  if s.now < s.ce.renewAt + renewNs s then s
  else (ownHomes s).foldl renewTo (modCe s fun c => { c with renewAt := s.now })

/-- OWNER_LEASE_EXPIRY (R274): no acknowledgement for TIMEOUT_MS. The owner pads its slots, issues no rack access there
and queries the home. -/
def ownerExpiry (s : State) (home : Nat) : State :=
  match tget s.ce.own home with
  | none => s
  | some l => match l.acked with
    | none => s
    | some t =>
      if l.lapsed ∨ s.now < t + leaseNs s then s
      else
        let s := modCe s fun c => { c with own := tput c.own home { l with lapsed := true } }
        let s := (s.pg.seqs.filter fun kv => kv.2.home == home).foldl (fun s kv =>
          askL s home (lmsg mLatchQuery ⟨false, kv.1⟩ kv.2.epoch) (.query ⟨false, kv.1⟩)) s
        (s.ce.regs.filter fun kv => kv.1 / 2 ^ 44 == home).foldl (fun s kv =>
          askL s home (lmsg mLatchQuery ⟨true, kv.1⟩ kv.2.epoch) (.query ⟨true, kv.1⟩)) s

/-! ### REGION_CREATE (R207, R287) -/

/-- A region comes into being in its 32 frames (R207): zeroed memory, a Latch at epoch 1, and the request to the cell manager to list
it. -/
def regionNew (id : Nat) (c : Cmd) (s : State) (owner mode : Nat) : State :=
  let base := c.w1.toNat
  let f0 := base / frameBytes
  let s := (List.range 32).foldl (fun s i =>
    setFrame s (f0 + i) ⟨.system, (frame s (f0 + i)).gen, 0, 0, 0, cCtx c, .region, base⟩) s
  let s := zeroMem s base 0x200000
  let s := modPg s fun p => { p with poison := p.poison.filter fun x => x < base || base + 0x200000 ≤ x }
  let s := setRegion s base ⟨owner, 0, mode, cCtx c, 1, 0, 0, false, [], none, owner == self s, s.now, 0, (0, 0), false, none⟩
  let a := self s * 2 ^ 44 + base
  (askX (waitFor s id (.latch id)) (mgrEp s) 0 a (fun i => .regionDir i a (cCtx c) s.now false) (.regionDir a id)).2

/-- REGION_CREATE (R207): 32 frames, the record, and the entry of the cell manager's region directory, which the reply
waits for. -/
def opRegionCreate (id : Nat) (c : Cmd) (s : State) : State :=
  let base := c.w1.toNat
  let f0 := base / frameBytes
  let owner := if fld c.w2 19 0 = 0 then self s else fld c.w2 19 0
  let mode := fld c.w2 21 20
  if base % 0x200000 ≠ 0 ∨ f0 ≥ numFrames ∨ mode = 3 ∨ (mode = 2 ∧ rbit s rFlQuadStatus 0 0 = false) ∨ cCtx c = 0 then
    fail s id sInvalidParam 0
  else if mayTake s (cCtx c) 32 = false then fail s id sNoFit 1
  else if (List.range 32).any fun i => !isFree s (f0 + i) then fail s id sNoPage 1
  else if mode = 2 ∧ coherentCount s ≥ 512 then fail s id sNoFit 6
  else regionNew id c s owner mode

/-- The directory holds the new region: its owner learns of it, and the command completes. -/
def regionListed (s : State) (a id : Nat) : State :=
  match tget s.fab.regions (a % 2 ^ 44) with
  | none => s
  | some r =>
    let s := if r.owner = self s then modCe s fun c => { c with regs := tput c.regs a ⟨r.ctx, 1, 0⟩ }
      else sendX s r.owner 2 (.regionOwner a r.ctx 1)
    finish s id sOk 0 1 0

/-- The directory did not take the region: nothing of it remains. -/
def regionUnlisted (s : State) (a id status detail : Nat) : State :=
  match tget s.fab.regions (a % 2 ^ 44) with
  | none => s
  | some r => fail (regionApply s (a % 2 ^ 44) r true 0) id status detail

/-- An endpoint learns that it owns a region of another home: it renews at once, and its lease is valid once that is
acknowledged (R274). -/
def regionOwnerIn (s : State) (a c epoch : Nat) : State :=
  let s := modCe s fun x => { x with regs := tput x.regs a ⟨c, epoch, 0⟩ }
  renewTo (raiseCtx s c evRegionGained 0 epoch a) (a / 2 ^ 44)

/-! ### REGION_MODIFY (R209, R210, R213, R232, R271) -/

/-- What the home checks of a change by a source: the status, detail and position it fails with. -/
def regionModCheck (s : State) (src c a epoch : Nat) (destroy : Bool) (mode : Nat) : Option (Nat × Nat × Nat) :=
  match (if a / 2 ^ 44 = self s ∧ a % 0x200000 = 0 then tget s.fab.regions (a % 2 ^ 44) else none) with
  | none => some (sOwnershipFault, 3, 0)
  | some r =>
    if r.ctx ≠ c then some (sOwnershipFault, 6, 0)
    else if r.owner ≠ src ∨ r.epoch ≠ epoch then some (sStaleEpoch, 0, r.owner + r.epoch * 2 ^ 32)
    else if r.latch = 2 then some (sOwnershipFault, 5, 0)
    else if mode = 3 ∨ (destroy = false ∧ mode = 2 ∧ rbit s rFlQuadStatus 0 0 = false) ∨ r.recallOp.isSome then
      some (sInvalidParam, 0, 0)
    else if destroy = false ∧ mode = 2 ∧ r.mode ≠ 2 ∧ coherentCount s ≥ 512 then some (sNoFit, 6, 0)
    else none

/-- Make a checked change: at once, or after the recall of every cached line. Whether it is made. -/
def regionModRun (s : State) (a id : Nat) (destroy : Bool) (mode : Nat) : Bool × State :=
  let base := a % 2 ^ 44
  match tget s.fab.regions base with
  | none => (true, s)
  | some r =>
    let lines := cachedLines s base
    if r.mode = 2 ∧ (destroy ∨ mode ≠ 2) ∧ lines.isEmpty = false then
      let s := setRegion s base { r with recallOp := some (id, destroy, mode) }
      (false, lines.foldl (recallLine fun s i m l => cohSend s i m (self s * 2 ^ 44 + l) (quadSelf s) 0 false []) s)
    else (true, regionApply s base r destroy mode)

/-- Number of a change asked for by another endpoint, as a recall records it. -/
def remoteMod (src req : Nat) : Nat := 2 ^ 60 + src * 2 ^ 32 + req

/-- The directory drops a destroyed region (R287). -/
def regionGone (s : State) (a : Nat) : State :=
  if thas s.fab.regions (a % 2 ^ 44) then s
  else (askX s (mgrEp s) 0 a (fun i => .regionDir i a 0 0 true) .plain).2

/-- A change is made: its submitter is answered. A number from 2^61 is a region that goes with its context (R315). -/
def regionModDone (s : State) (id : Nat) : State :=
  if id < 2 ^ 60 then
    (match openCmd s id with
    | none => s
    | some o =>
      let a := o.cmd.w1.toNat
      let s := if wbit o.cmd.w2 0 then modCe (regionGone s a) fun c => { c with regs := tdel c.regs a } else s
      finishOk s id)
  else if id ≥ 2 ^ 61 then regionGone s (self s * 2 ^ 44 + (id - 2 ^ 61))
  else answerX s ((id - 2 ^ 60) / 2 ^ 32) 2 ((id - 2 ^ 60) % 2 ^ 32) sOk []

/-- A change asked for by the owner at another endpoint. -/
def regionModIn (s : State) (src req a c epoch : Nat) (destroy : Bool) (mode : Nat) : State :=
  match regionModCheck s src c a epoch destroy mode with
  | some (st, d, pos) => answerX s src 2 req st [d, pos]
  | none =>
    let (done, s) := regionModRun s a (remoteMod src req) destroy mode
    if done then answerX (if destroy then regionGone s a else s) src 2 req sOk [] else s

/-- Answer the changes whose recall has ended. -/
def recallsEnd (s : State) : State :=
  let ids := s.fab.recalled
  ids.foldl (fun s id => regionModDone s id) (modFab s fun f => { f with recalled := [] })

/-- REGION_MODIFY and REGION_DESTROY at the owner: at the home itself, or asked of it after LATCH_QUERY (R271), which the
home's own check of owner and epoch stands for when the two travel together. -/
def opRegionModify (id : Nat) (c : Cmd) (s : State) : State :=
  let a := c.w1.toNat
  let destroy := wbit c.w2 0
  let mode := fld c.w2 2 1
  let epoch := fld c.w2 63 32
  if a / 2 ^ 44 = self s then
    match regionModCheck s (self s) (cCtx c) a epoch destroy mode with
    | some (st, d, pos) => finish s id st d pos 0
    | none =>
      let (done, s) := regionModRun s a id destroy mode
      if done then regionModDone s id else pend s id (.recallOp (a % 2 ^ 44))
  else (askX (waitFor s id (.latch id)) (a / 2 ^ 44) 2 a (fun i => .regionMod i a (cCtx c) epoch destroy mode) (.regionMod id)).2

end Sys2Proof.Machine
end

