-- ==== Sys2Proof/Machine/Holder.lean ====
section
/-! DEFINITION. What a controller does for sequences owned elsewhere: holder of stripe pages (R102, R276, R290), of
summaries (R171–R173), mirror partner (R55, R295), token-log holder (R15, R47), and its part of pauses and resumes
(R166–R170). -/
namespace Sys2Proof.Machine

/-! ### Pages held for others (R102) -/

/-- References to the page an entry names here. -/
def pageRefs (s : State) (w : Word) : Nat :=
  match localFrame s w, localSlot s w with
  | some f, _ => (frame s f).refs
  | none, some n => ((slot s n).map (·.refs)).getD 0
  | none, none => 0

/-- Raise the reference count of the page an entry names here. -/
def incPage (s : State) (w : Word) : State :=
  match localFrame s w, localSlot s w with
  | some f, _ => setFrame s f { frame s f with refs := (frame s f).refs + 1 }
  | none, some n => (match slot s n with
    | some t => setSlot s n { t with refs := t.refs + 1 }
    | none => s)
  | none, none => s

/-- Drop every holding of a sequence and the references they hold; how many there were. -/
def dropHoldings (s : State) (q : Nat) : Nat × State :=
  let hs := s.pg.index.filter (·.seq == q)
  let s := hs.foldl (fun s h => dropPage s h.entry) s
  (hs.length, modPg s fun p => { p with index := p.index.filter (·.seq != q) })

/-- A shard of a stripe arrives (R102, R289, R290): it replaces an earlier copy of the same shard, and takes a frame of
the context. A context that is not ACTIVE gets no new frame (R315). -/
def shardIn (s : State) (src req : Nat) (p : PageCopy) : State :=
  let c := p.trailer.context
  let old := s.pg.index.filter fun h => h.seq == p.seq && h.stripe == p.stripe && h.shard == p.shard
  let s := old.foldl (fun s h => dropPage s h.entry) s
  let s := modPg s fun g => { g with index := g.index.filter fun h => !(h.seq == p.seq && h.stripe == p.stripe && h.shard == p.shard) }
  if ctxState s c ≠ 1 then answerX s src 4 req sInvalidContext []
  else if mayTake s c 1 = false then answerX s src 4 req sNoPage []
  else match takeFrame s .sealed c .none p.seq with
    | (none, s) => answerX s src 4 req sNoPage []
    | (some f, s) =>
      let s := stackAccess (wrMem s (frameAddr f) p.bytes) c (frameAddr f) p.bytes.length
      let s := setTrailer s f (copyTrailer s f p.trailer 3)
      let w := handle (self s) f (frame s f).gen
      let h : Holding := ⟨p.seq, p.trailer.layer, p.trailer.hg, w, p.trailer.tokenBase, p.trailer.fill, p.parity, p.stripe, p.shard, src, c, p.hint⟩
      answerX (modPg s fun g => { g with index := g.index ++ [h] }) src 4 req sOk [w.toNat]

/-! ### References (R61–R63, R276) -/

/-- REF_ACK to a requester. -/
def refAck (s : State) (dst : Nat) (m : CMsg) (st n : Nat) : State := sendC s dst ⟨mRefAck, st, m.req, m.obj, n, 0, 0⟩

/-- REF_INC: the parent's pages that cover positions below L are shared with the child; none when a count would pass
65,535 (R62). A page shared so lies in no stripe of the child. -/
def refInc (s : State) (src : Nat) (m : CMsg) : State :=
  let hs := s.pg.index.filter fun h => h.seq == m.obj && !h.parity && decide (h.base < m.b)
  if hs.any fun h => decide (pageRefs s h.entry ≥ 65535) then refAck s src m sNoFit 0
  else
    let s := hs.foldl (fun s h => incPage s h.entry) s
    let add := hs.map fun h => { h with seq := m.a, owner := src, stripe := 2 ^ 32 }
    refAck (modPg s fun g => { g with index := g.index ++ add }) src m sOk hs.length

/-- REF_DEC: the sequence's references, holding-index entries and summary go. -/
def refDec (s : State) (src : Nat) (m : CMsg) : State :=
  let (n, s) := dropHoldings s m.obj
  refAck (freeSummary s m.obj) src m sOk n

/-- REF_DROP: one page of the sequence, when the holding index lists it. A handle of this endpoint
that the index does not list has the check of R37, which records a stale one. -/
def refDrop (s : State) (src : Nat) (m : CMsg) : State :=
  if pageTooHigh (word m.a) then refAck s src m sInvalidParam 0 else
  match s.pg.index.find? fun h => h.seq == m.obj && h.entry.toNat == m.a with
  | none => refAck (if m.a / 2 ^ 44 = self s then noteStale s (handleCheck s (word m.a)) else s) src m sOk 0
  | some h =>
    let s := modPg s fun g => { g with index := delFirst (fun x => x.seq == h.seq && x.entry == h.entry) g.index }
    refAck (dropPage s h.entry) src m sOk 1

/-! ### Transfers of a pause or resume (R166, R168, R170, R173, R299) -/

/-- What the journal calls a holder's part of a pause or resume. -/
def migrateOf (q kind : Nat) : JrWait := .migrate q (kind == 1)

/-- Start the transfers of a holder's job once its journal operation has started. -/
def holdRun (s : State) (q kind : Nat) : State :=
  let s := match jrFind s (migrateOf q kind) with | some op => jrPhase s op 2 0 | none => s
  if kind = 0 then
    let ((n, k), s) := spillAll s q
    modPg s fun p => { p with holdJobs := p.holdJobs.map fun j => if j.seq = q ∧ j.kind = 0 then { j with done := n, kept := k } else j }
  else prefetchAll s q

/-- Take up a job of a sequence: its transfers start at once, or wait for a journal slot (R297). -/
def holdBegin (s : State) (kind q owner req : Nat) : State :=
  let s := modPg s fun p => { p with holdJobs := p.holdJobs ++ [⟨kind, q, owner, req, 0, 0⟩] }
  match jrStart s jrMigrate (q + kind * 2 ^ 32) 0 (migrateOf q kind) with
  | (some _, s) => holdRun s q kind
  | (none, s) => s

/-- A job ends once no transfer of its sequence is left: its journal operation is done, and the report goes to the
owner (R170). -/
def holdReports (s : State) : State :=
  s.pg.holdJobs.foldl (fun s j =>
    if movingHere s j.seq || s.ce.jrWaits.contains (migrateOf j.seq j.kind) then s
    else
      let s := modPg s fun p => { p with holdJobs := p.holdJobs.filter fun x => !(x.seq == j.seq && x.kind == j.kind) }
      let s := match jrFind s (migrateOf j.seq j.kind) with
        | some op => jrEnd (jrPhase s op 4 j.done) op 5 sOk
        | none => s
      if j.kind = 0 then sendC s j.owner ⟨mSpillReport, sOk, j.req, j.seq, j.done + j.kept * 2 ^ 32, 0, 0⟩
      else sendC s j.owner ⟨mPrefetchReport, sOk, j.req, j.seq, leftHere s j.seq, 0, 0⟩) s

/-- SPILL_REQ (R166 step 3, R171). -/
def spillReq (s : State) (src : Nat) (m : CMsg) : State :=
  if bit m.a 8 then
    let ((n, k), s) := summariseAll s m.obj
    sendC s src ⟨mSpillReport, sOk, m.req, m.obj, n + k * 2 ^ 32, 0, 0⟩
  else holdBegin s 0 m.obj src m.req

/-- PREFETCH_REQ (R168 step 3, R173): a restore of a summary that cannot be used answers LOST_STATE, one that finds no
frame NO_PAGE. A re-prefill frees the summary and whatever of it was restored (R170). -/
def prefetchReq (s : State) (src : Nat) (m : CMsg) : State :=
  let say (s : State) (st : Nat) : State := sendC s src ⟨mPrefetchReport, st, m.req, m.obj, 0, 0, 0⟩
  match bits m.a 9 8 with
  | 0 => holdBegin s 1 m.obj src m.req
  | 3 => say (dropHoldings (freeSummary s m.obj) m.obj).2 sOk
  | _ =>
    if summaryUsable s m.obj then
      let (short, s) := restoreSummary s m.obj
      say s (if short = 0 then sOk else sNoPage)
    else say (freeSummary s m.obj) sLostState

/-- SPILL_WRITE_DONE (R158): the CXL writes of a slot complete, or fail; a page that failed counts as kept. -/
def spillWriteDone (s : State) (n : Nat) (ok : Bool) : State :=
  match s.pg.spills.find? (·.slot == n) with
  | none => s
  | some x =>
    if x.leased = false then s
    else if ok then spillDone s x else spillFail s x

/-! ### Mirror partner (R55, R295) -/

/-- The mirrored page at a place. -/
def mirrorAt (s : State) (q layer hg base : Nat) : Option MirrorE :=
  s.ce.mirrors.find? fun e => e.seq == q && e.layer == layer && e.hg == hg && e.base == base

/-- Release a mirrored page. -/
def mirrorFree (s : State) (e : MirrorE) : State :=
  toPending (modCe s fun c => { c with mirrors := c.mirrors.filter (· != e) }) e.frame

/-- Rows and fills of an OPEN page arrive at the mirror partner; it seals its copy when the owner seals. -/
def mirrorIn (s : State) (src req epoch : Nat) (w : MirrorW) : State :=
  let (ok, s) := fence s w.seq epoch
  if ok = false then answerX s src 2 req sStaleEpoch []
  else
    let r : Option Nat × State := match mirrorAt s w.seq w.layer w.hg w.base with
      | some e => (some e.frame, s)
      | none =>
        if ctxState s w.ctx ≠ 1 ∨ mayTake s w.ctx 1 = false then (none, s)
        else match takeFrame s .opened w.ctx .none w.seq with
          | (none, s) => (none, s)
          | (some f, s) => (some f, modCe s fun c => { c with mirrors := c.mirrors ++ [⟨w.seq, w.layer, w.hg, w.base, f⟩] })
    match r with
    | (none, s) => answerX s src 2 req sNoPage []
    | (some f, s) =>
      let s := w.rows.foldl (fun s r => stackAccess (writeRow s f w.geo r.region r.head r.row r.elems r.scales) w.ctx (frameAddr f) r.elems.length) s
      let g := w.geo
      let s := setTrailer s f { noTrailer with
        seq := w.seq, layer := w.layer, hg := w.hg, format := g.format, state := 2, tokenBase := w.base, fill := w.fill,
        committed := w.committed, gen := (frame s f).gen, ptCode := g.ptCode, headsM1 := g.hpp - 1, headDim := g.headDim,
        scaleOff := scaleOffset g, producer := src, context := w.ctx }
      let s := if w.sealTime = 0 then s
        else let s := sealPage s f; setTrailer s f { trailer s f with sealTime := w.sealTime }
      answerX s src 2 req sOk []

/-- The owner's page left the mirror: dropped at the same step boundary (R295). -/
def mirrorDropIn (s : State) (q layer hg base : Nat) : State :=
  match mirrorAt s q layer hg base with
  | some e => mirrorFree s e
  | none => s

/-- Every mirrored page of a sequence goes. -/
def unmirrorIn (s : State) (q : Nat) : State := (s.ce.mirrors.filter (·.seq == q)).foldl mirrorFree s

/-! ### Token-log holder (R15, R47) -/

/-- Write the frames of a token-log replica: header and entries of each log frame (R45 to R47). -/
def logStore (s : State) (l : LogRep) : State :=
  (List.range l.frames.length).foldl (fun s i =>
    let a := frameAddr (l.frames.getD i 0)
    let es := (l.entries.drop (16380 * i)).take 16380
    let next := match l.frames[i + 1]? with | some f => self s * 2 ^ 44 + frameAddr f | none => 0
    wrMem s a (toLE 8 next ++ toLE 8 (16380 * i + es.length * 2 ^ 32) ++ es.flatMap (toLE 4))) s

/-- Entries of a token log arrive: placed from a position on, what lay beyond is dropped. The answer names the first
frame. -/
def logIn (s : State) (src req q epoch c pos : Nat) (entries : List Nat) : State :=
  let (ok, s) := fence s q epoch
  if ok = false then answerX s src 2 req sStaleEpoch []
  else
    let l := tgetD s.ce.logs q ⟨c, [], []⟩
    if l.entries.length < pos then answerX s src 2 req sInvalidParam []
    else
      let es := l.entries.take pos ++ entries
      match takeFrames s .system 0 .tokenLog q (Nat.max 1 (cdiv es.length 16380) - l.frames.length) with
      | none => answerX s src 2 req sNoPage []
      | some (fs, s) =>
        let l : LogRep := { l with entries := es, frames := l.frames ++ fs }
        let s := logStore (modCe s fun x => { x with logs := tput x.logs q l }) l
        answerX s src 2 req sOk [self s * 2 ^ 44 + frameAddr (l.frames.getD 0 0)]

/-- A token-log replica is freed with its sequence. -/
def logFreeIn (s : State) (q : Nat) : State :=
  match tget s.ce.logs q with
  | none => s
  | some l => modCe (l.frames.foldl dropSystem s) fun x => { x with logs := tdel x.logs q }

/-! ### Sequences that are lost or end -/

/-- Owner and epoch, as RESULT0 of R342 gives them, of a sequence this controller does not own: from its record or a copy of it here, or
as last learned; 0 when it knows none. -/
def ownerKnown (s : State) (q : Nat) : Nat :=
  match tget s.ce.homes q, tget s.ce.copies q, tget s.ce.former q with
  | some h, _, _ => h.owner + h.epoch * 2 ^ 32
  | none, some (_, h), _ => h.owner + h.epoch * 2 ^ 32
  | none, none, some (_, pos) => pos
  | none, none, none => 0

/-- Owner and epoch for the detail words of a STALE_EPOCH slot (R14). Steps are not checked at the home (R271): where nothing here tells the
owner, the words are a free value (log entry 99). -/
def ownerWord (s : State) (q : Nat) : Nat × State :=
  if ownerKnown s q ≠ 0 then (ownerKnown s q, s)
  else let (w, s) := fresh s; (fld w 19 0 + fld w 63 32 * 2 ^ 32, s)

/-- End the slots of running steps that run a sequence, with a status (R14, R293, R314). -/
def slotsEnd (s : State) (q status detail d1 : Nat) : State :=
  modSt s fun t => { t with steps := t.steps.map fun kv => (kv.1, { kv.2 with
    slots := kv.2.slots.map fun x => if x.seq = q ∧ x.run = 1 ∧ kv.2.running = true then
      { x with run := 2, status := status, detail := detail, detail1 := d1, tokens := [] } else x }) }

/-- A slot's write came back fenced: the sequence's slots end with STALE_EPOCH (R14, R272). -/
def slotsFenced (s : State) (q : Nat) : State :=
  let (w, s) := ownerWord s q
  slotsEnd s q sStaleEpoch 0 w

/-- Word that a sequence is lost, at the owner's and the manager's controller (R293): the event, and at the owner the
state and the end of its slots. -/
def lostIn (s : State) (q c : Nat) : State :=
  let s := match seqOf s q with
    | some x => slotsEnd (setSeq s q { x with st := .lostState, endStatus := sLostState }) q sLostState 0 0
    | none => s
  raiseSeq s c evSeqLost sLostState q 0

end Sys2Proof.Machine
end

