-- ==== Sys2Proof/Machine/Seqs.lean ====
section
/-! DEFINITION. The owner's side of a sequence: its descriptor and choice state (R45, R128), its pages and reserve
(R51–R53), its token log (R15, R47), its end and release (R16, R167), and what every command does when the home's record
does not name this controller (R271). -/
namespace Sys2Proof.Machine

/-! ### Descriptor and choice state (R45, R46, R128) -/

/-- STATE codes of R46. -/
def sstateCode : SState → Nat
  | .admitting => 0 | .runnable => 1 | .starved => 2 | .pausing => 3 | .paused => 4 | .resuming => 5 | .cancelled => 6
  | .ended => 7 | .lostState => 8 | .offered => 9
def sstateOf : Nat → SState
  | 0 => .admitting | 1 => .runnable | 2 => .starved | 3 => .pausing | 4 => .paused | 5 => .resuming | 6 => .cancelled
  | 7 => .ended | 8 => .lostState | _ => .offered

/-- The 32 B choice state. -/
def choiceBytes (c : Choice) : List Byte :=
  toLE 8 (c.grammarId % 64 + b2n c.grammarValid * 2 ^ 6 + c.grammarState % 2 ^ 16 * 2 ^ 8 + c.draftLen % 32 * 2 ^ 24 +
    c.reject % 8 * 2 ^ 29 + c.accept % 16 * 2 ^ 32 + c.probe % 64 * 2 ^ 36) ++ List.replicate 24 0

/-- A choice state read from its bytes. It has been created when it is not all zero; that of a sequence whose KV_LENGTH is not 0 has been too
(seqFrom; DESIGN CHOICE, log entry 118). -/
def choiceState (b : List Byte) : Choice :=
  let w := w64At b 0
  ⟨decide (w ≠ 0), bits w 5 0, bit w 6, bits w 23 8, bits w 28 24, bits w 31 29, bits w 35 32, bits w 41 36⟩

/-- The 256 B descriptor of a sequence. -/
def descBytes (q : Nat) (x : Seq) : List Byte :=
  ([q + x.ctx * 2 ^ 32 + sstateCode x.st * 2 ^ 40 + x.priority * 2 ^ 44 + x.endStatus * 2 ^ 48,
    x.length + x.kvLength * 2 ^ 32 + x.pauseCause * 2 ^ 55,
    x.imageId + x.adapterId * 2 ^ 8 + x.adapterVer * 2 ^ 24 + b2n x.hasImage * 2 ^ 40 + b2n x.hasAdapter * 2 ^ 41 +
      b2n x.degradable * 2 ^ 42 + b2n x.noSpill * 2 ^ 43 + b2n x.draft * 2 ^ 44,
    x.geo.layers + x.geo.kvHeads * 2 ^ 16 + x.geo.hpp * 2 ^ 28 + x.geo.headDim * 2 ^ 33 + x.geo.format * 2 ^ 49 + x.geo.ptCode * 2 ^ 53,
    x.btRoot, x.logRep.getD 0 0, x.logRep.getD 1 0, x.logRep.getD 2 0, x.latchRef, x.epoch + x.home * 2 ^ 32, x.ttl, x.expiry,
    x.stripeRef, x.partner, x.created] : List Nat).flatMap (toLE 8) ++ List.replicate 136 0

/-- Descriptor and choice state, as the home and SEQ_QUERY get them. -/
def seqBytes (q : Nat) (x : Seq) : List Byte := descBytes q x ++ choiceBytes x.choice

/-- A sequence with nothing in it yet. -/
def blankSeq : Seq where
  ctx := 0
  st := .admitting
  priority := 0
  endStatus := 0
  length := 0
  kvLength := 0
  pauseCause := 0
  imageId := 0
  adapterId := 0
  adapterVer := 0
  hasImage := false
  hasAdapter := false
  degradable := false
  noSpill := false
  draft := false
  geo := ⟨0, 0, 0, 0, 0, 0⟩
  btRoot := 0
  logRep := []
  latchRef := 0
  epoch := 1
  home := 0
  ttl := 0
  expiry := 0
  stripeRef := 0
  partner := 0
  created := 0
  log := []
  pages := []
  reserve := []
  choice := ⟨false, 0, false, 0, 0, 0, 0, 0⟩
  lossy := false
  summarised := 0
  mirror := 0
  holders := []
  group := 0
  admitNo := 0
  before := .runnable
  ttlAsked := 0
  pauseAsk := false
  hintAsk := false
  cancelAsk := []
  nextStripe := 0
  unstriped := []
  dropNext := []
  prefill := false
  early := false

/-- A sequence read from a descriptor and choice copy (R45, R128). -/
def seqFrom (b : List Byte) : Seq :=
  let w (i : Nat) : Nat := w64At b (8 * i)
  { blankSeq with
    ctx := bits (w 0) 39 32, st := sstateOf (bits (w 0) 43 40), priority := bits (w 0) 46 44, endStatus := bits (w 0) 63 48,
    length := bits (w 1) 22 0, kvLength := bits (w 1) 54 32, pauseCause := bits (w 1) 58 55,
    imageId := bits (w 2) 7 0, adapterId := bits (w 2) 23 8, adapterVer := bits (w 2) 39 24, hasImage := bit (w 2) 40,
    hasAdapter := bit (w 2) 41, degradable := bit (w 2) 42, noSpill := bit (w 2) 43, draft := bit (w 2) 44,
    geo := ⟨bits (w 3) 15 0, bits (w 3) 27 16, bits (w 3) 32 28, bits (w 3) 48 33, bits (w 3) 52 49, bits (w 3) 54 53⟩,
    btRoot := w 4, logRep := [w 5, w 6, w 7], latchRef := w 8, epoch := bits (w 9) 31 0, home := bits (w 9) 51 32,
    ttl := bits (w 10) 16 0, expiry := w 11, stripeRef := w 12, partner := bits (w 13) 31 0, created := w 14,
    choice := (let c := choiceState (slice b 256 32); { c with made := c.made || bits (w 1) 54 32 != 0 }) }

/-- Endpoints of the token-log holders. -/
def logEps (x : Seq) : List Nat := x.logRep.map (· / 2 ^ 44)

/-- The owner writes the descriptor and choice copies at the home (R269). -/
def writeDesc (s : State) (q : Nat) : State :=
  match seqOf s q with
  | some x => (homeSend s q (.desc (seqBytes q x) (logEps x)) (.table q)).2
  | none => s

/-- Whether the offerer of a sequence has sent its offer, so that it writes no state of it (R277). -/
def offerSent (s : State) (q : Nat) : Bool :=
  s.ce.hinges.any fun h => h.obj == ⟨false, q⟩ && (h.offerer && decide (h.phase ≥ 1))

/-- Change a descriptor field: the home's copy follows. -/
def changeSeq (s : State) (q : Nat) (f : Seq → Seq) : State :=
  let s := updSeq s q f
  if offerSent s q then s else writeDesc s q

/-- The owner finds a sequence lost: LOST_STATE, here and at the home (R46, R49, R293). -/
def ownLost (s : State) (q : Nat) : State :=
  match seqOf s q with
  | none => s
  | some x => writeDesc (lostIn s q x.ctx) q

/-- A block-table entry of a sequence is bad: PG_ERR.BAD_TABLE_ENTRY and LOST_STATE (R49). -/
def entryBad (s : State) (q : Nat) : State := ownLost (pgErr s 3) q

/-- An owner learns that a holder moved a page of its sequence. -/
def repointIn (s : State) (q old new : Nat) : State :=
  match seqOf s q with
  | none => s
  | some _ =>
    if badEntry s (word new) then entryBad s q
    else
      let s := updSeq s q fun x => { x with pages := x.pages.map fun r => if r.entry.toNat = old then { r with entry := word new } else r }
      (homeSend s q (.repoint old new) (.table q)).2

/-! ### Pages and reserve (R51–R53) -/

/-- Every (layer, head group) of a geometry. -/
def cells (g : Geometry) : List (Nat × Nat) :=
  (List.range g.layers).flatMap fun l => (List.range (groups g)).map fun h => (l, h)

/-- The (layer, head group) pairs of a sequence without a reserved frame. -/
def bareCells (x : Seq) : List (Nat × Nat) :=
  (cells x.geo).filter fun c => !(x.reserve.any fun r => r.layer == c.1 && r.hg == c.2)

/-- Take reserved frames for pairs, from FREE frames above the low watermark (R53): all or none. -/
def takeReserve (s : State) (c q : Nat) (ps : List (Nat × Nat)) : Option (List Reserve × State) :=
  if freeFrames s < lowMark s + ps.length ∨ mayTake s c ps.length = false then none
  else (takeFrames s .reserved c .none q ps.length).map fun r =>
    (List.zipWith (fun p f => (⟨p.1, p.2, f⟩ : Reserve)) ps r.1, r.2)

/-- Unwritten reserved frames go to FREE-PENDING. -/
def freeReserve (s : State) (rs : List Reserve) : State := rs.foldl (fun s r => toPending s r.frame) s

/-- Fill a sequence's reserve; none when it cannot. -/
def fillReserve (s : State) (q : Nat) : Option State :=
  match seqOf s q with
  | none => none
  | some x => (takeReserve s x.ctx q (bareCells x)).map fun r => updSeq r.2 q fun y => { y with reserve := y.reserve ++ r.1 }

/-- Pages of a sequence that this controller holds as owner, beside those in its holding index. -/
def ownPages (s : State) (q : Nat) (x : Seq) : List PageRef :=
  x.pages.filter fun p => ((localFrame s p.entry).isSome || (localSlot s p.entry).isSome) &&
    !(s.pg.index.any fun h => h.seq == q && h.entry == p.entry)

/-- Endpoints that hold pages of a sequence, this controller left out unless its holding index has some. -/
def holdersOf (s : State) (q : Nat) (x : Seq) : List Nat :=
  let eps := (x.holders ++ x.pages.filterMap fun p => match entryOf p.entry with
    | .page ep _ _ _ => some ep
    | .slot ep _ => some ep
    | _ => none).eraseDups
  eps.filter fun d => d != self s || s.pg.index.any fun h => h.seq == q

/-- Drop the references to the owner's own pages, and its copies waiting for a boundary. -/
def dropOwn (s : State) (q : Nat) : State :=
  match seqOf s q with
  | none => s
  | some x =>
    let s := (ownPages s q x).foldl (fun s p => dropPage s p.entry) s
    let s := x.dropNext.foldl dropRef s
    let s := freeReserve s x.reserve
    updSeq s q fun y => { y with reserve := [], dropNext := [], unstriped := [], pages := y.pages.filter fun p => !((ownPages s q x).contains p) }

/-- Seal the OPEN pages of a sequence with their partial fill (R56); one without a row returns to the reserve. -/
def sealOpen (s : State) (q : Nat) : State :=
  match seqOf s q with
  | none => s
  | some x =>
    (x.pages.filter (·.opened)).foldl (fun s p =>
      match localFrame s p.entry with
      | none => s
      | some f =>
        if p.fill = 0 then
          updSeq (toReserved s f) q fun y => { y with
            pages := y.pages.filter (· != p), reserve := y.reserve ++ [⟨p.layer, p.hg, f⟩] }
        else
          updSeq (sealPage s f) q fun y => { y with
            pages := y.pages.map (fun r => if r == p then { r with opened := false } else r), unstriped := y.unstriped ++ [(p.layer, p.hg, p.base)] }) s

/-! ### Adapters a sequence pins (R141, R142) -/

/-- Release a slot that is no longer current and has no pin (R141). -/
def adapterRelease (s : State) (n : Nat) : State :=
  match tget s.st.adapters n with
  | none => s
  | some a =>
    if a.pins = 0 ∧ (s.st.current.any fun kv => kv.2 == n) = false ∧ a.cmd = 0 then
      let s := a.frames.foldl dropSystem s
      let s := a.slots.foldl releaseSlot s
      modSt s fun t => { t with adapters := tdel t.adapters n }
    else s

/-- The current adapter slot of a context's adapter ID. -/
def adapterNow (s : State) (c id : Nat) : Option (Nat × Adapter) :=
  match tget s.st.current (c * 2 ^ 16 + id) with
  | some n => (tget s.st.adapters n).map fun a => (n, a)
  | none => none

/-- The slot of one version of an adapter. -/
def adapterSlot (s : State) (c id ver : Nat) : Option Nat :=
  (s.st.adapters.find? fun kv => kv.2.ctx == c && kv.2.id == id && kv.2.version == ver && kv.2.loaded).map (·.1)

/-- Whether a sequence pins its adapter's version: until it ends (R141). -/
def pinned (x : Seq) : Bool := x.hasAdapter && !(x.st == .ended || x.st == .cancelled)

/-- Pin, or unpin, a version of an adapter. -/
def pinAdapter (s : State) (c id ver : Nat) : State :=
  match adapterSlot s c id ver with
  | some n => modSt s fun t => { t with adapters := tmod t.adapters n fun a => { a with pins := a.pins + 1 } }
  | none => s
def unpinAdapter (s : State) (c id ver : Nat) : State :=
  match adapterSlot s c id ver with
  | some n => adapterRelease (modSt s fun t => { t with adapters := tmod t.adapters n fun a => { a with pins := a.pins - 1 } }) n
  | none => s

/-! ### The end of a sequence -/

/-- Stop the transfers of a sequence after the page in flight (R16, R167, R174): nothing more is waited for. -/
def stopTransfers (s : State) (q : Nat) : State := modPg s fun p => { p with reports := tdel p.reports q }

/-- The journal operation of a sequence's own pause or resume ends. -/
def migrateEnd (s : State) (q : Nat) (status : Nat) : State :=
  [0, 1].foldl (fun s k => match jrFind s (migrateOf q k) with
    | some op => jrEnd s op 5 status
    | none => modCe s fun c => { c with jrWaits := c.jrWaits.filter (· != migrateOf q k) }) s

/-- Release every reference of a sequence: own pages at once, holders by REF_DEC, the mirror's copies (R16, R167). -/
def releasePages (s : State) (q : Nat) : State :=
  match seqOf s q with
  | none => s
  | some x =>
    let hs := holdersOf s q x
    let s := freeSummary (dropOwn s q) q
    let s := hs.foldl (fun s d => (askC s d mRefDec q 0 0 0 .refDec).2) s
    let s := if x.mirror = 0 then s else sendX s x.mirror 2 (.unmirror q)
    updSeq s q fun y => { y with pages := [], holders := [] }

/-- End a sequence with a status: the state, the event, and commands that wait for its pause or resume. -/
def finishSeq (s : State) (q : Nat) (st : SState) (status : Nat) : State :=
  match seqOf s q with
  | none => s
  | some x =>
    let s := stopTransfers s q
    let s := if pinned x then unpinAdapter s x.ctx x.adapterId x.adapterVer else s
    let s := changeSeq s q fun y => { y with st := st, endStatus := status, pauseAsk := false, hintAsk := false }
    let s := finishAll (finishAll s (.pause q) status 0 0 0) (.resume q) status 0 0 0
    raiseSeq s x.ctx evSeqEnd status q x.length

/-- End a sequence: its pages stay until SEQ_FREE (R46). -/
def endSeq (s : State) (q status : Nat) : State :=
  match seqOf s q with
  | none => s
  | some x =>
    if x.st = .ended ∨ x.st = .cancelled ∨ x.st = .lostState then s
    else
      let s := if status = sLengthLimit then bump s rPgCowCnt 0 47 32 1 else s
      finishSeq s q .ended status

/-- SEQ_CANCEL takes effect (R16): CANCELLED, and every frame goes to FREE-PENDING. -/
def cancelSeq (s : State) (q : Nat) : State :=
  match seqOf s q with
  | none => s
  | some x =>
    if x.st = .ended ∨ x.st = .cancelled ∨ x.st = .lostState then s
    else releasePages (migrateEnd (finishSeq s q .cancelled sCancelled) q sCancelled) q

/-- Forget a sequence: the descriptor, its adapter's pin, requests and jobs made for it. -/
def forgetSeq (s : State) (q : Nat) : State :=
  match seqOf s q with
  | none => s
  | some x =>
    let s := if pinned x then unpinAdapter s x.ctx x.adapterId x.adapterVer else s
    let s := modPg s fun p => { p with seqs := tdel p.seqs q, reports := tdel p.reports q }
    modCe s fun c => { c with
      logJobs := c.logJobs.filter (fun kv => kv.2.seq != q), stripes := c.stripes.filter (fun kv => kv.2.seq != q),
      hinges := c.hinges.filter (fun h => h.obj != ⟨false, q⟩), padded := c.padded.filter (· != q),
      held := c.held.filter (fun h => h.1 != q) }

/-- The draft and the main sequence of each other, when one of them is freed: PARTNER_SEQ is 0 with none (R45). -/
def partnerFreed (s : State) (q : Nat) : State :=
  (tkeys s.pg.seqs fun x => x.partner == q).foldl (fun s p => changeSeq s p fun x => { x with partner := 0 }) s

/-- Free a sequence whose owner this controller is: references, token log and records go, and the Latch is retired
(R270). -/
def freeSeq (s : State) (q : Nat) : State :=
  match seqOf s q with
  | none => s
  | some x =>
    let s := partnerFreed (releasePages s q) q
    let s := (logEps x).foldl (fun s d => sendX s d 2 (.logFree q)) s
    let s := (askX s x.home 2 q (fun i => .retire i q) .plain).2
    forgetSeq s q

/-- Stop treating this controller as owner (R271): its copies are released, and the home with the owner and epoch last learned (RESULT0 of R342) are kept
for later commands. -/
def loseOwner (s : State) (q owner epoch : Nat) : State :=
  match seqOf s q with
  | none => s
  | some x =>
    let pos := owner + epoch * 2 ^ 32
    let s := dropOwn (slotsEnd s q sStaleEpoch 0 pos) q
    let s := finishAll (finishAll s (.pause q) sStaleEpoch 0 pos 0) (.resume q) sStaleEpoch 0 pos 0
    let s := x.cancelAsk.foldl (fun s id => finish s id sStaleEpoch 0 pos 0) s
    modCe (forgetSeq s q) fun c => { c with former := tput c.former q (x.home, pos) }

/-- Adopt a higher epoch the home shows for this owner (R271): an offer that reverted unheard leaves the tail in the
stripe group, and the sequence owes a reserve (R278). -/
def adoptEpoch (s : State) (q epoch : Nat) : State :=
  updSeq s q fun x =>
    if x.st = .offered then { x with epoch := epoch, st := x.before } else { x with epoch := epoch }

/-! ### The token log (R15, R47) -/

/-- Send the entries of a log job to one replica. -/
def logSend (s : State) (job which : Nat) (j : LogJob) (x : Seq) : Nat × State :=
  askX s ((logEps x).getD which 0) 2 j.seq (fun i => .log i j.seq x.epoch x.ctx j.pos j.entries) (.log job which)

/-- Start the oldest waiting write to a sequence's token log, when none is running. -/
def logKick (s : State) (q : Nat) : State :=
  match seqOf s q, s.ce.logJobs.find? (fun kv => kv.2.seq == q) with
  | some x, some (n, j) =>
    if j.waiting.isEmpty = false then s
    else
      let j := { j with pos := x.length }
      let (ids, s) := (List.range 3).foldl (fun (a : List Nat × State) w =>
        let (i, s) := logSend a.2 n w j x
        (a.1 ++ [i], s)) ([], s)
      modCe s fun c => { c with logJobs := tput c.logJobs n { j with waiting := ids } }
  | _, _ => s

/-- Write entries to a sequence's token log for a SEQ_APPEND or for a slot of a step. -/
def logWrite (s : State) (q : Nat) (entries : List Nat) (cmd : Option Nat) (step : Option (Nat × Nat)) : State :=
  let n := s.ce.jobCtr
  logKick (modCe s fun c => { c with jobCtr := n + 1, logJobs := tput c.logJobs n ⟨q, 0, entries, [], cmd, step⟩ }) q

/-- A slot of a step: change it. -/
def modSlot (s : State) (step i : Nat) (f : SlotRun → SlotRun) : State :=
  modSt s fun t => { t with steps := tmod t.steps step fun x => { x with slots := match x.slots[i]? with
    | some y => x.slots.set i (f y)
    | none => x.slots } }

/-- Every replica holds a job's entries: the log grows, and what waited goes on. -/
def logDone (s : State) (n : Nat) (j : LogJob) : State :=
  let s := modCe s fun c => { c with logJobs := tdel c.logJobs n }
  let s := updSeq s j.seq fun x => { x with log := x.log.take j.pos ++ j.entries, length := j.pos + j.entries.length }
  let s := match j.cmd with
    | some id => finish s id sOk 0 (((seqOf s j.seq).map (·.length)).getD 0) 0
    | none => s
  let s := match j.step with
    | some (st, i) => modSlot s st i fun y => { y with logged := true, length := j.pos + j.entries.length }
    | none => s
  logKick s j.seq

/-- A log holder answered a job's write. -/
def logAnswer (s : State) (req n : Nat) : State :=
  match tget s.ce.logJobs n with
  | none => s
  | some j =>
    let w := j.waiting.filter (· != req)
    if w.isEmpty then logDone s n { j with waiting := [] }
    else modCe s fun c => { c with logJobs := tput c.logJobs n { j with waiting := w } }

/-- A log write was refused as fenced (R272): what waited ends with STALE_EPOCH and reports no token. -/
def logFenced (s : State) (n : Nat) : State :=
  match tget s.ce.logJobs n with
  | none => s
  | some j =>
    let s := modCe s fun c => { c with logJobs := tdel c.logJobs n, reqs := c.reqs.filter fun kv => !j.waiting.contains kv.1 }
    let s := match j.cmd with | some id => finish s id sStaleEpoch 0 0 0 | none => s
    let s := match j.step with
      | some (st, i) =>
        let (w, s) := ownerWord s j.seq
        modSlot s st i fun y => { y with run := 2, status := sStaleEpoch, detail := 0, detail1 := w, tokens := [], logged := true }
      | none => s
    logKick s j.seq

/-- Ask the cell manager for a log holder in place of a lost one; the sequence's slots are padded until one is named and
written (R15, R276). -/
def logReplace (s : State) (q which : Nat) : State :=
  match seqOf s q with
  | none => s
  | some x =>
    let s := modCe s fun c => { c with padded := addSorted q c.padded }
    if s.ce.reqs.any (fun kv => kv.2.use == .logNew q which || kv.2.use == .logCopy q which) then s
    else (askC s (mgrEp s) mLogReplicaReq q ((logEps x).getD which 0) 0 0 (.logNew q which)).2

/-- The manager names a new log holder: it gets the whole log. -/
def logNamed (s : State) (q which new : Nat) : State :=
  match seqOf s q with
  | none => s
  | some x => (askX s new 2 q (fun i => .log i q x.epoch x.ctx 0 x.log) (.logCopy q which)).2

/-- The new holder has the log: the descriptor names it, and a write in progress goes to it too. -/
def logCopied (s : State) (q which first : Nat) : State :=
  let s := changeSeq s q fun x => { x with logRep := x.logRep.set which first }
  let more := s.ce.reqs.any fun kv => match kv.2.use with
    | .logNew a _ => a == q | .logCopy a _ => a == q | .mirrorNew a => a == q | .mirrorCopy a => a == q | _ => false
  let s := if more then s else modCe s fun c => { c with padded := c.padded.filter (· != q) }
  match seqOf s q, s.ce.logJobs.find? (fun kv => kv.2.seq == q) with
  | some x, some (n, j) =>
    let live := j.waiting.filter fun r => thas s.ce.reqs r
    if live.length = j.waiting.length then s
    else
      let (i, s) := logSend s n which j x
      let lost := j.waiting.filter fun r => !thas s.ce.reqs r
      modCe s fun c => { c with logJobs := tput c.logJobs n { j with waiting := live ++ lost.drop 1 ++ [i] } }
  | _, _ => s

end Sys2Proof.Machine
end

