-- ==== Sys2Proof/Machine/Stripes.lean ====
section
/-! DEFINITION. Forming stripes (R12, R50, R278, R289–R291, R477), the owner's table writes when its home cannot be
reached (R285), and the change of the hot tail to the stripe group (R50). -/
namespace Sys2Proof.Machine

/-! ### An unreachable home (R285) -/

/-- The owner cannot reach a home: it tells the cell manager, and holds its table writes (R285, R477). -/
def homeLost (s : State) (home q : Nat) : State :=
  if thas s.ce.unreach home ∨ home = self s then s
  else
    let s := modCe s fun c => { c with unreach := tput c.unreach home s.now }
    (askC s (mgrEp s) mHomeUnreachable q home 0 0 (.unreachable home)).2

/-- A write to a home was not placed: it is held, and sent again to the home or a promoted home (R285). -/
def homeHold (s : State) (q : Nat) (o : OutMsg) : State :=
  modCe s fun c => { c with held := c.held ++ [(q, o)] }

/-- A promoted home, or the home itself, answers again: what was held for a sequence is sent (R285). -/
def homeBack (s : State) (q home : Nat) : State :=
  let mine := s.ce.held.filter (·.1 == q)
  let s := modCe s fun c => { c with held := c.held.filter (·.1 != q) }
  mine.foldl (fun s h => sendOut s { h.2 with dst := home }) s

/-! ### Pages as shards (R290, R291) -/

/-- The page of a sequence at a place. -/
def pageOf (x : Seq) (k : Nat × Nat × Nat) : Option PageRef :=
  x.pages.find? fun p => p.layer == k.1 && p.hg == k.2.1 && p.base == k.2.2

/-- Payload and trailer of a page held here, in a frame or a slot. -/
def pageRead (s : State) (w : Word) : List Byte × Trailer :=
  match localFrame s w, localSlot s w with
  | some f, _ => (payload s f, trailer s f)
  | none, some n => (rdMem s (slotAddr n) frameBytes, ((slot s n).map (·.trailer)).getD noTrailer)
  | none, none => ([], noTrailer)

/-- Shard info of a data page (R291). -/
def infoOf (t : Trailer) : ShardInfo := ⟨t.tokenBase, t.fill, t.layer, t.hg, t.payloadCrc, t.sealTime⟩

/-- The trailer of parity shard p (0 P, 1 Q) of stripe n (R290). -/
def parityTrailer (s : State) (t : Trailer) (n p : Nat) (bs : List Byte) : Trailer :=
  { t with
    layer := 0xFFFF, hg := p, state := 3, tokenBase := n % 2 ^ 24, fill := 0, committed := 0, statsRef := 0,
    payloadCrc := crc32c bs, sealTime := s.now }

/-- Member that holds shard j of stripe n (R290). -/
def shardPos (g : Group) (n j : Nat) : Nat := (n + j) % (g.k + 2)

/-! ### A stripe job -/

/-- Whether a page here is poisoned (R40, R157). -/
def entryPoisoned (s : State) (w : Word) : Bool :=
  match localFrame s w, localSlot s w with
  | some f, _ => pagePoisoned s f
  | none, some n => slotBad s n
  | none, none => false

/-- Set the PG_ERR bits a read of a page here finds (R40). -/
def noteEntry (s : State) (w : Word) : State :=
  match localFrame s w, localSlot s w with
  | some f, _ => notePoison s f
  | none, some n => ((slot s n).map fun t => (slotFaults s n t.trailer).foldl pgErr s).getD s
  | none, none => s

/-- Write every shard of a job to its member: data pages, then P and Q. A failed position's shard is unreadable. A stripe one of whose pages
is poisoned stays unformed (DESIGN CHOICE, log entry 107). -/
def stripeWrite (s : State) (job : Nat) : State :=
  match tget s.ce.stripes job with
  | none => s
  | some j => match seqOf s j.seq, tget s.ce.groups j.group with
    | some x, some g =>
      let ws := j.pages.filterMap fun k => (pageOf x k).map (·.entry)
      if ws.any (entryPoisoned s) then
        modCe (ws.foldl noteEntry s) fun c => { c with stripes := tput c.stripes job { j with st := 2 } }
      else
      let s := ws.foldl (fun s w => match localFrame s w with | some f => cuWork s (frameAddr f) (usedBytes x.geo) | none => s) s
      let pgs := j.pages.map fun k => (pageOf x k).map fun p => pageRead s p.entry
      let ds := pgs.map fun r => (r.map (·.1)).getD []
      let t0 := ((pgs.headD none).map (·.2)).getD noTrailer
      let n := j.stripe
      let bytesOf (i : Nat) : List Byte := if i = g.k then parityP ds else if i = g.k + 1 then parityQ ds
        else (ds.getD i []).take (usedBytes x.geo)
      let trailerOf_ (i : Nat) : Trailer := if i < g.k then ((pgs.getD i none).map (·.2)).getD noTrailer
        else parityTrailer s t0 n (i - g.k) (bytesOf i)
      let todo := (List.range (g.k + 2)).filter fun i => decide (i < j.pages.length ∨ g.k ≤ i)
      let r := todo.foldl (fun (a : (List Nat × List Nat) × State) i =>
        let p := shardPos g n i
        if g.failed.contains p then ((a.1.1, a.1.2 ++ [i]), a.2)
        else
          let pc : PageCopy := ⟨j.seq, j.group, n, i, decide (g.k ≤ i), trailerOf_ i, bytesOf i, hintOf x⟩
          let (q, s) := askX a.2 (g.members.getD p 0) 4 j.seq (fun id => .shard id x.epoch pc) (.shard job i)
          ((a.1.1 ++ [q], a.1.2), s)) (([], []), s)
      modCe r.2 fun c => { c with stripes := tput c.stripes job { j with
        data := (pgs.filterMap id).map fun y => infoOf y.2, slots := [], bad := r.1.2, waiting := r.1.1, st := 0 } }
    | _, _ => modCe s fun c => { c with stripes := tput c.stripes job { j with st := 2 } }

/-- The handle of each shard; 0 for one that is absent or unreadable. -/
def jobSlots (j : StripeJob) (k : Nat) : List Nat := (List.range (k + 2)).map fun i => tgetD j.slots i 0

/-- Every shard has answered: the stripe-table entry goes to the home, or the stripe stays unformed (R477). -/
def stripeJudge (s : State) (job : Nat) : State :=
  match tget s.ce.stripes job with
  | none => s
  | some j =>
    if j.st ≠ 0 ∨ j.waiting.isEmpty = false then s
    else match seqOf s j.seq, tget s.ce.groups j.group with
      | some x, some g =>
        if j.bad.length ≥ 3 then modCe s fun c => { c with stripes := tput c.stripes job { j with st := 2 } }
        else
          let slots := jobSlots j g.k
          let e : StripeE := ⟨j.data.length, (List.range (g.k + 2)).filter fun i => !j.bad.contains i,
            decide (j.data.length < g.k), self s, x.ctx, g.k, j.group, slots, j.data⟩
          let es := (List.range j.pages.length).filterMap fun i =>
            (pageOf x (j.pages.getD i (0, 0, 0))).map fun p => (p.layer, entryIndex x p, slots.getD i 0)
          let (_, s) := homeSend s j.seq (.stripe j.stripe e es) (.stripeTable job)
          modCe s fun c => { c with stripes := tput c.stripes job { j with st := 1 } }
      | _, _ => s

/-- A stripe of a restored summary (R173): its parity is computed anew, every shard is written to its original member, and then its
table entry (R50 steps 1 to 4). One that stayed unformed is taken up again. -/
def stripeRestore (s : State) (q : Nat) (r : StripeRead) : State :=
  match seqOf s q, tget s.ce.groups r.entry.group with
  | some x, some g =>
    let job := s.ce.jobCtr
    let s := modCe s fun c => { c with stripes := c.stripes.filter fun kv => !(kv.2.seq == q && kv.2.stripe == r.stripe && kv.2.restore) }
    let t : Trailer := { noTrailer with
      seq := q, format := x.geo.format, ptCode := x.geo.ptCode, headsM1 := x.geo.hpp - 1, headDim := x.geo.headDim,
      scaleOff := scaleOffset x.geo, producer := self s, context := x.ctx }
    let todo := (List.range r.entry.count) ++ [g.k, g.k + 1]
    let w := todo.foldl (fun (a : List Nat × State) i =>
      let bs := if i = g.k then parityP r.data else if i = g.k + 1 then parityQ r.data else r.data.getD i []
      let d := r.entry.data.getD i ⟨0, 0, 0, 0, 0, 0⟩
      let t := if g.k ≤ i then parityTrailer a.2 t r.stripe (i - g.k) bs
        else { t with layer := d.layer, hg := d.hg, state := 3, tokenBase := d.base, fill := d.fill, committed := d.fill,
                      payloadCrc := d.crc, sealTime := d.sealTime }
      let pc : PageCopy := ⟨q, r.entry.group, r.stripe, i, decide (g.k ≤ i), t, bs, hintOf x⟩
      let (i, s) := askX a.2 (g.members.getD (shardPos g r.stripe i) 0) 4 q (fun id => .shard id x.epoch pc) (.shard job i)
      (a.1 ++ [i], s)) ([], s)
    modCe w.2 fun c => { c with
      jobCtr := job + 1, stripes := tput c.stripes job ⟨q, r.stripe, r.entry.group,
        (r.entry.data.take r.entry.count).map fun d => (d.layer, d.hg, d.base), r.entry.data, [], [], w.1, 0, true⟩ }
  | _, _ => s

/-- Start forming a stripe from pages, under the sequence's next number (R289). -/
def stripeStart (s : State) (q : Nat) (ks : List (Nat × Nat × Nat)) : State :=
  match seqOf s q with
  | none => s
  | some x =>
    let job := s.ce.jobCtr
    let s := modCe s fun c => { c with
      jobCtr := job + 1, stripes := tput c.stripes job ⟨q, x.nextStripe, x.group, ks, [], [], [], [], 0, false⟩ }
    let s := updSeq s q fun y => { y with
      nextStripe := y.nextStripe + 1, unstriped := y.unstriped.filter fun k => !ks.contains k }
    stripeJudge (stripeWrite s job) job

/-- Form stripes from a sequence's unstriped pages in sealing order: whole ones, and with short a last short one (R289). -/
def stripeAll (s : State) (q k : Nat) (short : Bool) : Nat → State
  | 0 => s
  | fuel + 1 =>
    let u := ((seqOf s q).map (·.unstriped)).getD []
    if u.isEmpty ∨ k = 0 then s
    else if u.length ≥ k ∨ short then stripeAll (stripeStart s q (u.take k)) q k short fuel
    else s

/-- Data width of a sequence's stripe group. -/
def groupK (s : State) (x : Seq) : Nat := ((tget s.ce.groups x.group).map (·.k)).getD 0

/-- The producer of a sequence's pages forms stripes: a PROMPT controller as pages are sealed. -/
def stripeForm (s : State) (q : Nat) (short : Bool) : State :=
  match seqOf s q with
  | some x => stripeAll s q (groupK s x) short (x.unstriped.length + 1)
  | none => s

/-- Form again the stripes of a sequence that are unformed (R477). -/
def stripeRetry (s : State) (q : Nat) : State :=
  ((s.ce.stripes.filter fun kv => kv.2.seq == q && kv.2.st == 2 && !kv.2.restore).map (·.1)).foldl (fun s n => stripeJudge (stripeWrite s n) n) s

/-- Name the stripe's members in place of the owner's own copies, and drop those (R50 step 5, R278); the mirror drops its
own at the same boundary (R295). -/
def stripeSwitch (s : State) (job : Nat) : State :=
  match tget s.ce.stripes job with
  | none => s
  | some j =>
    if j.st ≠ 3 then s
    else
      let k := ((tget s.ce.groups j.group).map (·.k)).getD 0
      let slots := jobSlots j k
      let s := modCe s fun c => { c with stripes := tdel c.stripes job }
      (List.range j.pages.length).foldl (fun s i =>
        let key := j.pages.getD i (0, 0, 0)
        match (seqOf s j.seq).bind fun x => (pageOf x key).map fun p => (x, p) with
        | none => s
        | some (x, p) =>
          let own := (ownPages s j.seq x).contains p
          let s := updSeq s j.seq fun y => { y with
            pages := y.pages.map fun r => if r == p then { r with entry := word (slots.getD i 0) } else r }
          let s := if own then dropPage s p.entry else s
          if x.mirror = 0 then s else sendX s x.mirror 2 (.mirrorDrop j.seq p.layer p.hg p.base)) s

/-- The home has a formed stripe's entry: a migration switches at the next step boundary; a PROMPT producer and an
offerer keep their own copies (R12, R50, R278). A restored stripe's pages are named at once. -/
def stripeFormed (s : State) (job : Nat) : State :=
  match tget s.ce.stripes job with
  | none => s
  | some j =>
    let s := modCe s fun c => { c with
      stripes := tput c.stripes job { j with st := 3 } }
    let eps := match tget s.ce.groups j.group with | some g => g.members | none => []
    let s := updSeq s j.seq fun x => { x with holders := (x.holders ++ eps).eraseDups }
    match seqOf s j.seq with
    | some x => if j.restore then stripeSwitch s job else if role s = 0 ∨ x.st = .offered then s else defer s (.sequence j.seq) (.tailSwitch job)
    | none => s

/-- A shard of a job was placed, or failed (R477). -/
def shardAnswer (s : State) (req job shard : Nat) (h : Option Nat) : State :=
  match tget s.ce.stripes job with
  | none => s
  | some j =>
    let j := { j with waiting := j.waiting.filter (· != req) }
    let j := match h with
      | some w => { j with slots := tput j.slots shard w }
      | none => { j with bad := j.bad ++ [shard] }
    stripeJudge (modCe s fun c => { c with stripes := tput c.stripes job j }) job

/-- FLUSH every member of a sequence's stripe group, every other holder of its shards, and its home (R12, R278, R435). -/
def flushAsk (s : State) (q : Nat) : State :=
  match seqOf s q with
  | none => s
  | some x =>
    let eps := match tget s.ce.groups x.group with | some g => g.members | none => []
    ((eps ++ x.holders ++ [x.home]).eraseDups.filter (· != self s)).foldl (fun s d => fwFlushReq s d q) s

/-- A FLUSH of a sequence failed (R477): a home that cannot be reached is lost; the shards a member has taken for stripes formed here are
unreadable, and each such stripe is judged again. -/
def flushFailed (s : State) (q ep : Nat) : State :=
  match seqOf s q with
  | none => s
  | some x =>
    if ep = x.home then homeLost s ep q
    else (s.ce.stripes.filter fun kv => kv.2.seq == q && kv.2.st == 3).foldl (fun s kv =>
      match tget s.ce.groups kv.2.group with
      | none => s
      | some g =>
        let hit := (List.range (g.k + 2)).filter fun i => g.members.getD (shardPos g kv.2.stripe i) 0 == ep && thas kv.2.slots i
        if hit.isEmpty then s
        else stripeJudge (modCe s fun c => { c with stripes := tput c.stripes kv.1 { kv.2 with
          slots := kv.2.slots.filter (fun y => !hit.contains y.1), bad := kv.2.bad ++ hit, st := 0 } }) kv.1) s

/-- Whether a sequence has stripes not yet formed, and whether one stays unformed. -/
def stripesBusy (s : State) (q : Nat) : Bool := s.ce.stripes.any fun kv => kv.2.seq == q && decide (kv.2.st ≤ 1)
def stripesBad (s : State) (q : Nat) : Bool := s.ce.stripes.any fun kv => kv.2.seq == q && kv.2.st == 2

/-- Whether writes to a sequence's tables are outstanding. -/
def tablesBusy (s : State) (q : Nat) : Bool := s.ce.reqs.any fun kv => kv.2.use == .table q

/-- The order in which a migration takes tail pages: lowest TOKEN_BASE, then lowest head group (R50). -/
def tailLe (a b : Nat × Nat × Nat) : Bool := decide (a.2.2 < b.2.2 ∨ (a.2.2 = b.2.2 ∧ a.2.1 ≤ b.2.1))

/-- TAIL_MIGRATION (R50): when a layer holds enough sealed tail pages, the oldest k go out as one stripe. -/
def tailMigrate (s : State) (q layer : Nat) : State :=
  match seqOf s q with
  | none => s
  | some x =>
    let k := groupK s x
    let tail := sortBy tailLe (x.unstriped.filter fun u => u.1 == layer)
    let out := x.st == .ended || x.st == .cancelled || x.st == .lostState || x.st == .offered || x.st == .admitting
    if rbit s rPgCtrl 0 0 = false ∨ role s = 0 ∨ k = 0 ∨ out ∨ x.summarised ≠ 0 ∨
        tail.length < groups x.geo * rf s rPgTailCtrl 0 8 0 + k then s
    else stripeStart s q (tail.take k)

end Sys2Proof.Machine
end

