-- ==== Sys2Proof/Machine/Sequences.lean ====
section
/-! DEFINITION. The sequence commands at the owner (R16, R47, R53, R59, R61, R62, R166–R174, R271, R354): admission,
append, fork, pause, resume, hint, cancel, free and query. -/
namespace Sys2Proof.Machine

/-! ### Admission (R53, R61, R269, R276) -/

/-- The resident image a context's sequences or plans name. -/
def imageReady (s : State) (c id : Nat) : Bool :=
  match tget s.st.images id with
  | some i => i.ctx == c && i.st == 2
  | none => false

/-- Whether a sequence still lives. -/
def seqLive (x : Seq) : Bool := !(x.st == .ended || x.st == .cancelled || x.st == .lostState)

/-- The geometry a SEQ_CREATE names, with its rows per page (R34). -/
def createGeo (c : Cmd) : Geometry :=
  ⟨fld c.w1 15 0, fld c.w1 27 16, fld c.w1 32 28, fld c.w1 48 33, fld c.w1 52 49,
    (ptChoose (fld c.w1 32 28) (fld c.w1 48 33) (fld c.w1 52 49)).getD 0⟩

/-- The partner a SEQ_CREATE names: a live sequence of the context for a draft, none otherwise. -/
def partnerOk (s : State) (c : Cmd) : Bool :=
  let partner := fld c.w2 63 32
  if wbit c.w1 59 then (match seqOf s partner with | some p => p.ctx == cCtx c && seqLive p | none => false) else partner == 0

/-- The record of a sequence that SEQ_CREATE asks to admit: ADMITTING, with its reserve and the adapter version it names. -/
def createRec (s : State) (c : Cmd) (ver : Nat) (rs : List Reserve) : Seq :=
  let hasImage := wbit c.w1 60
  let hasAdapter := wbit c.w1 61
  { blankSeq with
    ctx := cCtx c, priority := fld c.w1 57 55, imageId := if hasImage then fld c.w2 7 0 else 0,
    adapterId := if hasAdapter then fld c.w2 23 8 else 0, adapterVer := if hasAdapter then ver else 0, hasImage := hasImage,
    hasAdapter := hasAdapter, degradable := wbit c.w1 58, noSpill := fld c.w1 54 53 == 1, early := fld c.w1 54 53 == 2,
    draft := wbit c.w1 59, partner := fld c.w2 63 32, geo := createGeo c, created := s.now, reserve := rs, prefill := role s == 0 }

/-- The admission of a new sequence starts: its adapter is pinned and the cell manager asked (R276). -/
def createBegin (s : State) (id : Nat) (x : Seq) : State :=
  let s := if x.hasAdapter then pinAdapter s x.ctx x.adapterId x.adapterVer else s
  let job := s.ce.jobCtr
  let (_, s) := askC (waitFor s id (.admission job)) (mgrEp s) mAdmitReq 0 (x.ctx + b2n x.draft * 2 ^ 8 + x.partner * 2 ^ 32) 0 0 (.admission job)
  modCe s fun e => { e with jobCtr := job + 1, admits := tput e.admits job ⟨0, id, 0, x, x.reserve, [], 0, 0, [], [], 0⟩ }

/-- SEQ_CREATE (R34, R53, R137, R141, R160): its own checks, the reserve, and the request to the cell manager. -/
def opSeqCreate (id : Nat) (c : Cmd) (s : State) : State :=
  let ctx := cCtx c
  let g := createGeo c
  let adapter := fld c.w2 23 8
  match geometryCheck g.layers g.kvHeads g.hpp g.headDim g.format with
  | some (st, d) => fail s id st d
  | none =>
    if ctx = 0 ∨ fld c.w1 54 53 = 3 ∨ partnerOk s c = false ∨ (wbit c.w1 60 ∧ imageReady s ctx (fld c.w2 7 0) = false) ∨
        (wbit c.w1 61 ∧ (adapterNow s ctx adapter).isNone) then fail s id sInvalidParam 0
    else if descCount s ≥ 262144 then fail s id sNoFit 0
    else match takeReserve s ctx 0 (cells g) with
      | none => fail s id sNoPage 1
      | some (rs, t) => createBegin t id (createRec t c (((adapterNow s ctx adapter).map (·.2.version)).getD 0) rs)

/-- Requests of an admission still awaited. -/
def admitAwaits (s : State) (job : Nat) : Bool := s.ce.reqs.any fun kv => match kv.2.use with
  | .admission j => j == job
  | .createLatch j => j == job
  | .createLog j _ => j == job
  | .refInc j => j == job
  | _ => false

/-- An admission fails: nothing of it remains (R53, R61). -/
def admitFail (s : State) (job status detail : Nat) : State :=
  match tget s.ce.admits job with
  | none => s
  | some a =>
    let x := a.seqRec
    let s := freeReserve s a.frames
    let s := if x.hasAdapter then unpinAdapter s x.ctx x.adapterId x.adapterVer else s
    let own := x.pages.filter fun p => (localFrame s p.entry).isSome || (localSlot s p.entry).isSome
    let s := own.foldl (fun s p => dropPage s p.entry) s
    let s := if a.seq = 0 then s else
      let s := (logEps x).foldl (fun s d => sendX s d 2 (.logFree a.seq)) s
      let s := a.acked.foldl (fun s d => (askC s d mRefDec a.seq 0 0 0 .refDec).2) s
      (askX s x.home 2 a.seq (fun i => .retire i a.seq) .plain).2
    let s := modCe s fun c => { c with
      admits := tdel c.admits job
      reqs := c.reqs.filter fun kv => match kv.2.use with
        | .admission j => j != job | .createLatch j => j != job | .createLog j _ => j != job | .refInc j => j != job | _ => true }
    fail s a.cmd status detail

/-- The cell manager's reply to an admission: the home is asked to create the Latch, the log holders to hold the log, and
for a fork every holder to count the shared pages. -/
def admitReply (s : State) (job : Nat) (m : CMsg) : State :=
  match tget s.ce.admits job with
  | none => s
  | some a =>
    if m.status ≠ sOk then admitFail s job m.status (if m.status = sTargetDead then 3 else bits m.b 63 60)
    else
      let q := m.obj
      let par := seqOf s a.parent
      let fork := a.kind == 1
      if fork && par.isNone then admitFail s job sInvalidParam 0
      else
        let home := if fork then (par.map (·.home)).getD 0 else bits m.a 51 32
        let group := if fork then (par.map (·.group)).getD 0 else bits m.a 31 0
        let logs := [bits m.b 19 0, bits m.b 39 20, bits m.b 59 40]
        let (w1, s) := fresh s
        let (w2, s) := fresh s
        let x := { a.seqRec with
          home := home, group := group, logRep := logs.map (· * 2 ^ 44), btRoot := home * 2 ^ 44 + w1.toNat % 2 ^ 44,
          stripeRef := mgrEp s * 2 ^ 44 + w2.toNat % 2 ^ 44 }
        let s := a.frames.foldl (fun s r => setFrame s r.frame { frame s r.frame with owner := q }) s
        let s := modCe s fun c => { c with admits := tput c.admits job { a with seq := q, seqRec := x } }
        let s := (askX s home 2 q (fun i => .create i q x.ctx group (x.prefill && !fork) logs (seqBytes q x)) (.createLatch job)).2
        let s := (List.range 3).foldl (fun s w =>
          (askX s (logs.getD w 0) 2 q (fun i => .log i q 1 x.ctx 0 x.log) (.createLog job w)).2) s
        a.holders.foldl (fun s d => (askC s d mRefInc a.parent q a.upTo 0 (.refInc job)).2) s

/-- Rows of a page's frame below a fill, as a mirror write carries them (R55). -/
def pageRows (s : State) (f : Nat) (g : Geometry) (lo hi : Nat) : List RowW :=
  (List.range 2).flatMap fun region => (List.range g.hpp).flatMap fun h => (List.range (hi - lo)).map fun i =>
    ⟨region, h, lo + i, rdMem s (frameAddr f + rowOffset g region h (lo + i)) (rowBytes g),
      if g.format = 5 ∨ g.format = 6 then rdMem s (frameAddr f + scaleRowOffset g region h (lo + i)) (g.headDim / 32) else []⟩

/-- Write a page to the mirror partner: rows from lo up, and its fills; sealed when its frame is (R55, R295). -/
def mirrorPage (s : State) (q lo : Nat) (p : PageRef) (use : ReqUse) : State :=
  match seqOf s q, localFrame s p.entry with
  | some x, some f =>
    if x.mirror = 0 then s
    else
      let t := trailer s f
      let w : MirrorW := ⟨q, x.ctx, x.geo, p.layer, p.hg, p.base, t.fill, t.committed,
        if (frame s f).st = .sealed then t.sealTime else 0, pageRows s f x.geo lo t.fill⟩
      (askX s x.mirror 2 q (fun i => .mirror i x.epoch w) use).2
  | _, _ => s

/-- A draft of main sequence p exists: the main sequence names it as its partner, unless it has one (R45). -/
def draftMade (s : State) (q p : Nat) : State :=
  match seqOf s p with
  | some x => if x.partner = 0 then changeSeq s p fun x => { x with partner := q } else s
  | none => s

/-- Every answer of an admission is in: the sequence exists, RUNNABLE (R46, R51). -/
def admitDone (s : State) (job : Nat) : State :=
  match tget s.ce.admits job with
  | none => s
  | some a =>
    if a.seq = 0 ∨ admitAwaits s job then s
    else
      let q := a.seq
      let x := { a.seqRec with st := .runnable, admitNo := s.pg.admitCtr }
      let s := modCe s fun c => { c with admits := tdel c.admits job }
      let s := setSeq (modPg s fun p => { p with admitCtr := p.admitCtr + 1 }) q x
      let s := if x.draft then draftMade s q x.partner else s
      let s := writeDesc s q
      let s := if a.kind = 0 then s else
        let s := (homeSend s q (.entries (x.pages.map (entryOfPage x))) (.table q)).2
        let s := sendX s (mgrEp s) 0 (.ledger 0 (.seq q (some ⟨x.ctx, x.home, x.group, 0, 0, logEps x⟩)))
        (x.pages.filter (·.opened)).foldl (fun s p => mirrorPage s q 0 p (.mirror q)) s
      finish s a.cmd sOk 0 (q + 2 ^ 32) 0

/-- The home has created the Latch: its mirror partner and place are learned, and the lease starts (R269, R274). -/
def latchMade (s : State) (job sentAt : Nat) (vals : List Nat) : State :=
  match tget s.ce.admits job with
  | none => s
  | some a =>
    let x := { a.seqRec with mirror := vals.getD 0 0, latchRef := a.seqRec.home * 2 ^ 44 + vals.getD 3 0 }
    let s := modCe s fun c => { c with admits := tput c.admits job { a with seqRec := x } }
    admitDone (leaseFrom s x.home sentAt) job

/-- A token-log holder has the log. -/
def logMade (s : State) (job which first : Nat) : State :=
  match tget s.ce.admits job with
  | none => s
  | some a =>
    let x := { a.seqRec with logRep := a.seqRec.logRep.set which first }
    admitDone (modCe s fun c => { c with admits := tput c.admits job { a with seqRec := x } }) job

/-- A holder has counted the pages a fork shares. -/
def refCounted (s : State) (job ep : Nat) : State :=
  match tget s.ce.admits job with
  | none => s
  | some a => admitDone (modCe s fun c => { c with admits := tput c.admits job { a with acked := a.acked ++ [ep] } }) job

/-! ### SEQ_FORK (R61, R62) -/

/-- Where a fork takes effect: the shared pages, the copies of OPEN pages and the reserve, then its admission. DESIGN CHOICE (log entries
107, 109): an OPEN page that cannot be read fails the fork with LOST_STATE; the frames of the copies count against PG_FREE_WM.LOW
with the reserve. -/
def forkBegin (s : State) (id : Nat) : State :=
  match openCmd s id with
  | none => s
  | some o =>
    let c := o.cmd
    let q := fld c.w1 31 0
    let l := fld c.w2 22 0
    match seqOf s q with
    | none => fail s id sInvalidParam 0
    | some x =>
      if !(x.st == .runnable || (x.st == .paused && decide (x.pauseCause ≤ 1))) || decide (l = 0 ∨ x.kvLength < l) ||
          decide (fld c.w3 1 0 = 3) then fail s id sInvalidParam 0
      else
        let cover := x.pages.filter fun p => decide (p.base < l)
        let shared := cover.filter fun p => !p.opened
        let copies := cover.filter (·.opened)
        let mine := (ownPages s q x).filter fun p => shared.contains p
        if mine.any fun p => decide (pageRefs s p.entry ≥ 65535) then fail s id sNoFit 11
        else if copies.any fun p => (localFrame s p.entry).any (pagePoisoned s) then
          fail (copies.foldl (fun s p => ((localFrame s p.entry).map (notePoison s)).getD s) s) id sLostState 0
        else if freeFrames s < lowMark s + (cells x.geo).length + copies.length then fail s id sNoPage 1
        else match takeReserve s x.ctx 0 (cells x.geo) with
          | none => fail s id sNoPage 1
          | some (rs, s1) =>
            if mayTake s1 x.ctx copies.length = false then fail s id sNoPage 1
            else match takeFrames s1 .opened x.ctx .none 0 copies.length with
              | none => fail s id sNoPage 1
              | some (fs, s) =>
                let s := mine.foldl (fun s p => incPage s p.entry) s
                let r := (List.zip copies fs).foldl (fun (a : List PageRef × State) pf =>
                  let (p, f) := pf
                  let s := a.2
                  let n := l - p.base
                  let src := (localFrame s p.entry).getD 0
                  let s := copyRows s (frameAddr src) f x.geo n
                  let t := trailer s src
                  let s := setTrailer s f { copyTrailer s f t 2 with fill := n, committed := n, producer := self s }
                  (a.1 ++ [{ p with entry := handle (self s) f (frame s f).gen, fill := n }], s)) ([], s)
                let s := r.2
                let y : Seq := { blankSeq with
                  ctx := x.ctx, priority := x.priority, length := l, kvLength := l, imageId := x.imageId,
                  adapterId := x.adapterId, adapterVer := x.adapterVer, hasImage := x.hasImage, hasAdapter := x.hasAdapter,
                  degradable := x.degradable, noSpill := fld c.w3 1 0 == 1, early := fld c.w3 1 0 == 2, draft := x.draft,
                  partner := if x.draft then x.partner else 0, geo := x.geo, created := s.now, reserve := rs, log := x.log.take l,
                  pages := shared ++ r.1, lossy := x.lossy, holders := x.holders }
                let s := if x.hasAdapter then pinAdapter s x.ctx x.adapterId x.adapterVer else s
                let job := s.ce.jobCtr
                let (_, s) := askC (waitFor s id (.fork q)) (mgrEp s) mAdmitReq 0
                  (x.ctx + b2n x.draft * 2 ^ 8 + y.partner * 2 ^ 32) 0 0 (.admission job)
                modCe s fun e => { e with
                  jobCtr := job + 1, admits := tput e.admits job ⟨1, id, 0, y, rs, [], q, l, holdersOf s q x, [], 0⟩ }

/-! ### SEQ_APPEND (R47, R59) -/

/-- SEQ_APPEND of a sequence this controller owns: the entries carry PROMPT and go to the three replicas. -/
def actAppend (id : Nat) (c : Cmd) (x : Seq) (s : State) : State :=
  let q := fld c.w1 31 0
  let n := fld c.w3 22 0
  if !(x.st == .runnable || x.st == .starved) then fail s id sInvalidParam 0
  else match cmdBytes s c 2 (4 * n) c.buf with
    | none => fail s id sInvalidParam 0
    | some b =>
      let toks := (List.range n).map fun i => leAt b (4 * i) 4
      let coming := ((s.ce.logJobs.filter fun kv => kv.2.seq == q).map fun kv => kv.2.entries.length).foldl (· + ·) 0
      if n = 0 ∨ toks.any (fun t => decide (t > 262143)) = true then fail s id sInvalidParam 0
      else if x.length + coming + n > maxLength then
        defer (fail s id sLengthLimit 0) (.sequence q) (.endSeq q sLengthLimit)
      else logWrite s q (toks.map (· + 2 ^ 18)) (some id) none

/-! ### Pause (R166, R170, R171, R289) -/

/-- SEQ_PAUSE, by the first case of R166 that matches. -/
def actPause (id : Nat) (c : Cmd) (x : Seq) (s : State) : State :=
  let q := fld c.w1 31 0
  let ttl := if fld c.w2 16 0 = 0 then defaultTtl s x.ctx else fld c.w2 16 0
  if x.pauseAsk ∨ x.st = .pausing then pend s id (.pause q)
  else if x.st = .runnable ∨ x.st = .starved then
    defer (updSeq (pend s id (.pause q)) q fun y => { y with pauseAsk := true, ttlAsked := ttl }) (.sequence q) (.pause q)
  else if x.st = .paused ∧ x.pauseCause = 0 then finishOk s id
  else fail s id sInvalidParam 0

/-- The owner's requests of a kind to the holders of a sequence. -/
def askHolders (s : State) (q sub a : Nat) (use : ReqUse) : List Nat × State :=
  match seqOf s q with
  | none => ([], s)
  | some x => ((holdersOf s q x).filter (· != self s)).foldl (fun (r : List Nat × State) d =>
      let (i, s) := askC r.2 d sub q a 0 0 use
      (r.1 ++ [i], s)) ([], s)

/-- The boundary where a pause starts (R166 steps 1 to 3, R171): a sequence that ended meanwhile ends the pause too. -/
def pauseBegin (s : State) (q : Nat) : State :=
  match seqOf s q with
  | none => finishAll s (.pause q) sInvalidParam 0 0 0
  | some x =>
    let s := updSeq s q fun y => { y with pauseAsk := false }
    if !(x.st == .runnable || x.st == .starved) then
      (if seqLive x then finishAll s (.pause q) sInvalidParam 0 0 0 else finishAll s (.pause q) x.endStatus 0 0 0)
    else
      let s := sealOpen s q
      let s := if role s = 0 then stripeForm s q true else s
      let s := freeReserve s (((seqOf s q).map (·.reserve)).getD [])
      let sum := mode s != 0
      let s := changeSeq s q fun y => { y with
        st := .pausing, pauseCause := 0, ttl := y.ttlAsked, reserve := [], summarised := if sum then summaryKind x.geo + 1 else 0 }
      let (op, s) := jrStart s jrMigrate q 0 (migrateOf q 0)
      let ((n, k), s) := if op.isNone then ((0, 0), s) else if sum then summariseAll s q else spillAll s q
      let (ids, s) := askHolders s q mSpillReq (x.ctx + b2n sum * 2 ^ 8) (.spill q)
      modPg s fun p => { p with reports := tput p.reports q ⟨0, ids, n, k, s.now, true⟩ }

/-! ### Resume and hint (R168, R169, R173) -/

/-- The requests of a resume's or hint's prefetch, once the journal has a slot for it (R297). -/
def prefetchAsk (s : State) (q kind aux : Nat) : State :=
  match seqOf s q with
  | none => s
  | some x =>
    if jrRoom s = false then modCe s fun c => { c with jrWaits := c.jrWaits ++ [migrateOf q 1] } else
    let (_, s) := jrStart s jrMigrate (q + 2 ^ 32) aux (migrateOf q 1)
    let s := prefetchAll s q
    let (ids, s) := askHolders s q mPrefetchReq x.ctx (.prefetch q)
    modPg s fun p => { p with reports := tput p.reports q ⟨kind, ids, 0, 0, s.now, true⟩ }

/-- The resume of a sequence whose summary is not restored: prefill anew (R173). -/
def rePrefill (s : State) (q : Nat) : State :=
  match seqOf s q with
  | none => s
  | some x =>
    let (ids, s) := askHolders s q mPrefetchReq (x.ctx + 3 * 2 ^ 8) .plain
    let s := modCe s fun c => { c with reqs := c.reqs.filter fun kv => !ids.contains kv.1 }
    let s := (ownPages s q x).foldl (fun s p => dropPage s p.entry) (dropHoldings (freeSummary s q) q).2
    let s := changeSeq s q fun y => { y with
      st := .runnable, kvLength := 0, pages := [], unstriped := [], summarised := 0, expiry := 0 }
    let s := bump (modPg s fun p => { p with reports := tdel p.reports q }) rMcPauseCnt 0 63 48 1
    let s := finishAll (migrateEnd s q sOk) (.resume q) sOk 0 0 0
    raiseSeq s x.ctx evResumeReady 0 q (2 ^ 32)

/-- Steps 2 and 3 of a resume (R168, R173), once the journal has a slot for it. -/
def resumeGo (s : State) (q : Nat) : State :=
    match seqOf s q with
    | none => s
    | some x =>
      let s := changeSeq s q fun y => { y with st := .resuming, expiry := 0 }
      if x.summarised = 0 then prefetchAsk s q 1 x.expiry
      else
        let kind := x.summarised - 1
        if kind = 2 ∨ (kind = 1 ∧ x.degradable = false) ∨ summaryUsable s q = false then rePrefill s q
        else
          let (short, s) := restoreSummary s q
          if short ≠ 0 then rePrefill s q
          else
            let (_, s) := jrStart s jrMigrate (q + 2 ^ 32) x.expiry (migrateOf q 1)
            let (ids, s) := askHolders s q mPrefetchReq (x.ctx + (kind + 1) * 2 ^ 8) (.prefetch q)
            modPg s fun p => { p with reports := tput p.reports q ⟨1, ids, 0, 0, s.now, true⟩ }

/-- Start a resume (R168): the reserve first. -/
def resumeBegin (s : State) (q id : Nat) : State :=
  match fillReserve s q with
  | none => fail s id sNoPage 1
  | some s =>
    let s := pend s id (.resume q)
    if jrRoom s then resumeGo s q else modCe s fun c => { c with jrWaits := c.jrWaits ++ [migrateOf q 1] }

/-- The journal has started a pause, resume or hint of the owner that waited for a slot. -/
def migrateRun (s : State) (q : Nat) (resume : Bool) : State :=
  match seqOf s q with
  | none => s
  | some x =>
    if resume then
      (if x.st ≠ .paused then s
      else if s.host.opens.any fun o => o.wait == .resume q then resumeGo s q
      else prefetchAsk s q 2 x.expiry)
    else if x.st ≠ .pausing then s
    else
      let (_, s) := jrStart s jrMigrate q 0 (migrateOf q 0)
      let ((n, k), s) := if x.summarised = 0 then spillAll s q else summariseAll s q
      modPg s fun p => { p with reports := tmod p.reports q fun r => { r with done := r.done + n, kept := r.kept + k } }

/-- SEQ_RESUME, by state and pause cause (R168). -/
def actResume (id : Nat) (c : Cmd) (x : Seq) (s : State) : State :=
  let q := fld c.w1 31 0
  if x.st ≠ .paused then fail s id sInvalidParam 0
  else if x.pauseCause = 1 then pend s id (.resume q)
  else if x.pauseCause = 3 ∧ ctxState s x.ctx ≠ 1 then fail s id sInvalidContext 0
  else resumeBegin s q id

/-- RESUME_HINT (R169). -/
def actHint (id : Nat) (c : Cmd) (x : Seq) (s : State) : State :=
  let q := fld c.w1 31 0
  if x.st = .pausing then finishOk (updSeq s q fun y => { y with hintAsk := true }) id
  else if x.st ≠ .paused then fail s id sInvalidParam 0
  else if x.summarised ≠ 0 ∨ thas s.pg.reports q then finishOk s id
  else finishOk (prefetchAsk s q 2 x.expiry) id

/-! ### The end of a pause or resume (R166 step 4, R168 step 4, R170) -/

/-- A report arrives, or is given up: a holder that does not report counts as keeping, or leaving, what it has. -/
def reportIn (s : State) (q req : Nat) (done kept : Nat) (usable : Bool) : State :=
  let f (r : Reports) : Reports :=
    if r.waiting.contains req then { r with
      waiting := r.waiting.filter (· != req), done := r.done + done, kept := r.kept + kept, usable := r.usable && usable }
    else r
  modPg s fun p => { p with reports := tmod p.reports q f }

/-- Pages of a sequence at a holder, by the owner's own table: what a silent holder counts as. -/
def pagesAt (s : State) (q ep : Nat) (slots : Bool) : Nat :=
  match seqOf s q with
  | none => 0
  | some x => (x.pages.filter fun p => match entryOf p.entry with
    | .page e _ _ _ => e == ep && !slots
    | .slot e _ => e == ep && slots
    | _ => false).length

/-- A pause is complete: PAUSED, its TTL runs, the replies and then PAUSE_DONE. -/
def pauseEnd (s : State) (q : Nat) (r : Reports) : State :=
  match seqOf s q with
  | none => s
  | some x =>
    let s := modPg s fun p => { p with reports := tdel p.reports q }
    let s := updSeq s q fun y => { y with expiry := s.now + y.ttl * 1000000000, hintAsk := false }
    let s := changeSeq s q fun y => { y with st := .paused, pauseCause := 0 }
    let s := bump s rMcPauseCnt 0 15 0 1
    let s := if x.summarised = 0 then s else bump s rMcPauseCnt 0 47 32 1
    let s := finishAll (migrateEnd s q sOk) (.pause q) sOk 0 0 0
    let s := raiseSeq s x.ctx evPauseDone 0 q (r.done + r.kept * 2 ^ 32)
    if x.hintAsk ∧ x.summarised = 0 then prefetchAsk s q 2 (s.now + x.ttl * 1000000000) else s

/-- A resume is complete: RUNNABLE, the replies and then RESUME_READY. -/
def resumeEnd (s : State) (q : Nat) (r : Reports) : State :=
  match seqOf s q with
  | none => s
  | some x =>
    if x.summarised ≠ 0 ∧ r.usable = false then rePrefill s q
    else
      let lossy := x.summarised == 2
      let s := modPg s fun p => { p with reports := tdel p.reports q }
      let s := changeSeq s q fun y => { y with st := .runnable, summarised := 0, lossy := y.lossy || lossy }
      let s := finishAll (migrateEnd s q sOk) (.resume q) sOk 0 0 0
      raiseSeq s x.ctx evResumeReady 0 q ((leftHere s q + r.kept) % 2 ^ 32 + b2n lossy * 2 ^ 33)

/-- Complete the pauses, resumes and hints whose reports are in and whose own transfers, and rewritten stripes, are done. -/
def reportsEnd (s : State) : State :=
  s.pg.reports.foldl (fun s kv =>
    match tget s.pg.reports kv.1 with
    | none => s
    | some r =>
      if r.waiting.isEmpty = false ∨ movingHere s kv.1 ∨ s.ce.jrWaits.contains (migrateOf kv.1 (if r.kind = 0 then 0 else 1)) ∨
          (r.kind = 1 ∧ stripesBusy s kv.1) ∨ (r.kind = 0 ∧ flushing s kv.1) then s
      else if r.kind = 0 then pauseEnd s kv.1 r
      else if r.kind = 1 then resumeEnd s kv.1 r
      else migrateEnd (modPg s fun p => { p with reports := tdel p.reports kv.1 }) kv.1 sOk) s

/-- A holder did not report in time, or its request is undelivered (R170). -/
def reportMiss (s : State) (q req ep : Nat) : State :=
  match tget s.pg.reports q with
  | none => s
  | some r =>
    if r.kind = 0 then reportIn s q req 0 (pagesAt s q ep false) true
    else reportIn s q req 0 (pagesAt s q ep true) false

/-- REPORT_TIMEOUT (R170): REPORT_MS after the requests went out. -/
def reportTimeout (s : State) (q : Nat) : State :=
  match tget s.pg.reports q with
  | none => s
  | some r =>
    if s.now < r.sent + rf s rMcTierCtrl 0 33 18 * 1000000 then s
    else
      let s := r.waiting.foldl (fun s i => match tget s.ce.reqs i with
        | some x => reportMiss s q i x.dst
        | none => reportIn s q i 0 0 true) s
      modCe s fun c => { c with reqs := c.reqs.filter fun kv => !r.waiting.contains kv.1 }

/-- PAUSE_EXPIRY (R167): a paused sequence whose EXPIRY is reached ends EXPIRED, with every reference and its Latch. An accepted SEQ_RESUME
that still waits has stopped the TTL (R16). -/
def pauseExpiry (s : State) (q : Nat) : State :=
  match seqOf s q with
  | none => s
  | some x =>
    if x.st ≠ .paused ∨ x.expiry = 0 ∨ s.now < x.expiry ∨ (s.host.opens.any fun o => o.wait == .resume q) then s
    else
      let s := bump (finishSeq s q .ended sExpired) rMcPauseCnt 0 31 16 1
      let s := releasePages (migrateEnd s q sExpired) q
      let x := (seqOf s q).getD x
      (askX s x.home 2 q (fun i => .retire i q) .plain).2

/-- A sequence is PAUSED for recovery, its pages in place (R113, R163, R281, R285). -/
def recoveryPause (s : State) (q : Nat) : State :=
  match seqOf s q with
  | none => s
  | some x =>
    if seqLive x = false ∨ x.st = .paused then s
    else
      let s := changeSeq s q fun y => { y with st := .paused, pauseCause := 2, expiry := 0 }
      raiseSeq s x.ctx evSeqPaused 0 q 2

/-! ### Cancel, free, query -/

/-- SEQ_CANCEL (R16): held while an offer is pending, at the boundary of a step in flight, else at once. -/
def actCancel (id : Nat) (c : Cmd) (x : Seq) (s : State) : State :=
  let q := fld c.w1 31 0
  if seqLive x = false then fail s id sInvalidParam 0
  else if x.st = .offered then updSeq s q fun y => { y with cancelAsk := y.cancelAsk ++ [id] }
  else defer (finishOk s id) (.sequence q) (.cancelSeq q)

/-- SEQ_FREE of a sequence owned here. -/
def actFree (id : Nat) (c : Cmd) (x : Seq) (s : State) : State :=
  if seqLive x then fail s id sInvalidParam 0 else finishOk (freeSeq s (fld c.w1 31 0)) id

/-- SEQ_FREE at the cell manager of a LOST_STATE sequence whose Latch is ORPHAN (R271). -/
def managerFree (s : State) (id q : Nat) : State :=
  match tget s.ce.ledger q with
  | none => fail s id sInvalidParam 0
  | some e =>
    let eps := match tget s.ce.groups e.group with | some g => g.members | none => []
    let s := eps.foldl (fun s d => (askC s d mRefDec q 0 0 0 .refDec).2) s
    let s := e.logs.foldl (fun s d => sendX s d 2 (.logFree q)) s
    finishOk (askX s e.home 2 q (fun i => .retire i q) .plain).2 id

/-- The descriptor of a sequence that is ADMITTING here (R46). -/
def admitting (s : State) (q : Nat) : Option Seq :=
  if q = 0 then none else (s.ce.admits.find? fun kv => kv.2.seq == q).map (·.2.seqRec)

/-- SEQ_QUERY: the descriptor, then the choice state, of a sequence owned or being admitted here. -/
def opSeqQuery (id : Nat) (c : Cmd) (s : State) : State :=
  let q := fld c.w1 31 0
  match (seqOf s q).or (admitting s q) with
  | some x =>
    if x.ctx ≠ cCtx c then fail s id sInvalidParam 0
    else finish (cmdWrite s c 2 (seqBytes q x)) id sOk 0 (sstateCode x.st + b2n x.lossy * 2 ^ 4) 0
  | none => match tget s.ce.former q with
    | some (_, o) => finish s id sStaleEpoch 0 o 0
    | none => fail s id sInvalidParam 0

end Sys2Proof.Machine
end

