-- ==== Sys2Proof/Machine/Hinge.lean ====
section
/-! DEFINITION. Ownership at the two parties of a handoff (R12, R13, R142, R212, R277–R283, R285, R305) and the check of
the home's record that every sequence command passes (R271). -/
namespace Sys2Proof.Machine

/-! ### What a new owner reads (R48, R283) -/

def hingeQueryNs (s : State) : Nat := rf s rLtHinge 0 39 20 * 1000

/-- The handoff of an object this controller takes part in. -/
def hingeOf (s : State) (o : Obj) : Option Hinge := s.ce.hinges.find? (·.obj == o)
def setHinge (s : State) (h : Hinge) : State :=
  modCe s fun c => { c with hinges := c.hinges.filter (fun x => x.obj != h.obj) ++ [h] }
def dropHinge (s : State) (o : Obj) : State := modCe s fun c => { c with hinges := c.hinges.filter fun x => x.obj != o }

/-! ### The offerer (R12, R212, R277, R278) -/

/-- The offer of a HINGE_OFFER command ends without a transfer: the command completes, cancels that were held apply, and
the sequence returns to the state it held (R16, R277). -/
def offerBack (s : State) (h : Hinge) (status detail pos : Nat) : State :=
  let s := dropHinge s h.obj
  let s := match h.cmd with | some id => finish s id status detail pos 0 | none => s
  if h.obj.region then modCe s fun c => { c with regs := tmod c.regs h.obj.id fun r => { r with st := 0 } }
  else
    let q := h.obj.id
    match seqOf s q with
    | none => s
    | some x =>
      let s := if x.st = .offered then updSeq s q fun y => { y with st := h.before, cancelAsk := [] } else s
      x.cancelAsk.foldl (fun s id => defer (finishOk s id) (.sequence q) (.cancelSeq q)) s

/-- The offer ends with this controller no longer the owner (R271, R281): the command completes, and cancels that were held
complete with STALE_EPOCH. -/
def offerLost (s : State) (h : Hinge) (status detail owner epoch : Nat) : State :=
  let s := dropHinge s h.obj
  let pos := if status = sStaleEpoch then owner + epoch * 2 ^ 32 else 0
  let s := match h.cmd with | some id => finish s id status detail pos 0 | none => s
  if h.obj.region then modCe s fun c => { c with regs := tdel c.regs h.obj.id } else loseOwner s h.obj.id owner epoch

/-- After an offer that reverted, the tail is in the stripe group: local copies go at the next boundary and the sequence
owes a reserve (R278). -/
def offerReverted (s : State) (h : Hinge) (epoch : Nat) : State :=
  let q := h.obj.id
  let s := if h.obj.region then modCe s fun c => { c with regs := tmod c.regs q fun r => { r with epoch := epoch, st := 0 } }
    else updSeq s q fun y => { y with epoch := epoch }
  let s := offerBack s h sHingeReverted 2 0
  if h.obj.region ∨ role s = 0 then s
  else
    let s := ((s.ce.stripes.filter fun kv => kv.2.seq == q && kv.2.st == 3).map (·.1)).foldl (fun s n =>
      defer s (.sequence q) (.tailSwitch n)) s
    match fillReserve s q with
    | some s => s
    | none =>
      match seqOf s q with
      | some y => if y.st = .runnable then bump (changeSeq s q fun z => { z with st := .starved }) rPgFallbackCnt 0 63 48 1 else s
      | none => s

/-- The receiver owns: the offerer's command completes OK and its copies are released (R281). -/
def offerWon (s : State) (h : Hinge) (owner epoch : Nat) : State :=
  let s := dropHinge s h.obj
  let s := match h.cmd with | some id => finish s id sOk 0 (owner + epoch * 2 ^ 32) 0 | none => s
  if h.obj.region then modCe s fun c => { c with regs := tdel c.regs h.obj.id }
  else
    match seqOf s h.obj.id with
    | none => s
    | some x =>
      let s := if x.lossy then sendX s owner 2 (.lossy h.obj.id) else s
      let s := if x.mirror = 0 then s else sendX s x.mirror 2 (.unmirror h.obj.id)
      loseOwner s h.obj.id owner epoch

/-- Accept an offer at a step boundary: OFFERED, and the preparation of R12 or R278 starts. The home's descriptor copy shows
the state the offer found (R281). cmd is the HINGE_OFFER command, none for an offer of the closing Shutter (R434). -/
def hingeStart (s : State) (obj : Obj) (recv : Nat) (cmd : Option Nat) : State :=
  let no (s : State) (st : Nat) : State := match cmd with | some id => fail s id st 0 | none => s
  let h : Hinge := ⟨obj, true, cmd, 0, 0, 0, recv, 0, 0, s.now, 0, none, .runnable, false, 0, false, false, false⟩
  if obj.region then
    match tget s.ce.regs obj.id with
    | none => no s sStaleEpoch
    | some r =>
      if r.st ≠ 0 then no s sInvalidParam
      else setHinge (modCe s fun c => { c with regs := tput c.regs obj.id { r with st := 1 } })
        { h with home := obj.id / 2 ^ 44, epoch := r.epoch, ctx := r.ctx }
  else
    let q := obj.id
    match seqOf s q with
    | none => no s sInvalidParam
    | some x =>
      if !(x.st == .runnable || x.st == .paused) then no s sInvalidParam
      else
        let s := sealOpen s q
        let s := if role s = 0 then s
          else freeReserve (updSeq s q fun y => { y with reserve := [] }) (((seqOf s q).map (·.reserve)).getD [])
        let s := writeDesc s q
        let s := updSeq s q fun y => { y with st := .offered, before := x.st }
        let s := stripeRetry (stripeForm s q true) q
        setHinge s { h with home := x.home, epoch := x.epoch, ctx := x.ctx, before := x.st }

/-- The boundary where a HINGE_OFFER is accepted. -/
def hingeBegin (s : State) (id : Nat) : State :=
  match openCmd s id with
  | none => s
  | some o => hingeStart s (cmdObj o.cmd) (fld o.cmd.w2 20 1) (some id)

/-- Accesses this controller has outstanding toward a home's endpoint (R212). -/
def accessesTo (s : State) (d : Nat) : Bool :=
  match tget s.fab.accs d with
  | some q => !q.out.isEmpty || !q.wait.isEmpty
  | none => false

/-- Send the offers whose preparation is done, its FLUSHes last; end those it cannot complete (R12, R212, R278, R477). -/
def hingeReady (s : State) : State :=
  s.ce.hinges.foldl (fun s h =>
    if h.offerer = false ∨ h.phase ≠ 0 then s
    else if h.obj.region then
      if accessesTo s h.home then s
      else
        let (hid, s) := newHinge s
        let s := setHinge s { h with phase := 1, hingeId := hid, sentAt := s.now, queryAt := s.now + rf s rLtHinge 0 19 0 * 1000 + hingeQueryNs s }
        sendL s h.home { lmsg mHingeOffer h.obj h.epoch with offerer := self s, receiver := h.peer, hingeId := hid }
    else
      let q := h.obj.id
      if stripesBad s q ∨ thas s.ce.unreach h.home then offerBack s h sTargetDead 0 0
      else if stripesBusy s q ∨ tablesBusy s q ∨ (s.ce.logJobs.any fun kv => kv.2.seq == q) then s
      else if h.flushed = false then flushAsk (setHinge s { h with flushed := true }) q
      else if flushing s q then s
      else
        let (hid, s) := newHinge s
        let s := setHinge s { h with phase := 1, hingeId := hid, sentAt := s.now, queryAt := s.now + rf s rLtHinge 0 19 0 * 1000 + hingeQueryNs s }
        sendL s h.home { lmsg mHingeOffer h.obj h.epoch with offerer := self s, receiver := h.peer, hingeId := hid }) s

/-- What the offerer does on HINGE_REVERTED: a refusal, a revert by timeout, or an ORPHAN Latch (R277, R281). -/
def offerRevertedMsg (s : State) (h : Hinge) (m : LMsg) : State :=
  if m.status ≠ sHingeReverted then
    if m.status ≠ sStaleEpoch then offerBack s h m.status 0 0
    else if m.owner ≠ self s then offerLost s h m.status 0 m.owner m.epoch
    else offerBack s h m.status 0 (m.owner + m.epoch * 2 ^ 32)
  else if m.st = 2 ∨ m.owner ≠ self s then
    offerLost s h sHingeReverted 3 m.owner m.epoch
  else offerReverted s h m.epoch

/-- What the offerer does on the home's answer to its query (R281). -/
def offerQueried (s : State) (h : Hinge) (m : LMsg) : State :=
  if m.status ≠ sOk then offerBack s h sHingeReverted 1 0
  else if m.st = 1 ∧ m.hingeId = h.hingeId then setHinge s { h with askedAt := none, queryAt := s.now + hingeQueryNs s }
  else if m.st = 2 ∧ m.epoch > h.epoch then
    offerLost s h sHingeReverted 3 m.owner m.epoch
  else if m.owner = h.peer then offerWon s h m.owner m.epoch
  else if m.owner = self s ∧ m.epoch > h.epoch then offerReverted s h m.epoch
  else if m.epoch = h.epoch then offerBack s h sHingeReverted 1 0
  else
    offerLost s h sHingeReverted 3 m.owner m.epoch

/-! ### The receiver (R13, R142, R281, R283) -/

/-- ADMIT_FAILED at the receiver's host (R13). -/
def admitFailed (s : State) (c q offerer status : Nat) : State := raiseSeq s c evAdmitFailed status q offerer

/-- Why a receiver cannot take a sequence in, beside its reserve: Shutter, context, model geometry, adapter. DESIGN CHOICE (log entry 98):
the context's model geometry is that of the image the sequence names; with no image named any ACTIVE context has it. -/
def receiveCheck (s : State) (x : Seq) : Option Nat :=
  if shutter s = 1 then some sShutterClosed
  else if ctxState s x.ctx ≠ 1 then some sInvalidContext
  else if x.hasImage ∧ (match tget s.st.images x.imageId with
      | some i => !(i.ctx == x.ctx && i.st == 2 && i.kvFormat == x.geo.format && i.layers == x.geo.layers && i.kvHeads == x.geo.kvHeads && i.hpp == x.geo.hpp && i.headDim == x.geo.headDim)
      | none => true) = true then some sInvalidParam
  else if x.hasAdapter ∧ (adapterSlot s x.ctx x.adapterId x.adapterVer).isNone then some sInvalidParam
  else if descCount s ≥ 262144 then some sNoFit
  else none

/-- Release a receiver's admission (R279, R281). -/
def receiveUndo (s : State) (o : Obj) : State :=
  let s := dropHinge s o
  if o.region then s
  else match seqOf s o.id with
    | none => s
    | some _ => forgetSeq (dropOwn s o.id) o.id

/-- Decline an assigned offer (R283). -/
def decline (s : State) (home : Nat) (m : LMsg) (status : Nat) : State :=
  sendL (receiveUndo s m.obj) home { lmsg mHingeDecline m.obj m.epoch with status := status, receiver := self s, hingeId := m.hingeId }

/-- Send HINGE_ACCEPT: the exchange counts as the first renewal (R274, R279). -/
def acceptSend (s : State) (h : Hinge) : State :=
  let s := setHinge s { h with phase := 2, sentAt := s.now, queryAt := s.now + hingeQueryNs s, askedAt := none }
  sendL s h.home { lmsg mHingeAccept h.obj h.epoch with receiver := self s, hingeId := h.hingeId }

/-- State of a sequence at its new owner (R46, R283). -/
def stateAfter (x : Seq) (assigned : Bool) : Seq :=
  if assigned ∧ (x.st = .pausing ∨ x.st = .resuming) then { x with st := .paused, pauseCause := 2, expiry := 0 }
  else if x.st = .admitting ∨ x.st = .starved then { x with st := .runnable }
  else x

/-- TOKEN_BASE and FILL of the page a table entry names: from the stripe-table entry that names it, else from its trailer (R48). -/
def entryPlace (t : TableRead) (w : Word) : Option (Nat × Nat) :=
  let named := (t.stripes.map (·.2)).findSome? fun e => ((List.zip e.slots e.data).find? fun y => decide (y.1 = w.toNat)).map (·.2)
  match named, t.trailers.find? fun y => y.1 == w with
  | some d, _ => some (d.base, d.fill)
  | none, some y => some (y.2.tokenBase, y.2.fill)
  | none, none => none

/-- The pages a read of the tables names, of a sequence with g head groups a layer (R48). An entry that neither a stripe nor a trailer
places is a tail page of an owner that no longer answers: the mirror's copy stands for it (R283). -/
def tablePages (t : TableRead) (g : Nat) : List PageRef := t.entries.filterMap fun e =>
  (entryPlace t e.2.2).map fun p => ⟨e.1, e.2.1 % Nat.max g 1, e.2.2, p.1, p.2, false⟩

/-- Install what was read of the tables, keeping pages recovered from the mirror. The holders, and the number the next stripe takes, come
from the stripe table. A bad entry loses the sequence (R49). -/
def tablesIn (s : State) (q : Nat) (t : TableRead) : State :=
  let s := updSeq s q fun x => { x with
    pages := ((tablePages t (groups x.geo)).filter fun p => !(x.pages.any fun r => r.layer == p.layer && r.hg == p.hg && r.base == p.base)) ++ x.pages,
    holders := ((t.stripes.flatMap fun kv => kv.2.slots.filter (· != 0)).map (· / 2 ^ 44)).eraseDups,
    nextStripe := t.stripes.foldl (fun n kv => Nat.max n (kv.1 + 1)) 0, group := t.group, mirror := t.mirror,
    log := if x.log.isEmpty then t.log else x.log }
  if t.entries.any fun e => badEntry s e.2.2 then entryBad s q else s

/-- Recovery of an assigned sequence from what was read (R283 steps 2 to 6): the shortest log, the mirror's tail in new
frames, the commit moved back, the grammar state anew. The status of a decline, or the state after. -/
def recover (s : State) (q : Nat) (r : Recovery) : Nat ⊕ State :=
  match seqOf s q, (sortBy (fun a b : List Nat => decide (a.length ≤ b.length)) (r.logs.filterMap id)).head?, r.mirror with
  | some x, some log, some pages =>
    let length := log.length
    if mayTake s x.ctx pages.length = false then .inl sNoPage
    else match takeFrames s .opened x.ctx .none q pages.length with
      | none => .inl sNoPage
      | some (fs, s) =>
        let g := x.geo
        let s := (List.zip pages fs).foldl (fun s pf =>
          let (p, f) := pf
          let s := wrMem s (frameAddr f) p.bytes
          let s := if p.opened then s else setFrame s f { frame s f with st := .sealed }
          setTrailer s f (copyTrailer s f p.trailer (if p.opened then 2 else 3))) s
        let refs := (List.zip pages fs).map fun pf =>
          let t := pf.1.trailer
          (⟨t.layer, t.hg, handle (self s) pf.2 (frame s pf.2).gen, t.tokenBase, t.fill, pf.1.opened⟩ : PageRef)
        let opens := pages.filter fun p => p.opened && decide (p.trailer.committed > 0)
        let tailEnd := (pages.filter fun p => !p.opened).foldl (fun m p => Nat.max m (p.trailer.tokenBase + p.trailer.fill)) 0
        let tabEnd := (((r.tables.map fun t => tablePages t (groups g)).getD []).foldl (fun m p => Nat.max m (p.base + p.fill)) 0)
        let kv := match opens.head? with
          | some p => p.trailer.tokenBase + p.trailer.committed
          | none => if tailEnd > 0 then tailEnd else tabEnd
        let kv' := Nat.min kv (length - 1)
        if kv + 1 < length then .inl sLostState
        else
          let s := updSeq s q fun y => { y with
            pages := refs, unstriped := (refs.filter fun p => !p.opened).map fun p => (p.layer, p.hg, p.base),
            length := length, kvLength := kv', log := log }
          -- the commit point: rows at or beyond it are dropped, a sealed page over it becomes an OPEN copy (R63)
          let s := refs.foldl (fun s p =>
            match localFrame s p.entry with
            | none => s
            | some f =>
              let v := kv' - p.base
              if kv' ≤ p.base ∧ p.fill > 0 then
                dropRef (updSeq s q fun y => { y with pages := y.pages.filter (· != p), unstriped := y.unstriped.filter (· != (p.layer, p.hg, p.base)) }) f
              else if v < p.fill then
                let s := setFrame s f { frame s f with st := .opened }
                let s := setTrailer s f { trailer s f with fill := v, committed := v, state := 2, payloadCrc := 0, sealTime := 0 }
                let s := zeroBeyond s f g v
                updSeq s q fun y => { y with
                  pages := y.pages.map (fun r => if r == p then { r with fill := v, opened := true } else r),
                  unstriped := y.unstriped.filter (· != (p.layer, p.hg, p.base)) }
              else if p.opened then
                let s := setTrailer s f { trailer s f with fill := v, committed := v }
                updSeq s q fun y => { y with pages := y.pages.map fun r => if r == p then { r with fill := v } else r }
              else s) s
          let chosen := (log.filter fun e => decide (e < 2 ^ 18))
          let gram := match (if x.choice.grammarValid then s.st.grammars.find? fun kv => kv.1 == x.ctx * 64 + x.choice.grammarId else none) with
            | some kv => chosen.foldl (fun st tok => (gramNext kv.2.table st tok).getD st) (gramStart kv.2.table)
            | none => x.choice.grammarState
          let reps := (List.range 3).map fun i =>
            let w := x.logRep.getD i 0
            match r.logs.getD i none with | some _ => w | none => w / 2 ^ 44 * 2 ^ 44 + 1
          .inr (bump (updSeq s q fun y => { y with choice := { y.choice with grammarState := gram }, logRep := reps }) rLtDegradedCnt 0 63 48 1)
  | _, none, _ => .inl sLostState
  | _, _, none => .inl sLostState
  | none, _, _ => .inl sLostState

/-- What the receiver of a forwarded sequence holds of it: what the descriptor in the message says, at the message's epoch and home
(R13, R278). -/
def forwardedSeq (s : State) (src : Nat) (m : LMsg) : Seq :=
  { stateAfter (seqFrom m.body) (m.offerer == 0) with epoch := m.epoch, home := src, prefill := role s == 0 }

/-- The receiver takes sequence q in, as x, with page reserve rs (R278): OFFERED until it gains the ownership. -/
def takeIn (s : State) (q : Nat) (x : Seq) (rs : List Reserve) : State :=
  let s := if x.hasAdapter then pinAdapter s x.ctx x.adapterId x.adapterVer else s
  let s := modPg s fun p => { p with admitCtr := p.admitCtr + 1 }
  setSeq s q { x with st := .offered, before := x.st, reserve := rs, admitNo := s.pg.admitCtr }

/-- The receiver learns that it does not own: its admission goes, and LATCH_LOST is raised (R281). -/
def notGained (s : State) (h : Hinge) (epoch : Nat) : State :=
  let s := receiveUndo s h.obj
  if h.obj.region then raiseCtx s h.ctx evRegionLost 0 epoch h.obj.id else raiseSeq s h.ctx evLatchLost 0 h.obj.id epoch

/-- A forward at a higher epoch than this controller holds of its sequence shows that it owns no longer: what it still holds ends as R271
and R281 say, so that the admission is judged anew (R13). -/
def staleEnds (s : State) (m : LMsg) : State :=
  let s := match hingeOf s m.obj with
    | some h => if m.epoch ≤ h.epoch then s
      else if h.offerer then offerLost s h sHingeReverted 3 m.offerer m.epoch
      else notGained s h m.epoch
    | none => s
  match seqOf s m.obj.id with
  | some x => if x.epoch < m.epoch then loseOwner s m.obj.id m.offerer m.epoch else s
  | none => s

/-- HINGE_FORWARD (R13, R142, R283): the receiver admits the sequence, recovers an assigned one, and accepts; or it
declines, or raises ADMIT_FAILED and sends nothing. A region is accepted when its context is ACTIVE. -/
def forwardIn (s : State) (src : Nat) (m : LMsg) (ctx : Nat) (r : Recovery) : State :=
  let asg := m.offerer == 0
  let h : Hinge := ⟨m.obj, false, none, 2, m.hingeId, src, m.offerer, m.epoch, ctx, s.now, 0, none, .runnable, asg, 0, false, false, false⟩
  if m.obj.region then
    if shutter s = 1 ∨ (hingeOf s m.obj).isSome then s else acceptSend s h
  else
    let q := m.obj.id
    let x := forwardedSeq s src m
    let no (s : State) (st : Nat) : State := if asg then decline s src m st else admitFailed s x.ctx q m.offerer st
    let s := staleEnds s m
    if (seqOf s q).isSome ∨ (hingeOf s m.obj).isSome then no s sInvalidParam
    else match receiveCheck s x with
      | some st => no s st
      | none => match takeReserve s x.ctx q (cells x.geo) with
        | none => no s sNoPage
        | some (rs, s) =>
          let s := takeIn s q x rs
          let h := { h with ctx := x.ctx, before := x.st }
          if asg = false then acceptSend s h
          else match recover s q r with
            | .inl st => decline s src m st
            | .inr s => match r.tables with
              | some t => acceptSend (tablesIn s q t) h
              | none => setHinge s { h with phase := 5, queryAt := s.now + hingeQueryNs s }

/-- The new owner's tables are read: it runs the sequence in the state the offer found (R281). -/
def gainedRun (s : State) (h : Hinge) (t : TableRead) : State :=
  let q := h.obj.id
  let s := tablesIn (dropHinge s h.obj) q t
  let s := updSeq s q fun x => if x.st = .offered then { x with st := x.before } else x
  writeDesc s q

/-- Replace the log holders an assigned owner could not read before it reports a token (R283 step 2): their handles are
marked in the reserved low bits. -/
def replaceUnread (s : State) (q : Nat) : State :=
  match seqOf s q with
  | none => s
  | some x => (List.range 3).foldl (fun s i => if x.logRep.getD i 0 % 2 ^ 11 = 1 then logReplace s q i else s) s

/-- The receiver learns that it owns (R281): LATCH_GAINED, then the tables; a region needs none. -/
def gained (s : State) (h : Hinge) (epoch : Nat) (t : Option TableRead) : State :=
  let s := leaseFrom s h.home h.sentAt
  if h.obj.region then
    let s := modCe (dropHinge s h.obj) fun c => { c with regs := tput c.regs h.obj.id ⟨h.ctx, epoch, 0⟩ }
    raiseCtx s h.ctx evRegionGained 0 epoch h.obj.id
  else
    let q := h.obj.id
    let s := updSeq s q fun x => { x with epoch := epoch }
    let s := raiseSeq s h.ctx evLatchGained 0 q epoch
    let h := { h with phase := 3, epoch := epoch, gainedAt := s.now, queryAt := s.now + hingeQueryNs s }
    if h.assigning then
      let s := dropHinge s h.obj
      let s := updSeq s q fun x => if x.st = .offered then { x with st := x.before } else x
      replaceUnread (writeDesc s q) q
    else match t with
      | some t => gainedRun s h t
      | none => setHinge s h

/-- HINGE_DONE (R279, R281, R282). t is what the new owner's read of the tables returns. -/
def hingeDone (s : State) (m : LMsg) (t : Option TableRead) : State :=
  let s := if isMgr s then assignEnds s m.obj sOk 0 else s
  match hingeOf s m.obj with
  | none => s
  | some h =>
    if h.offerer then (if h.phase = 1 then offerWon s h m.owner m.epoch else s)
    else if h.phase = 2 then (if m.owner = self s then gained s h m.epoch t else notGained s h m.epoch)
    else s

/-- HINGE_REVERTED (R279–R283). -/
def hingeReverted (s : State) (m : LMsg) : State :=
  let s := if isMgr s then assignEnds s m.obj m.status (m.owner + m.epoch * 2 ^ 32) else s
  match hingeOf s m.obj with
  | none => s
  | some h =>
    if h.offerer then (if h.phase = 1 ∧ m.hingeId = h.hingeId then offerRevertedMsg s h m else s)
    else if m.hingeId = h.hingeId ∧ (h.phase = 2 ∨ h.phase = 5) then notGained s h m.epoch
    else s

/-- HINGE_QUERY_TIMER (R281, R283): a waiting party queries the home; a new owner reads the tables again, and pauses the
sequence for recovery when that has failed too long. -/
def hingeTimer (s : State) (o : Obj) (t : Option TableRead) : State :=
  match hingeOf s o with
  | none => s
  | some h =>
    if h.phase = 0 ∨ s.now < h.queryAt then s
    else if h.phase = 3 then
      match t with
      | some t => gainedRun s h t
      | none =>
        let s := if s.now ≥ h.gainedAt + homeDeadNs s + 100000000 ∧ h.warned = false then recoveryPause s o.id else s
        setHinge s { h with queryAt := s.now + hingeQueryNs s, warned := h.warned || decide (s.now ≥ h.gainedAt + homeDeadNs s + 100000000) }
    else if h.phase = 5 then
      match t with
      | some t => acceptSend (tablesIn s o.id t) h
      | none => setHinge s { h with queryAt := s.now + hingeQueryNs s }
    else match h.askedAt with
      | none =>
        let s := setHinge s { h with askedAt := some s.now, queryAt := s.now + leaseNs s }
        sendL s h.home (lmsg mLatchQuery o h.epoch)
      | some _ =>
        let s := if h.offerer then (match h.cmd with | some id => finish s id sTargetDead 0 0 0 | none => s) else s
        let s := setHinge s { h with cmd := none, dead := true, askedAt := some s.now, queryAt := s.now + leaseNs s }
        sendL s h.home (lmsg mLatchQuery o h.epoch)

/-- The home's answer to a waiting party's query. -/
def hingeQueried (s : State) (src : Nat) (m : LMsg) (t : Option TableRead) : State :=
  match hingeOf s m.obj with
  | none => s
  | some h =>
    if h.askedAt.isNone ∨ src ≠ h.home then s
    else if h.offerer then offerQueried s h m
    else if h.phase ≠ 2 then s
    else if m.status = sOk ∧ m.owner = self s ∧ m.st ≠ 1 then gained s h m.epoch t
    else if m.status = sOk ∧ m.st = 1 ∧ m.hingeId = h.hingeId then setHinge s { h with askedAt := none, queryAt := s.now + hingeQueryNs s }
    else notGained s h m.epoch

/-- HOME_MOVED at the owner (R285): HOME and LATCH_REF follow, and held writes go to the new home. -/
def homeMovedIn (s : State) (src : Nat) (m : LMsg) : State :=
  let s := homeMovedMgr s src m
  let q := m.obj.id
  let s := modCe s fun c => { c with hinges := c.hinges.map fun h => if h.obj = m.obj then { h with home := src } else h }
  match seqOf s q with
  | none => s
  | some x =>
    let s := updSeq s q fun y => { y with home := src, latchRef := src * 2 ^ 44 + y.latchRef % 2 ^ 44 }
    let s := if s.pg.seqs.any fun kv => kv.2.home == x.home then s else modCe s fun c => { c with unreach := tdel c.unreach x.home }
    writeDesc (homeBack (renewTo (leaseFrom s src s.now) src) q src) q

/-- EPOCH_NOTICE at a fenced party (R272). -/
def epochNotice (s : State) (src : Nat) (m : LMsg) : State :=
  sendL (raiseSeen s m.obj.id m.epoch) src (lmsg mEpochAck m.obj m.epoch)

/-- HOME_OUTAGE_TIMEOUT (R285): writes held for HOME_DEAD_MS + 100 ms pause their sequences for recovery. -/
def homeOutage (s : State) (home : Nat) : State :=
  match tget s.ce.unreach home with
  | none => s
  | some t =>
    if s.now < t + homeDeadNs s + 100000000 then s
    else (((s.ce.held.map (·.1)).eraseDups).filter fun q => match seqOf s q with
      | some x => x.home == home | none => false).foldl (fun s q => recoveryPause s q) s

end Sys2Proof.Machine
end

