-- ==== Sys2Proof/Machine/Rebuild.lean ====
section
/-! DEFINITION. Rebuild of a failed stripe-group position by a spare (R294). Only the first rebuild of the list runs; a
spare of several groups takes them one after the other. -/
namespace Sys2Proof.Machine

/-- Change the rebuild that runs. -/
def modRebuild (s : State) (f : Rebuild → Rebuild) : State :=
  modCe s fun c => { c with rebuilds := match c.rebuilds with | r :: l => f r :: l | [] => [] }

/-- Start the first rebuild's journal operation; it waits when no slot is free (R297). -/
def rebuildStart (s : State) : State :=
  match s.ce.rebuilds with
  | r :: _ =>
    if r.op ≠ 0 ∨ s.ce.jrWaits.contains .rebuild then s
    else match jrStart s jrRebuild (r.group * 16 + r.pos) 0 .rebuild with
      | (some op, s) => modRebuild s fun r => { r with op := op }
      | (none, s) => s
  | [] => s

/-- The manager names this controller as target of a position, with the ledger's sequences of the group. -/
def rebuildIn (s : State) (group pos : Nat) (seqs : List (Nat × Nat)) : State :=
  if s.ce.rebuilds.any (fun r => r.group == group && r.pos == pos) then s
  else
    let k := match tget s.ce.groups group with | some g => g.k | none => 0
    let r : Rebuild := ⟨group, pos, k, sortBy (fun a b => a.1 ≤ b.1) seqs, 0, 0, none, 0⟩
    rebuildStart (modCe s fun c => { c with rebuilds := c.rebuilds ++ [r] })

/-- The failed shard of a stripe: j = (p − s) mod (K + 2). -/
def rebuildShard (r : Rebuild) : Nat := (r.pos + (r.k + 2) - r.stripe % (r.k + 2)) % (r.k + 2)

/-- The next stripe; progress is journaled every 256 stripes. -/
def rebuildNext (s : State) : State :=
  let s := modRebuild s fun r => { r with stripe := r.stripe + 1, pend := none }
  match s.ce.rebuilds with
  | r :: _ => if r.stripe % 256 = 0 then jrPhase s r.op 2 (r.done + r.stripe * 2 ^ 32) else s
  | [] => s

/-- Every stripe is done: the operation ends, the manager is told, and the next rebuild starts. -/
def rebuildFinish (s : State) (r : Rebuild) : State :=
  let s := jrEnd s r.op 3 sOk
  let s := modCe s fun c => { c with rebuilds := c.rebuilds.drop 1 }
  rebuildStart (sendX s (mgrEp s) 6 (.rebuilt r.group r.pos))

/-- Rebuild one shard into a new frame, and ask the home to replace the slot. -/
def rebuildWrite (s : State) (r : Rebuild) (q home : Nat) (x : RebuildRead) : State :=
  let j := rebuildShard r
  let old := x.entry.slots.getD j 0
  let failed := match tget s.ce.groups r.group with | some g => g.members.getD r.pos 0 | none => 0
  let wanted := if old = 0 then !x.entry.health.contains j else old / 2 ^ 44 == failed
  if wanted = false ∨ (x.entry.count ≤ j ∧ j < r.k) then rebuildNext s
  else match solveShard r.k j x.shards with
    | none => rebuildNext s
    | some bs =>
      let c := x.entry.ctx
      if ctxState s c ≠ 1 then rebuildNext s
      else if mayTake s c 1 = false then s
      else match takeFrame s .sealed c .none q with
        | (none, s) => s
        | (some f, s) =>
          let t : Trailer := { noTrailer with
            seq := q, format := x.geo.format, ptCode := x.geo.ptCode, headsM1 := x.geo.hpp - 1, headDim := x.geo.headDim,
            scaleOff := scaleOffset x.geo, producer := self s, context := c }
          let t := if j < r.k then
              let d := x.entry.data.getD j ⟨0, 0, 0, 0, 0, 0⟩
              { t with layer := d.layer, hg := d.hg, state := 3, tokenBase := d.base, fill := d.fill, committed := d.fill,
                       payloadCrc := d.crc, sealTime := d.sealTime }
            else parityTrailer s t r.stripe (j - r.k) bs
          let s := stackAccess (wrMem s (frameAddr f) bs) c (frameAddr f) bs.length
          let s := setTrailer s f (copyTrailer s f t 3)
          let w := handle (self s) f (frame s f).gen
          let h : Holding := ⟨q, t.layer, t.hg, w, t.tokenBase, t.fill, decide (r.k ≤ j), r.stripe, j, x.owner, c, x.hint⟩
          let s := modRebuild s fun r => { r with pend := some h }
          let s := cuWork (bump (bump s rLtDegradedCnt 0 31 0 1) rCuCheckCnt (frameStack f) 63 32 1) (frameAddr f) bs.length
          (askC s home mStripeReplace q (r.stripe + j * 2 ^ 32) old w.toNat .replace).2

/-- REBUILD_STRIPE: the next stripe of the rebuild that runs, as read from its home and the readable shards; none when the
sequence has no further stripe. -/
def rebuildStep (s : State) (x : Option RebuildRead) : State :=
  match s.ce.rebuilds with
  | [] => s
  | r :: _ =>
    if r.op = 0 ∨ r.pend.isSome then s
    else match r.seqs[r.done]?, x with
      | none, _ => rebuildFinish s r
      | some _, none =>
        let s := modRebuild s fun r => { r with done := r.done + 1, stripe := 0 }
        if r.done + 1 = r.seqs.length then rebuildFinish s r else jrPhase s r.op 2 (r.done + 1)
      | some (q, home), some x => rebuildWrite s r q home x

/-- STRIPE_REPLY: the page takes its place in the holding index, or its frame is freed when the slot had changed. -/
def stripeReply (s : State) (src : Nat) (m : CMsg) : State :=
  match tget s.ce.reqs m.req with
  | some r =>
    if r.use = .replace ∧ r.dst = src ∧ r.obj = m.obj then
      let s := modCe s fun c => { c with reqs := tdel c.reqs m.req }
      match s.ce.rebuilds with
      | ⟨_, _, _, _, _, _, some h, _⟩ :: _ =>
        rebuildNext (if m.status = sOk then modPg s fun g => { g with index := g.index ++ [h] } else dropPage s h.entry)
      | _ => s
    else s
  | none => s

/-- STRIPE_REPLACE goes unanswered: the frame is freed, and the stripe taken up again (R276). -/
def rebuildAgain (s : State) : State :=
  match s.ce.rebuilds with
  | ⟨_, _, _, _, _, _, some h, _⟩ :: _ => modRebuild (dropPage s h.entry) fun r => { r with pend := none }
  | _ => s

/-- LT_REBUILD_STATUS. -/
def viewRebuild (s : State) : Nat :=
  match s.ce.rebuilds with
  | r :: _ => 1 + r.pos % 16 * 2 + r.done % 2 ^ 32 * 2 ^ 5
  | [] => 0

end Sys2Proof.Machine
end

