-- ==== Sys2Proof/Machine/Owner.lean ====
section
/-! DEFINITION. The check of the home's record that every command of an object passes (R271), and what the answers to
this controller's requests, or their absence, do (R15, R170, R276, R285, R287, R295, R477). -/
namespace Sys2Proof.Machine

/-! ### The check of R271 -/

/-- The object an opcode names. -/
def objOf (op : Nat) (c : Cmd) : Obj := if op = 0x5A ∨ op = 0x5C then cmdObj c else ⟨false, fld c.w1 31 0⟩

/-- The home this controller knows of an object (R354, LATCH_QUERY). -/
def knownHome (s : State) (o : Obj) : Option Nat :=
  if o.region then some (o.id / 2 ^ 44)
  else match seqOf s o.id with
    | some x => some x.home
    | none => if thas s.ce.homes o.id then some (self s)
      else match tget s.ce.copies o.id, tget s.ce.former o.id with
        | some (h, _), _ => some h
        | none, some (h, _) => some h
        | none, none => none

/-- Ask a home about an object for a command. -/
def askHome (s : State) (id : Nat) (o : Obj) (home : Nat) : State :=
  let req := s.ce.reqCtr
  askL (waitFor s id (.latchQuery req)) home (lmsg mLatchQuery o 0) (.query o)

/-- What the owner does with the home's record when it names another owner, or another epoch (R271). -/
def learn (s : State) (m : LMsg) : State :=
  if (hingeOf s m.obj).isSome then s
  else if m.obj.region then
    match tget s.ce.regs m.obj.id with
    | none => s
    | some r =>
      if m.owner ≠ self s ∨ m.st = 2 then modCe s fun c => { c with regs := tdel c.regs m.obj.id }
      else if m.st = 0 ∧ m.epoch > r.epoch then modCe s fun c => { c with regs := tput c.regs m.obj.id { r with epoch := m.epoch, st := 0 } }
      else s
  else match seqOf s m.obj.id with
    | none => s
    | some x =>
      if m.owner ≠ self s ∨ m.st = 2 then loseOwner s m.obj.id m.owner m.epoch
      else if m.st = 0 ∧ m.epoch > x.epoch then adoptEpoch s m.obj.id m.epoch
      else s

/-- HINGE_OFFER of an object this controller owns: its own checks, then the next step boundary (R277). -/
def actOffer (id : Nat) (c : Cmd) (s : State) (epoch : Nat) : State :=
  let o := cmdObj c
  if fld c.w2 20 1 = self s then fail s id sInvalidParam 0
  else if fld c.w3 31 0 ≠ epoch then finish s id sStaleEpoch 0 (self s + epoch * 2 ^ 32) 0
  else if o.region then defer (pend s id (.offer o.id)) .device (.hingeOffer id)
  else match seqOf s o.id with
    | some x => if x.st = .runnable ∨ x.st = .paused then defer (pend s id (.offer o.id)) (.sequence o.id) (.hingeOffer id)
      else fail s id sInvalidParam 0
    | none => fail s id sInvalidParam 0

/-- A command of a sequence that passed R271. -/
def actSeq (op id : Nat) (c : Cmd) (x : Seq) (s : State) : State :=
  if op = 0x11 then actAppend id c x s
  else if op = 0x12 then
    (if !(x.st == .runnable || (x.st == .paused && decide (x.pauseCause ≤ 1))) ||
        decide (fld c.w2 22 0 = 0 ∨ x.kvLength < fld c.w2 22 0 ∨ fld c.w3 1 0 = 3) then fail s id sInvalidParam 0
     else defer (waitFor s id .boundary) (.sequence (fld c.w1 31 0)) (.fork id))
  else if op = 0x13 then actPause id c x s
  else if op = 0x14 then actResume id c x s
  else if op = 0x15 then actHint id c x s
  else if op = 0x16 then actCancel id c x s
  else actFree id c x s

/-- The home's record of a command's object is known: the command acts, or fails with STALE_EPOCH (R271). -/
def latchAnswered (s : State) (id src : Nat) (m : LMsg) : State :=
  match openCmd s id with
  | none => s
  | some o =>
    let c := o.cmd
    let pos := m.owner + m.epoch * 2 ^ 32
    if m.status ≠ sOk then fail s id m.status 0
    else if o.opcode = 0x5A then finish s id sOk 0 (m.owner + m.st * 2 ^ 20 + m.epoch * 2 ^ 32) src
    else if m.obj.region then
      match tget s.ce.regs m.obj.id with
      | some r =>
        if r.ctx ≠ cCtx c then fail s id sInvalidParam 0
        else if m.owner ≠ self s ∨ m.epoch ≠ r.epoch then learn (finish s id sStaleEpoch 0 pos 0) m
        else actOffer id c s r.epoch
      | none => finish s id sStaleEpoch 0 pos 0
    else match seqOf s m.obj.id with
      | none =>
        if o.opcode = 0x17 ∧ isMgr s = true ∧ m.st = 2 then managerFree s id m.obj.id
        else finish s id sStaleEpoch 0 pos 0
      | some x =>
        if x.ctx ≠ cCtx c then fail s id sInvalidParam 0
        else if m.owner ≠ self s ∨ m.epoch ≠ x.epoch then learn (finish s id sStaleEpoch 0 pos 0) m
        else if o.opcode = 0x5C then actOffer id c s x.epoch
        else actSeq o.opcode id c x s

/-- What a home's own record answers. -/
def ownRecord (s : State) (o : Obj) : LMsg :=
  match lvOf s o with
  | some v => homeAnswer o v
  | none => { lmsg mLatchReply o 0 with status := sInvalidParam }

/-- Start the check of R271 for a command: the home itself, a LATCH_QUERY, or first a HOME_LOOKUP. -/
def latched (op id : Nat) (c : Cmd) (s : State) : State :=
  let o := objOf op c
  match knownHome s o with
  | some h =>
    if h = self s then latchAnswered s id h (ownRecord s o)
    else askHome s id o h
  | none =>
    let req := s.ce.reqCtr
    (askC (waitFor s id (.latchQuery req)) (mgrEp s) mHomeLookup o.id 0 0 0 (.lookup o.id)).2

def opLatchQuery (id : Nat) (c : Cmd) (s : State) : State := latched 0x5A id c s
def opHingeOffer (id : Nat) (c : Cmd) (s : State) : State := latched 0x5C id c s
def opSeqAppend (id : Nat) (c : Cmd) (s : State) : State := latched 0x11 id c s
def opSeqFork (id : Nat) (c : Cmd) (s : State) : State := latched 0x12 id c s
def opSeqPause (id : Nat) (c : Cmd) (s : State) : State := latched 0x13 id c s
def opSeqResume (id : Nat) (c : Cmd) (s : State) : State := latched 0x14 id c s
def opResumeHint (id : Nat) (c : Cmd) (s : State) : State := latched 0x15 id c s
def opSeqCancel (id : Nat) (c : Cmd) (s : State) : State := latched 0x16 id c s
def opSeqFree (id : Nat) (c : Cmd) (s : State) : State := latched 0x17 id c s

/-- Range check of SEQ_PAUSE (R166). -/
def pauseCheck (c : Cmd) (_ : State) : Option (Nat × Nat) := if fld c.w2 16 0 > 86400 then some (sInvalidParam, 0) else none

/-- The commands that wait for a LATCH_QUERY or HOME_LOOKUP. -/
def waiters (s : State) (req : Nat) : List Nat := (s.host.opens.filter (·.wait == .latchQuery req)).map (·.id)

/-- A release of a Latch by the closing Shutter ends (R434, R436): this controller owns the object no longer; released
counts when the home accepted. -/
def releaseEnd (s : State) (o : Obj) (ok : Bool) : State :=
  let s := if o.region then modCe s fun c => { c with regs := tdel c.regs o.id } else loseOwner s o.id 0 0
  modGl s fun g => { g with close := { g.close with released := g.close.released + b2n ok } }

/-- LATCH_REPLY: it answers the oldest query outstanding about the object, a waiting party of a handoff, or a promoted
home. -/
def latchReply (s : State) (src : Nat) (m : LMsg) (t : Option TableRead) : State :=
  let s := promotedReply s src m
  match s.ce.reqs.find? fun kv => kv.2.use == .release m.obj && kv.2.dst == src with
  | some (req, _) =>
    let s := modCe s fun c => { c with reqs := tdel c.reqs req }
    if m.status = sInvalidParam then s else releaseEnd s m.obj (m.status == sOk)
  | none => match s.ce.reqs.find? fun kv => kv.2.use == .query m.obj && kv.2.dst == src with
  | none => hingeQueried s src m t
  | some (req, _) =>
    let s := modCe s fun c => { c with reqs := tdel c.reqs req }
    let w := waiters s req
    if w.isEmpty then learn (hingeQueried s src m t) m
    else w.foldl (fun s id => latchAnswered s id src m) s

/-! ### The mirror partner is lost (R295) -/

/-- Copies of a sequence's log or mirror still outstanding. -/
def repairing (s : State) (q : Nat) : Bool := s.ce.reqs.any fun kv => match kv.2.use with
  | .logNew a _ => a == q
  | .logCopy a _ => a == q
  | .mirrorNew a => a == q
  | .mirrorCopy a => a == q
  | _ => false

/-- The slots of a sequence run again once nothing of its log and mirror is being replaced. -/
def unpad (s : State) (q : Nat) : State :=
  if repairing s q then s else modCe s fun c => { c with padded := c.padded.filter (· != q) }

/-- Mirror writes fail: the owner asks the home for a new partner and pads the sequence's slots. -/
def mirrorLost (s : State) (q : Nat) : State :=
  match seqOf s q with
  | none => s
  | some x =>
    let s := modCe s fun c => { c with padded := addSorted q c.padded }
    if repairing s q then s else (askC s x.home mMirrorReq q x.mirror 0 0 (.mirrorNew q)).2

/-- A new partner is named: every tail page goes there. -/
def mirrorNamed (s : State) (q new : Nat) : State :=
  match seqOf s q with
  | none => s
  | some x =>
    let s := updSeq s q fun y => { y with mirror := new }
    let s := (ownPages s q x).foldl (fun s p => mirrorPage s q 0 p (.mirrorCopy q)) s
    unpad s q

/-! ### Answers -/

/-- A table write came back fenced: the owner asks the home where it stands (R271, R272). -/
def tableStale (s : State) (q : Nat) : State :=
  match seqOf s q with
  | some x => askL s x.home (lmsg mLatchQuery ⟨false, q⟩ x.epoch) (.query ⟨false, q⟩)
  | none => s

/-- Everything the home must hold of a sequence is written again once it can be reached (R285, R477). -/
def rewrite (s : State) (q : Nat) : State :=
  match seqOf s q with
  | none => s
  | some x => writeDesc (homeSend (homeLost s x.home q) q (.entries ((x.pages.filter fun p => !p.opened).map (entryOfPage x))) (.table q)).2 q

/-- A replica of a token log cannot be written: a replacement is asked for (R15). -/
def logLost (s : State) (job which : Nat) : State :=
  match tget s.ce.logJobs job with
  | some j => logReplace s j.seq which
  | none => s

/-- An answer to one of the firmware's own requests. -/
def xAnswer (s : State) (src req st : Nat) (vals : List Nat) : State :=
  match tget s.ce.reqs req with
  | none => s
  | some r =>
    if r.dst ≠ src then s
    else
      let ok := st == sOk
      let s := modCe s fun c => { c with reqs := tdel c.reqs req }
      match r.use with
      | .createLatch job => if ok then latchMade s job r.sentAt vals else admitFail s job st 0
      | .createLog job w => if ok then logMade s job w (vals.getD 0 0) else admitFail s job st (if st = sNoPage then 1 else 0)
      | .logCopy q w => if ok then logCopied s q w (vals.getD 0 0) else logReplace s q w
      | .mirrorCopy q => if ok then unpad s q else mirrorLost s q
      | .table q => if st = sStaleEpoch then tableStale s q else s
      | .stripeTable job => if ok then stripeFormed s job else
          let s := modCe s fun c => { c with stripes := tmod c.stripes job fun j => { j with st := 2 } }
          tableStale s r.obj
      | .mirror q => if ok then s else if st = sStaleEpoch then slotsFenced s q else mirrorLost s q
      | .log job w => if ok then logAnswer s req job else if st = sStaleEpoch then logFenced s job else logLost s job w
      | .gate g => gateStep s g req
      | .shard job j => shardAnswer s req job j (if ok then vals.head? else none)
      | .regionDir a cmd => if ok then regionListed s a cmd
          else regionUnlisted s a cmd st (if st = sTargetDead then 3 else vals.getD 0 0)
      | .regionMod cmd =>
        let a := (openCmd s cmd).map fun o => (o.cmd.w1.toNat, wbit o.cmd.w2 0)
        let s := finish s cmd st (vals.getD 0 0) (vals.getD 1 0) 0
        match a with
        | some (a, true) => if ok then modCe s fun c => { c with regs := tdel c.regs a } else s
        | _ => s
      | _ => s

/-- A request is sent again under a new number (R276). -/
def askAgain (s : State) (r : Req) : State := (askC s r.dst r.sub r.obj r.a 0 0 r.use).2

/-- Keep a request that the manager could not serve, to be sent again after TIMEOUT_MS. -/
def askLater (s : State) (req : Nat) (r : Req) : State := modCe s fun c => { c with reqs := tput c.reqs req { r with sentAt := s.now } }

/-- A request goes unanswered (R276): what the last column of its table gives. -/
def unanswered (s : State) (req : Nat) : State :=
  match tget s.ce.reqs req with
  | none => s
  | some r =>
    let s := modCe s fun c => { c with reqs := tdel c.reqs req }
    match r.use with
    | .plain => if r.sub = mPromote then promoteNext s r.dst r.a else s
    | .admission job => admitFail s job sTargetDead 0
    | .createLatch job => admitFail s job sTargetDead 0
    | .createLog job _ => admitFail s job sTargetDead 0
    | .refInc job => admitFail s job sTargetDead 0
    | .retire _ => askAgain s r
    | .joined => askAgain { s with ce := s.ce } { r with dst := mgrEp s }
    | .leaving => s
    | .unreachable home => if thas s.ce.unreach home then askAgain s r else s
    | .logNew q w => if (seqOf s q).isSome then
        (askC s (mgrEp s) mLogReplicaReq q r.a 0 0 (.logNew q w)).2 else s
    | .logCopy q w => logReplace s q w
    | .mirrorNew q => homeLost (modCe s fun c => { c with padded := addSorted q c.padded }) r.dst q
    | .mirrorCopy q => mirrorLost s q
    | .lookup _ => (waiters s req).foldl (fun s id => fail s id sTargetDead 0) s
    | .query o =>
      let s := (waiters s req).foldl (fun s id => fail s id sTargetDead 0) s
      match (if o.region then none else seqOf s o.id) with
      | some x => if x.home = r.dst then homeLost s r.dst o.id else s
      | none => s
    | .spill q => reportMiss s q req r.dst
    | .prefetch q => reportMiss s q req r.dst
    | .refDec => s
    | .refDrop q w => (askC s r.dst mRefDrop q w 0 0 (.refDrop q w)).2
    | .replace => rebuildAgain s
    | .shard job j => shardAnswer s req job j none
    | .stripeTable job =>
      let s := homeLost s r.dst r.obj
      stripeJudge (modCe s fun c => { c with stripes := tmod c.stripes job fun j => { j with st := 0 } }) job
    | .table q => rewrite s q
    | .mirror q => mirrorLost s q
    | .log job w => logLost s job w
    | .gate g => gateStep s g req
    | .regionDir a cmd => regionUnlisted s a cmd sTargetDead 0
    | .regionMod cmd => fail s cmd sTargetDead 0
    | .assign cmd => fail s cmd sTargetDead 0
    | .release o => releaseEnd s o false
    | .closing => modGl s fun g => { g with close := { g.close with promoting := [] } }

/-- Requests for spill and prefetch, whose reports are awaited for REPORT_MS instead (R170). -/
def reportUse : ReqUse → Bool
  | .spill _ | .prefetch _ => true
  | _ => false

/-- REQUEST_UNANSWERED: no answer within TIMEOUT_MS. A table write held for an unreachable home is not outstanding. -/
def requestTimeout (s : State) (req : Nat) : State :=
  match tget s.ce.reqs req with
  | none => s
  | some r => if reportUse r.use ∨ r.fw = 2 ^ 40 ∨ s.now < r.sentAt + leaseNs s then s else unanswered s req

/-- The messages undelivered in this command (R263, R276): a table write is held, a request that is sent again every TIMEOUT_MS waits for
that, any other request is unanswered, and a FLUSH has failed (R477). -/
def fwFailed (s : State) : State :=
  let fs := s.fab.fwFail
  let s := modFab s fun f => { f with fwFail := [] }
  fs.foldl (fun s x =>
    let m := x.1
    match s.ce.reqs.find? fun kv => kv.2.fw == m.id && kv.2.dst == m.dst with
    | none => match m.use with
      | .flush q => flushFailed s q m.dst
      | _ => s
    | some (req, r) => match r.use with
      | .table q =>
        let s := homeLost s r.dst q
        homeHold (modCe s fun c => { c with reqs := tput c.reqs req { r with fw := 2 ^ 40 } }) q ⟨m.dst, m.type, m.tc, m.ctl, m.payload⟩
      | .retire _ | .joined | .unreachable _ | .logNew _ _ | .refDrop _ _ => s
      | _ => unanswered s req) s

/-- A cell message that answers one of this controller's requests (R276). rs is what a resume's owner reads of the
stripes whose parity it computes anew (R173). -/
def cellAnswer (s : State) (src : Nat) (m : CMsg) (rs : List StripeRead) : State :=
  match tget s.ce.reqs m.req with
  | none => s
  | some r =>
    if r.dst ≠ src ∨ r.obj ≠ m.obj ∧ m.sub ≠ mAdmitReply then s
    else
      let s := modCe s fun c => { c with reqs := tdel c.reqs m.req }
      let ok := m.status == sOk
      match r.use with
      | .admission job => admitReply s job m
      | .retire _ => if m.status = sTargetDead then askLater s m.req r else s
      | .joined => if m.status = sTargetDead then askLater s m.req r else s
      | .unreachable _ => if m.status = sTargetDead then askLater s m.req r else s
      | .logNew q w => if ok then logNamed s q w m.a else askLater s m.req r
      | .mirrorNew q => if ok then mirrorNamed s q m.a else askLater s m.req r
      | .lookup q => (waiters s m.req).foldl (fun s id =>
          if ok then askHome s id ⟨false, q⟩ m.a else fail s id m.status (if m.status = sTargetDead then 3 else 0)) s
      | .spill q => reportIn s q m.req (bits m.a 31 0) (bits m.a 63 32) true
      | .prefetch q =>
        let s := reportIn s q m.req 0 (bits m.a 31 0) ok
        match tget s.pg.reports q, seqOf s q with
        | some p, some x => if p.waiting.isEmpty ∧ p.usable ∧ x.summarised ≠ 0 then rs.foldl (fun s e => stripeRestore s q e) s else s
        | _, _ => s
      | .refInc job => if ok then refCounted s job src else if m.status = sNoFit then admitFail s job sNoFit 11 else admitFail s job sTargetDead 0
      | _ => s

end Sys2Proof.Machine
end

