-- ==== Sys2Proof/Machine/Inbound.lean ====
section
/-! DEFINITION. What a controller does with messages that reach it: the firmware's own messages by kind, Latch messages
and cell messages by subtype (R263, R275, R276). A controller that does not serve its peers acts on none (R433). -/
namespace Sys2Proof.Machine

/-- A firmware message is handled. -/
def xIn (s : State) (src : Nat) : XMsg → State
  | .answer req st vals => xAnswer s src req st vals
  | .shard req _ p => shardIn s src req p
  | .mirror req epoch w => mirrorIn s src req epoch w
  | .mirrorDrop q layer hg base => mirrorDropIn s q layer hg base
  | .unmirror q => unmirrorIn s q
  | .log req q epoch c pos es => logIn s src req q epoch c pos es
  | .logFree q => logFreeIn s q
  | .home req q epoch w => homeWrite s src req q epoch w
  | .copy req q h => copyIn s src req q h
  | .uncopy q => modCe s fun c => { c with copies := tdel c.copies q }
  | .moved q => homeForget s q
  | .ledger req w =>
    let s := if isMgr s then (ledgerPut s w).2 else ledgerApply s w
    if req = 0 then s else answerX s src 0 req sOk []
  | .lost q c => lostIn s q c
  | .create req q c group prefill logs desc => homeCreate s src req q c group prefill logs desc
  | .retire req q => answerX (homeRetire s q) src 0 req sOk []
  | .group id g => ledgerApply s (.group id g)
  | .regionMod req a c epoch destroy mode => regionModIn s src req a c epoch destroy mode
  | .regionDir req a c created gone => regionDirIn s src req a c created gone
  | .regionOwner a c epoch => regionOwnerIn s a c epoch
  | .rebuild group pos seqs => rebuildIn s group pos seqs
  | .rebuilt group pos => rebuilt s src group pos
  | .repoint q old new => repointIn s q old new
  | .lossy q => updSeq s q fun x => { x with lossy := true }

/-- A firmware message arrives from an endpoint. -/
def xMsgIn (s : State) (src : Nat) (m : XMsg) : State := if serving s then xIn s src m else s

/-- Subtypes whose object, when a region, is homed at the receiver; the others come from the home. -/
def toHome (sub : Nat) : Bool :=
  [mHingeOffer, mHingeAccept, mEpochAck, mLeaseRenew, mLatchQuery, mLatchAssign, mLatchRelease, mHingeDecline].contains sub

/-- A Latch message of a subtype arrives: dropped and counted when it is bad. -/
def latchIn (s : State) (src sub : Nat) (body : List Byte) (f : State → LMsg → State) : State :=
  if serving s = false then s
  else match decodeL (if toHome sub then self s else src) body with
    | none => badMsg s
    | some m => if m.sub = sub then f s m else s

/-- A cell message of a subtype arrives. -/
def cellIn (s : State) (sub : Nat) (body : List Byte) (f : State → CMsg → State) : State :=
  if serving s = false then s
  else match decodeC body with
    | none => badMsg s
    | some m => if m.sub = sub then f s m else s

/-- HINGE_FORWARD: refused under R13 once the Shutter closes, which forwardIn judges with the receiver's checks. An
assigned owner whose recovery lacked replicas replaces them once it has gained (R283). -/
def hingeForwardIn (s : State) (src : Nat) (m : LMsg) (ctx : Nat) (r : Recovery) : State := forwardIn s src m ctx r

/-- HOME_MOVED at owner and manager. -/
def homeMovedAny (s : State) (src : Nat) (m : LMsg) : State :=
  homeMovedIn s src m

/-- MIRROR_REPLY, LOG_REPLICA_REPLY, MGR_ACK, HOME_LOOKUP_REPLY, ADMIT_REPLY, reports and REF_ACK answer a request. -/
def cellReply (s : State) (src : Nat) (m : CMsg) : State := cellAnswer s src m []

end Sys2Proof.Machine
end

