-- ==== Sys2Proof/Machine/Ecc.lean ====
section
/-! DEFINITION. Memory errors of the stacks and of SRAM, and the patrol scrub (R150–R153, R286, R379). -/
namespace Sys2Proof.Machine

/-- Record a row for repair at the next cold bring-up, once (R153, R417). -/
def repairRow (s : State) (stack row : Nat) : State :=
  let f := s.gl.flash
  let there := f.repairs.contains (stack, row) || f.retry.contains (stack, row) || f.queue.contains (.repair stack row) || f.busy == some (.repair stack row)
  if rbit s rMcCtrl stack 1 = false ∨ there then s else flashDue s (.repair stack row)

/-- Corrected errors in a row of a stack (R150, R153, R302). -/
def eccCorrected (s : State) (stack row n : Nat) : State :=
  let s := penalise_ (bump s rMcEccCnt stack 31 0 n) stack n
  let k := stack * 2 ^ 32 + row
  let e := tgetD s.gl.rowErrs k 0 + n
  let s := modGl s fun g => { g with rowErrs := tput g.rowErrs k e }
  if e ≥ rf s rMcEccCtrl stack 7 0 then repairRow s stack row else s

/-- Clear the poison of a frame that is rewritten whole. -/
def unpoison (s : State) (f : Nat) : State :=
  modPg s fun p => { p with poison := p.poison.filter fun a => a < frameAddr f || frameAddr f + frameBytes ≤ a }

/-- Whether every tier-2 slot of a copy is valid. -/
def copyValid (s : State) (slots : List Nat) : Bool :=
  !slots.isEmpty && slots.all fun n => match slot s n with | some t => t.state == 1 | none => false

/-- A home's record stands again: an OFFERED one is resolved by asking the receiver (R286, R285 step 1). -/
def recordRestored (s : State) (q : Nat) : State :=
  match homeOf s q with
  | none => s
  | some h =>
    if h.st ≠ 1 then s
    else sendL (setHome s q { h with asked := s.now }) h.offeredTo (lmsg mLatchQuery ⟨false, q⟩ h.epoch)

/-- Sequences with an entry in a frame of the holding index, whose frames hold 4,096 entries each, in order (log entry 117). -/
def indexSeqs (s : State) (f : Nat) : List Nat :=
  let i := ((tableFrames s .index).findIdx? (· == f)).getD 0
  (((s.pg.index.drop (i * 4096)).take 4096).map (·.seq)).eraseDups

/-- What an uncorrectable error in a frame leads to (R151, R286). -/
def frameHit (s : State) (f : Nat) (restored : Bool) : State :=
  let r := frame s f
  match r.st with
  | .reserved =>
    let s := modPg s fun p => { p with seqs := p.seqs.map fun kv => (kv.1, { kv.2 with reserve := kv.2.reserve.filter fun x => x.frame != f }) }
    toPending s f
  | .opened => if restored then unpoison s f else (if thas s.pg.seqs r.owner then recoveryPause s r.owner else s)
  | .system => match r.use with
    | .tokenLog => if restored then unpoison s f else s
    | .descriptor | .choice => if restored then unpoison s f else recoveryPause s r.owner
    | .blockTable | .stripeTable | .latch =>
      if restored then recordRestored (unpoison s f) r.owner else if thas s.ce.homes r.owner then setLost s r.owner else recoveryPause s r.owner
    | .index => if restored then unpoison s f else modPg s fun p => { p with index := p.index.filter fun h => !(indexSeqs s f).contains h.seq }
    | .image => match tget s.st.images r.owner with
      | some i =>
        if copyValid s i.slots then unpoison s f
        else if i.st ≠ 2 then s
        else raiseCtx (modSt s fun t => { t with images := tput t.images r.owner { i with st := 3 } }) i.ctx evImgFailed sLostState r.owner 0
      | none => s
    | .adapter => match tget s.st.adapters r.owner with
      | some a =>
        if copyValid s a.slots then unpoison s f
        else if a.loaded = false then s
        else raiseCtx (modSt s fun t => { t with adapters := tput t.adapters r.owner { a with loaded := false } }) a.ctx evImgFailed sLostState r.owner 0
      | none => s
    | _ => if r.ctx = 0 ∧ restored = false then ctxFault s 0 0x105 0 0 (frameAddr f) else s
  | _ => s

/-- A region's record at its home is poisoned (R286): restored from its second copy, or the region is destroyed and its owning context
learns that it is lost. -/
def regionHit (s : State) (a : Nat) (restored : Bool) : State :=
  match tget s.fab.regions a with
  | none => s
  | some r =>
    if restored then s
    else
      let id := self s * 2 ^ 44 + a
      let s := raiseCtx s r.ctx evRegionLost 0 r.epoch id
      let x := regionModRun s a (2 ^ 61 + a) true 0
      if x.1 then regionGone x.2 id else x.2

/-- A read finds an uncorrectable error (R151, R153, R302; in SRAM R379): one in firmware space other than the Sill is a fatal
internal error, noted as a fault of context 0 (R313). -/
def uncorrectable (s : State) (h : EccHit) : State :=
  let a := h.addr - h.addr % 64
  let mark (s : State) : State := modPg s fun p => { p with poison := addSorted a p.poison }
  match areaOf s a with
  | .stack k =>
    let s := bump (mark s) rMcEccCnt k 47 32 1
    let s := wrReg s rMcEccAddr k 0 (word (a + 2 ^ 63))
    let s := repairRow (penalise_ s k 4096) k h.row
    match h.region with
    | some b => regionHit s b h.restored
    | none => frameHit s (a / frameBytes) h.restored
  | .sram _ =>
    let s := bump (mark s) rSpEccCnt 0 47 32 1
    let s := wrReg (wf s rSpErr 0 2 2 1) rSpEccAddr 0 0 (word (a + 2 ^ 63))
    let die := if a < 0x020008000000 then 0 else 1
    if a < 0x020000900000 ∨ (decide ((ctxRange die).1 ≤ a ∧ a < (ctxRange die).1 + (ctxRange die).2)) = true then s
    else ctxFault s 0 0x103 0 0 a
  | _ => s

/-- A read finds an error (R150, R151): a corrected one is counted, and the data is rewritten in place. -/
def eccHit (s : State) (h : EccHit) : State :=
  if h.corrected = false then uncorrectable s h
  else match areaOf s h.addr with
    | .stack k => eccCorrected s k h.row 1
    | .sram _ => bump s rSpEccCnt 0 31 0 1
    | _ => s

/-- PATROL_SCRUB (R152): a frame is read once in a period; corrected errors by row, and uncorrectable ones. -/
def patrolScrub (s : State) (f : Nat) (corrected : NTable Nat) (hits : List EccHit) : State :=
  let k := frameStack f
  let due := match tget s.gl.scrubAt f with
    | some t => decide (t + rf s rMcScrub k 7 0 * 3600000000000 ≤ s.now)
    | none => true
  if f ≥ numFrames ∨ rbit s rMcCtrl k 0 = false ∨ stackDead s k ∨ due = false then s
  else
    let hits := hits.filter fun h => decide (frameAddr f ≤ h.addr ∧ h.addr < frameAddr f + frameBytes)
    let s := stackWake (modGl s fun g => { g with scrubAt := tput g.scrubAt f s.now }) k
    let s := wf s rMcScrub k 27 8 (f % 0x100000)
    let n := corrected.foldl (fun n c => n + c.2) 0 + hits.length
    let s := if n = 0 then s else bump s rMcEccCnt k 63 48 n
    let s := corrected.foldl (fun s c => eccCorrected s k c.1 c.2) s
    hits.foldl eccHit s

end Sys2Proof.Machine
end

