-- ==== Sys2Proof/Machine/Attention.lean ====
section
/-! DEFINITION. Attention arithmetic (R90–R95, R99): scores, the running triple of a unit, merging and normalising. Every value is
an FP32 code; results carry what their roundings counted (R71, R73). -/
namespace Sys2Proof.Machine

def negInf : Nat := 0xFF800000
def one32 : Nat := 0x3F800000

/-- A value with saturations counted and NaN seen. -/
structure Tally (α : Type) where
  val : α
  sats : Nat
  nan : Bool
deriving DecidableEq, Repr

def Tally.note {α β : Type} (t : Tally α) (v : β) (c : Conv) : Tally β := ⟨v, t.sats + b2n c.sat, t.nan || c.nan⟩

/-- A page as attention reads it: its place, the rows of the sequence's view (R62, R90), geometry, and where its bytes are: a
local address, or reconstructed bytes. -/
structure KvPage where
  layer : Nat
  hg : Nat
  base : Nat
  rows : Nat
  geo : Geometry
  addr : Nat
  bytes : Option (List Byte)
deriving DecidableEq, Repr

/-- A row of one head of a page. -/
def kvRow (s : State) (p : KvPage) (region h t : Nat) : List Num :=
  match p.bytes with
  | none => pageRow s p.addr p.geo region h t
  | some bs =>
    rowValues p.geo.format (slice bs (rowOffset p.geo region h t) (rowBytes p.geo))
      (if p.geo.format = 5 ∨ p.geo.format = 6 then slice bs (scaleRowOffset p.geo region h t) (p.geo.headDim / 32) else []) p.geo.headDim

/-- Sum of terms added to an accumulator in groups of 16, each group rounded once and added with a second rounding (R70). -/
def addGroups (ftz : Bool) (acc : Nat) (terms : List Num) : Tally Nat :=
  let a := dotGroups ftz (terms.length / 16 + 1) ⟨acc, 0, false⟩ terms (terms.map fun _ => Num.fin false 1 1)
  ⟨a.code, a.sats, a.nan⟩

/-- What several roundings counted, with a value. -/
def Tally.of {α : Type} (v : α) (cs : List Conv) : Tally α := ⟨v, (cs.filter (·.sat)).length, cs.any (·.nan)⟩

/-- A tally with what another counted. -/
def Tally.plus {α β : Type} (t : Tally α) (u : Tally β) : Tally α := ⟨t.val, t.sats + u.sats, t.nan || u.nan⟩

/-- Products of two rows added to an accumulator in groups; with an INT8 scale each is dequantised first, one rounding a product
(R83). -/
def addTerms (ftz : Bool) (sc : Option Num) (acc : Nat) (ps : List (Num × Num)) : Tally Nat :=
  match sc with
  | none => addGroups ftz acc (ps.map fun x => mulNum x.1 x.2)
  | some c =>
    let ts := ps.map fun x => toF32 ftz (mulNum (mulNum x.1 x.2) c)
    (addGroups ftz acc (ts.map fun t => f32 t.code)).plus (Tally.of () ts)

/-- q·k of a page row (R70, R83). sc is the INT8 scale, none for other formats. -/
def scoreDot (ftz : Bool) (f : Nat) (sc : Option Num) (q k : List Num) : Tally Nat :=
  match sc with
  | some c => addTerms ftz (some c) 0 (List.zip q k)
  | none => let a := dot ftz f f ⟨0, 0, false⟩ q k; ⟨a.code, a.sats, a.nan⟩

/-- The empty triple (R91, R92). -/
def trip0 (d : Nat) : Trip := ⟨negInf, 0, List.replicate d 0⟩

/-- a − b in FP32. -/
def fsub (ftz : Bool) (a b : Nat) : Conv := toF32 ftz (addNum (f32 a) (negNum (f32 b)))

/-- exp(a − b) in FP32: the difference is rounded, then the function (R78). -/
def expDiff (ftz : Bool) (a b : Nat) : Tally Nat :=
  let d := fsub ftz a b
  let e := funcOut ftz (fexp (f32 d.code))
  Tally.of e.code [d, e]

/-- Update a triple with one page (R91): rows with their scores, none for a row that takes no part. v gives a row's values, sc
the INT8 scale. -/
def pageUpdate (ftz : Bool) (sc : Option Num) (scores : List (Option Nat)) (v : Nat → List Num) (t : Tally Trip) : Tally Trip :=
  let mp := scores.foldl (fun m x => match x with | some c => (fmax ftz m c).code | none => m) negInf
  let mn := (fmax ftz t.val.m mp).code
  let t : Tally Trip :=
    if eqNum (f32 mn) (f32 t.val.m) then t
    else
      let c := expDiff ftz t.val.m mn
      let l := fmul ftz t.val.l c.val
      let os := t.val.o.map fun x => fmul ftz x c.val
      ((Tally.of (⟨mn, l.code, os.map (·.code)⟩ : Trip) (l :: os)).plus t).plus c
  -- weights of the taking-part rows, rounded to BF16
  let ws := scores.map fun x => x.map fun c => expDiff ftz c t.val.m
  let ps : List (Option Num) := ws.map fun x => x.map fun w => decode 1 (convert 1 (f32 w.val)).code
  let t := (ws.filterMap id).foldl Tally.plus t
  let t := ps.foldl (fun (t : Tally Trip) p => match p with
    | none => t
    | some p =>
      let l := toF32 ftz (addNum (f32 t.val.l) p)
      t.note { t.val with l := l.code } l) t
  let n := ps.length
  (List.range ((n + 15) / 16)).foldl (fun (t : Tally Trip) b =>
    let rows := (List.range 16).filterMap fun i => match ps.getD (16 * b + i) none with
      | some p => some (p, v (16 * b + i))
      | none => none
    if rows.isEmpty then t
    else
      let os := (List.range t.val.o.length).map fun e =>
        addTerms ftz sc (t.val.o.getD e 0) (rows.map fun r => (r.1, r.2.getD e (.fin false 0 1)))
      ⟨{ t.val with o := os.map (·.val) }, os.foldl (fun n a => n + a.sats) t.sats, t.nan || os.any (·.nan)⟩) t

/-- Merge one triple into another (R93): both products and their sum exact, one rounding. -/
def mergeTrip (ftz : Bool) (t : Tally Trip) (x : Trip) : Tally Trip :=
  let mn := (fmax ftz t.val.m x.m).code
  let w (m : Nat) : Tally Nat := if eqNum (f32 m) (f32 mn) then ⟨one32, 0, false⟩ else expDiff ftz m mn
  let a := f32 (w t.val.m).val
  let b := f32 (w x.m).val
  let two (p q : Nat) : Conv := toF32 ftz (addNum (mulNum (f32 p) a) (mulNum (f32 q) b))
  let l := two t.val.l x.l
  let os := (List.range t.val.o.length).map fun e => two (t.val.o.getD e 0) (x.o.getD e 0)
  (((Tally.of (⟨mn, l.code, os.map (·.code)⟩ : Trip) (l :: os)).plus t).plus (w t.val.m)).plus (w x.m)

/-- Merge triples in merge order. -/
def mergeTrips (ftz : Bool) (d : Nat) (l : List Trip) : Tally Trip := l.foldl (mergeTrip ftz) ⟨trip0 d, 0, false⟩

/-- The normalised output of a triple in FP32 (R95), and its lse. -/
def normTrip (ftz : Bool) (t : Trip) : Tally (List Nat) :=
  if eqNum (f32 t.l) (.fin false 0 1) then ⟨t.o.map fun _ => 0, 0, false⟩
  else
    let r := funcOut ftz (frecip (f32 t.l))
    let os := t.o.map fun x => fmul ftz x r.code
    Tally.of (os.map (·.code)) (r :: os)

/-- a + log(b) in FP32. -/
def addLog (ftz : Bool) (a b : Nat) : Tally Nat :=
  let l := funcOut ftz (flog (f32 b))
  let c := fadd ftz a l.code
  Tally.of c.code [l, c]

def lseTrip (ftz : Bool) (t : Trip) : Tally Nat :=
  if eqNum (f32 t.l) (.fin false 0 1) then ⟨negInf, 0, false⟩ else addLog ftz t.m t.l

/-- Combine an earlier pass's normalised result with this one's (R99): the output and the lse of both. -/
def continuePass (ftz : Bool) (out1 : List Nat) (lse1 : Nat) (out2 : List Nat) (lse2 : Nat) : Tally (List Nat × Nat) :=
  let mx := (fmax ftz lse1 lse2).code
  let e1 := expDiff ftz lse1 mx
  let e2 := expDiff ftz lse2 mx
  let sum := fadd ftz e1.val e2.val
  let lse := addLog ftz mx sum.code
  let w1 := expDiff ftz lse1 lse.val
  let w2 := expDiff ftz lse2 lse.val
  let os := (List.range out2.length).map fun e =>
    toF32 ftz (addNum (mulNum (f32 (out1.getD e 0)) (f32 w1.val)) (mulNum (f32 (out2.getD e 0)) (f32 w2.val)))
  [e1, e2, lse, w1, w2].foldl Tally.plus (Tally.of (os.map (·.code), lse.val) (sum :: os))

/-- A unit's step over one page for a query row and head (R90, R91): n rows of its view, of which takes says whether one takes part; k and v
give a row's keys and values, sc the INT8 scale, scale the FP32 score scale. -/
def pageStep (ftz : Bool) (fmt : Nat) (sc : Option Num) (scale : Nat) (q : List Num) (n : Nat) (takes : Nat → Bool) (k v : Nat → List Num)
    (t : Tally Trip) : Tally Trip :=
  let ss : List (Option (Tally Nat)) := (List.range n).map fun r =>
    if takes r then
      let a := scoreDot ftz fmt sc q (k r)
      let f := fmul ftz a.val scale
      some ((Tally.of f.code [f]).plus a)
    else none
  let t := (ss.filterMap id).foldl Tally.plus t
  if ss.any (·.isSome) then pageUpdate ftz sc (ss.map fun x => x.map (·.val)) v t else t

/-- The ranges of S positions in which a controller holds pages, by the pages' TOKEN_BASEs, rising (R106). -/
def heldRanges (split : Nat) (bases : List Nat) : List Nat := sortBy (fun a b : Nat => decide (a ≤ b)) ((bases.map (· / split)).eraseDups)

/-- The local ranges of R106 and R107, each as the ranges it takes together: bases are the TOKEN_BASEs of all pages the controller holds of
the sequence; split is S of a long sequence. DESIGN CHOICE (log entry 111): a page whose TOKEN_BASE lies at or beyond the last range KV_LENGTH
gives is in range TOKEN_BASE div S. -/
def localRanges (split : Nat) (bases : List Nat) : List (List Nat) :=
  let rs := heldRanges split bases
  let w := cdiv rs.length 64
  if w = 0 then []
  else (List.range (cdiv rs.length w)).map fun i => (rs.drop (i * w)).take w

/-- The triple of a unit's pages of one (layer, head group) for a query row and head (R90, R91): h is the head's place in the page, pos the
row's position (none: every row of the view takes part). A page with no row that takes part is not read (R98). -/
def unitTrip (s : State) (ftz : Bool) (ps : List KvPage) (h : Nat) (q : List Num) (pos : Option Nat) (scale : Nat) (sc : Option Num)
    (d : Nat) : Tally Trip :=
  (sortBy (fun a b : KvPage => decide (a.base ≤ b.base)) ps).foldl (fun t p =>
    pageStep ftz p.geo.format sc scale q p.rows (fun r => match pos with | some x => decide (p.base + r ≤ x) | none => true)
      (fun r => kvRow s p 0 h r) (fun r => kvRow s p 1 h r) t) ⟨trip0 d, 0, false⟩

/-- A unit records a fault code for a context (R88, R145, R266): its registers. Parity errors are not the context's. -/
def unitFault (s : State) (rf_ ra : RegDesc) (n code c addr : Nat) : State :=
  let s := wf (wf (wf s rf_ n 7 0 code) rf_ n 15 8 c) rf_ n 16 16 1
  wrReg s ra n 0 (word (if code = 1 ∨ code = 2 ∨ code = 7 then addr else 0))

/-- A fault of tile engine n that the context is charged with (R88, R313). -/
def teFault (s : State) (n code c addr : Nat) : State :=
  ctxFault (unitFault s rTeFault rTeFaultAddr n code c addr) c code n 2 addr

/-- Count a context's saturations and NaN (R71, R73), and trap on them (R85). -/
def noteNums (s : State) (c numctl unit : Nat) (sats : Nat) (nan : Bool) : State :=
  let s := noteSats s c sats
  let s := if nan then wf s rTeNumstat c 0 0 1 else s
  if nan ∧ bit numctl 2 then teFault s unit 3 c 0
  else if sats ≠ 0 ∧ bit numctl 3 then teFault s unit 4 c 0
  else s

end Sys2Proof.Machine
end

