-- ==== Sys2Proof/Machine/Append.lean ====
section
/-! DEFINITION. Appending rows to a sequence's pages in a step, copy on write, and committing or discarding them (R51, R54–R56, R63). -/
namespace Sys2Proof.Machine

/-- A frame for a (layer, head group): its reserve, else one of the extra frames the step took (R51, R52). -/
def takeForAppend (s : State) (q step slot layer hg : Nat) : Option Nat × State :=
  match seqOf s q with
  | none => (none, s)
  | some x => match x.reserve.find? fun r => r.layer == layer && r.hg == hg with
    | some r => (some r.frame, updSeq s q fun y => { y with reserve := delFirst (· == r) y.reserve })
    | none => match ((tget s.st.steps step).bind fun t => t.slots[slot]?).bind fun r => r.frames.head? with
      | some f => (some f, modSlot s step slot fun r => { r with frames := r.frames.drop 1 })
      | none => (none, s)

/-- Open a reserved frame as a page of a sequence with a TOKEN_BASE (R39, R42). -/
def openPage (s : State) (q layer hg base f fill : Nat) : State :=
  match seqOf s q with
  | none => s
  | some x =>
    let s := setFrame s f { frame s f with st := .opened, refs := 1, owner := q }
    let s := setTrailer s f { noTrailer with
      seq := q, layer := layer, hg := hg, format := x.geo.format, state := 2, tokenBase := base, fill := fill, committed := fill,
      gen := (frame s f).gen, ptCode := x.geo.ptCode, headsM1 := x.geo.hpp - 1, headDim := x.geo.headDim,
      scaleOff := scaleOffset x.geo, producer := self s, context := x.ctx }
    updSeq s q fun y => { y with pages := y.pages ++ [⟨layer, hg, handle (self s) f (frame s f).gen, base, fill, true⟩] }

/-- Copy the rows below v of every head from the bytes of a page to a frame (R63). -/
def copyRowsOf (s : State) (bs : List Byte) (dst : Nat) (g : Geometry) (v : Nat) : State :=
  (List.range (2 * g.hpp)).foldl (fun s h =>
    let o := rowOffset g (h / g.hpp) (h % g.hpp) 0
    let s := stackAccess (wrMem s (frameAddr dst + o) (slice bs o (v * rowBytes g))) (frame s dst).ctx (frameAddr dst) (v * rowBytes g)
    if g.format = 5 ∨ g.format = 6 then
      let o := scaleRowOffset g (h / g.hpp) (h % g.hpp) 0
      wrMem s (frameAddr dst + o) (slice bs o (v * (g.headDim / 32)))
    else s) s

/-- A page among those that were read at other controllers or reconstructed. -/
def copyAt (cs : List PageCopy) (p : PageRef) : Option PageCopy :=
  cs.find? fun r => r.trailer.layer == p.layer && r.trailer.hg == p.hg && r.trailer.tokenBase == p.base

/-- Whether a page of a sequence cannot be read here: it is at another controller, or poisoned or lost (R40, R157). -/
def pageGone (s : State) (w : Word) : Bool :=
  ((localFrame s w).isNone && (localSlot s w).isNone) || entryPoisoned s w

/-- Copy a partial view on write: its v rows go to frame f, which takes the page's place; the old page loses one reference
(R63). remote gives a page held at another controller, or reconstructed (R40). -/
def copyOnWrite (s : State) (q : Nat) (p : PageRef) (f v : Nat) (remote : List PageCopy) : State :=
  match seqOf s q with
  | none => s
  | some x =>
    let s := if pageGone s p.entry then (match copyAt remote p with
        | some r => copyRowsOf s r.bytes f x.geo v
        | none => s)
      else match localFrame s p.entry, localSlot s p.entry with
        | some o, _ => copyRows s (frameAddr o) f x.geo v
        | none, some n => copyRows s (slotAddr n) f x.geo v
        | none, none => s
    let s := bump s rPgCowCnt 0 31 0 1
    let s := updSeq s q fun y => { y with
      pages := y.pages.filter (· != p), unstriped := y.unstriped.filter (· != (p.layer, p.hg, p.base)) }
    let s := openPage s q p.layer p.hg p.base f v
    let s := match (seqOf s q).bind fun y => (y.pages.find? fun r => r.layer == p.layer && r.hg == p.hg && r.base == p.base).map fun r => entryOfPage y r with
      | some e => (homeSend s q (.entries [e]) (.table q)).2
      | none => s
    let s := mirrorPage s q 0 ⟨p.layer, p.hg, handle (self s) f (frame s f).gen, p.base, v, true⟩ (.mirror q)
    if (localFrame s p.entry).isSome ∨ (localSlot s p.entry).isSome then
      let s := modPg s fun g => { g with index := delFirst (fun h => h.seq == q && h.entry == p.entry) g.index }
      dropPage s p.entry
    else match entryOf p.entry with
      | .page ep _ _ _ => (askC s ep mRefDrop q p.entry.toNat 0 0 (.refDrop q p.entry.toNat)).2
      | .slot ep _ => (askC s ep mRefDrop q p.entry.toNat 0 0 (.refDrop q p.entry.toNat)).2
      | _ => s

/-- The OPEN page an append at a position goes into, opened or copied as R63 gives: frame and TOKEN_BASE. -/
def appendPage (s : State) (q step slot layer hg pos : Nat) (remote : List PageCopy) : Option (Nat × Nat) × State :=
  match seqOf s q with
  | none => (none, s)
  | some x =>
    let ps := x.pages.filter fun p => p.layer == layer && p.hg == hg
    match ps.find? fun p => p.opened && decide (p.base ≤ pos ∧ pos < p.base + ptRows x.geo.ptCode) with
    | some p => ((localFrame s p.entry).map fun f => (f, p.base), s)
    | none => match takeForAppend s q step slot layer hg with
      | (none, s) => (none, s)
      | (some f, s) => match ps.find? fun p => !p.opened && decide (p.base ≤ pos ∧ pos < p.base + p.fill) with
        | some p => (some (f, p.base), copyOnWrite s q p f (pos - p.base) remote)
        | none => (some (f, pos), openPage s q layer hg pos f 0)

/-- Write the K and V rows of one position of a (layer, head group): bytes by (region, head). -/
def appendRow (s : State) (q step slot layer hg pos : Nat) (row : Nat → Nat → List Byte × List Byte) (remote : List PageCopy) : State :=
  match seqOf s q, appendPage s q step slot layer hg pos remote with
  | some x, (some (f, base), s) =>
    let r := pos - base
    let s := (List.range (2 * x.geo.hpp)).foldl (fun s i =>
      let b := row (i / x.geo.hpp) (i % x.geo.hpp)
      stackAccess (writeRow s f x.geo (i / x.geo.hpp) (i % x.geo.hpp) r b.1 b.2) x.ctx (frameAddr f) (b.1.length + b.2.length)) s
    let t := trailer s f
    let s := setTrailer s f { t with fill := Nat.max t.fill (r + 1) }
    updSeq s q fun y => { y with pages := y.pages.map fun p =>
      if p.layer = layer ∧ p.hg = hg ∧ p.base = base ∧ p.opened then { p with fill := Nat.max p.fill (r + 1) } else p }
  | _, (_, s) => s

/-- Write the rows a step added to a layer's OPEN pages to the mirror partner (R55): positions from lo up. -/
def mirrorRows (s : State) (q layer lo : Nat) : State :=
  match seqOf s q with
  | none => s
  | some x => (x.pages.filter fun p => p.opened && p.layer == layer && decide (lo < p.base + p.fill)).foldl (fun s p =>
      mirrorPage s q (lo - p.base) p (.mirror q)) s

/-- Commit the rows below a position and discard the rest (R54): full pages seal, pages with no committed row return to the
reserve. -/
def commitTo (s : State) (q kv : Nat) : State :=
  match seqOf s q with
  | none => s
  | some x =>
    let s := (x.pages.filter (·.opened)).foldl (fun s p =>
      match localFrame s p.entry with
      | none => s
      | some f =>
        let t := trailer s f
        let c := Nat.min t.fill (kv - p.base)
        if c = 0 ∧ t.committed = 0 then
          let s := updSeq s q fun y => { y with pages := y.pages.filter fun r => !(r.opened && r.layer == p.layer && r.hg == p.hg && r.base == p.base) }
          let s := if x.mirror = 0 then s else sendX s x.mirror 2 (.mirrorDrop q p.layer p.hg p.base)
          updSeq (toReserved s f) q fun y => { y with reserve := y.reserve ++ [⟨p.layer, p.hg, f⟩] }
        else
          let s := setTrailer s f { t with fill := c, committed := c }
          let full := c == ptRows x.geo.ptCode
          let s := if full then sealPage s f else s
          let s := updSeq s q fun y => { y with
            pages := y.pages.map (fun r => if r.opened && r.layer == p.layer && r.hg == p.hg && r.base == p.base then { r with fill := c, opened := !full } else r),
            unstriped := if full then y.unstriped ++ [(p.layer, p.hg, p.base)] else y.unstriped }
          let s := if t.committed = c ∧ t.fill = c then s else mirrorPage s q c { p with fill := c } (.mirror q)
          if t.committed ≠ 0 then s
          else match (seqOf s q).map fun y => entryOfPage y p with
            | some e => (homeSend s q (.entries [e]) (.table q)).2
            | none => s) s
    updSeq s q fun y => { y with kvLength := kv }

end Sys2Proof.Machine
end

