-- ==== Sys2Proof/Machine/Tile.lean ====
section
/-! DEFINITION. Tile operations (R70–R80, R349): checks of a tile descriptor's shape and cycles, and what one tile does to
memory, accumulators and the numeric registers of its context. -/
namespace Sys2Proof.Machine

/-- A tile descriptor's fields (R349). -/
structure TileD where
  op : Nat
  fa : Nat
  fb : Nat
  fo : Nat
  accum : Bool
  sr : Bool
  func : Nat
  d0 : Nat
  d1 : Nat
  d2 : Nat
  accKib : Nat
  a : Nat
  b : Nat
  out : Nat
  scale : Nat
  param : Nat
  rsvd : Bool
deriving DecidableEq, Repr

def tileOf (t : List Byte) : TileD :=
  let w0 := w64At t 0
  let w1 := w64At t 8
  let w2 := w64At t 16
  let ad (o : Nat) : Nat := w64At t o
  let w6 := w64At t 48
  ⟨bits w0 7 0, bits w0 11 8, bits w0 15 12, bits w0 19 16, bit w0 20, bit w0 21, bits w0 29 22, bits w1 31 0, bits w1 63 32,
   bits w2 31 0, bits w2 40 32, bits (ad 24) 43 0, bits (ad 32) 43 0, bits (ad 40) 43 0, bits w6 31 0, bits w6 63 32,
   decide (bits w0 63 30 ≠ 0 ∨ bits w2 63 41 ≠ 0 ∨ bits (ad 24) 63 44 ≠ 0 ∨ bits (ad 32) 63 44 ≠ 0 ∨ bits (ad 40) 63 44 ≠ 0 ∨ w64At t 56 ≠ 0)⟩

def isMx (f : Nat) : Bool := f == 5 || f == 6
def isFp8 (f : Nat) : Bool := f == 3 || f == 4

/-- Whether a GEMM takes an operand pair (R80), and twice its c_k (R81). -/
def pairRate (fa fb : Nat) : Option Nat :=
  let low (f : Nat) : Bool := isFp8 f || isMx f
  if fa = 6 ∧ fb = 6 then some 1
  else if (isFp8 fa && isFp8 fb) || (fa == 7 && fb == 7) then some 2
  else if fa = 7 ∨ fb = 7 then none
  else if low fa && low fb then some 2
  else if fa = 0 ∨ fb = 0 then some 32
  else if fa ≤ 2 ∧ fb ≤ 2 then (if fa = fb then some 4 else none)
  else some 4

/-- KV elements per cycle of an attention block (R83). -/
def eA (f : Nat) : Nat := if f = 0 then 16 else if f ≤ 2 then 128 else 256

/-- Check 2 of R351 on a tile: format codes and their combination (R69, R80). -/
def tileFmtOk (d : TileD) : Bool :=
  decide (d.fa ≤ 7 ∧ d.fb ≤ 7 ∧ d.fo ≤ 7) && (d.op != 1 || (pairRate d.fa d.fb).isSome)

/-- Reserved bits and enumerations of a tile (check 1 of R351, R349): unused dimensions are zero. -/
def tileEnumOk (d : TileD) : Bool :=
  !d.rsvd && decide (1 ≤ d.op ∧ d.op ≤ 7 ∧ d.accKib ≤ 256) &&
  (match d.op with
   | 4 => decide (d.func ≤ 12 ∧ d.d1 = 0 ∧ d.d2 = 0)
   | 5 => decide (d.func ≤ 3 ∧ d.d2 = 0)
   | 6 => decide (d.func ≤ 1 ∧ d.d2 = 0)
   | _ => d.func == 0)

/-- Cycles of a tile (R79, R83). The KV elements of an ATTN_BLOCK descriptor, which names no pages: 2 × head_dim × 16 (DESIGN CHOICE, log
entry 47). -/
def tileCycles (d : TileD) : Nat :=
  match d.op with
  | 1 => cdiv d.d0 4 * cdiv d.d1 32 * cdiv (cdiv d.d2 16 * ((pairRate d.fa d.fb).getD 2)) 2 + 64
  | 2 => cdiv (2 * d.d2 * 16 * d.d0) (eA d.fb) + 96
  | 3 => cdiv (d.d0 * d.d1 * (d.d2 + 2)) 128 + 64
  | 4 => cdiv d.d0 (if d.func ≤ 5 then 512 else 128) + 64
  | 5 => 2 * cdiv (d.d0 * d.d1) 512 + 64
  | 6 => cdiv d.d0 256 + 64
  | _ => cdiv (d.d0 * d.d1) 512 + d.d2 + 64

/-- Elements of an output row (R75). -/
def tileRow (d : TileD) : Nat :=
  match d.op with | 1 => d.d1 | 5 => d.d1 | 4 => d.d0 | 6 => d.d0 | _ => d.d2

/-- Shape limits and the 3,200 cycles of R66 (check 3 of R351). -/
def tileShapeOk (d : TileD) : Bool :=
  (match d.op with
   | 1 => decide (1 ≤ d.d0 ∧ d.d0 ≤ 256 ∧ 1 ≤ d.d1 ∧ d.d1 ≤ 1024 ∧ d.d0 * d.d1 ≤ 65536 ∧ 1 ≤ d.d2 ∧ d.d2 ≤ 16384 ∧
       ((isMx d.fa || isMx d.fb) = true → d.d2 % 32 = 0))
   | 2 => decide (1 ≤ d.d0 ∧ d.d0 ≤ 64 ∧ 1 ≤ d.d1 ∧ d.d1 ≤ 16 ∧ 16 ≤ d.d2 ∧ d.d2 ≤ 256)
   | 3 => decide (1 ≤ d.d0 ∧ d.d0 ≤ 64 ∧ 1 ≤ d.d1 ∧ d.d1 ≤ 256 ∧ 16 ≤ d.d2 ∧ d.d2 ≤ 256)
   | 4 => decide (1 ≤ d.d0 ∧ d.d0 ≤ 1048576)
   | 5 => decide (1 ≤ d.d0 ∧ d.d0 ≤ 256 ∧ 16 ≤ d.d1 ∧ d.d1 ≤ 16384)
   | 6 => decide (1 ≤ d.d0 ∧ d.d0 ≤ 524288 ∧ d.d1 % 2 = 0 ∧ 16 ≤ d.d1 ∧ d.d1 ≤ 256)
   | _ => decide (1 ≤ d.d0 ∧ d.d0 ≤ 64 ∧ 1 ≤ d.d1 ∧ d.d1 ≤ 16384 ∧ 1 ≤ d.d2 ∧ d.d2 ≤ 1024)) &&
  decide (tileCycles d ≤ 3200) && (!(isMx d.fo) || tileRow d % 32 == 0)

/-- Bytes of an element run of n elements: its elements, then for MX formats its scale bytes. -/
def runBytes (f n : Nat) : Nat := cdiv (n * fmtWidth f) 8 + (if isMx f then cdiv n 32 else 0)

/-- The values of the run of n elements at an address. -/
def readRun (s : State) (a f n : Nat) : List Num :=
  let k := cdiv (n * fmtWidth f) 8
  rowValues f (rdMem s a k) (if isMx f then rdMem s (a + k) (cdiv n 32) else []) n

/-- Whether a write of n bytes reaches the Deadbolt while it is not in use: it is discarded (R390). -/
def deadboltOff (s : State) (a n : Nat) : Bool :=
  !s.gl.sec.deadbolt && decide (a < sramBase 0 + 0x800000 ∧ sramBase 0 < a + n)

/-- A unit's write to local memory. -/
def unitWrite (s : State) (c a : Nat) (bs : List Byte) : State :=
  if deadboltOff s a bs.length then s else touchSpan (writeClear s a bs) c (a, bs.length)

/-- Outputs of a tile: runs of FP32 values with their addresses; sats and NaN so far. -/
structure TileRes where
  st : State
  sats : Nat
  nan : Bool
deriving DecidableEq, Repr

/-- Write runs of values at consecutive addresses in a format; rnd gives stochastic rounding's value of an element index. -/
def writeRuns (r : TileRes) (c a f : Nat) (rows : List (List Num)) (rnd : Option (Nat → Nat)) : TileRes :=
  (rows.foldl (fun (x : TileRes × Nat × Nat) row =>
    let rnds := rnd.map fun g => (List.range row.length).map fun i => g (x.2.2 + i)
    let o := rowOut f row rnds
    (⟨unitWrite x.1.st c x.2.1 (o.elems ++ o.scales), x.1.sats + o.sats, x.1.nan || o.nan⟩, x.2.1 + runBytes f row.length, x.2.2 + row.length))
    (r, a, 0)).1

/-- One FP32 function of R349's FUNC on operands. -/
def elemFunc (ftz : Bool) (func scale : Nat) (a b c : Num) : Conv :=
  let one : Conv → Conv := funcOut ftz
  match func with
  | 0 => toF32 ftz (addNum a b)
  | 1 => toF32 ftz (mulNum a b)
  | 2 => toF32 ftz (addNum (mulNum a b) c)
  | 3 => toF32 ftz (maxNum a b)
  | 4 => toF32 ftz (minNum a b)
  | 5 => toF32 ftz a
  | 6 => one (fexp a)
  | 7 => one (flog a)
  | 8 => one (frecip a)
  | 9 => one (frsqrt a)
  | 10 => one (fsilu a)
  | 11 => one (fgelu a)
  | _ => toF32 ftz (addNum (mulNum a (f32 (if scale = 0 then one32 else scale))) b)

/-- GEMM (R70, R77, R79): A is M runs of K elements, B N runs of K elements, C M runs of N. -/
def tileGemm (s : State) (c key : Nat) (ftz : Bool) (d : TileD) (rnd : Option (Nat → Nat)) : TileRes :=
  let old := if d.accum then tgetD s.st.accs key [] else []
  let as := (List.range d.d0).map fun i => readRun s (d.a + i * runBytes d.fa d.d2) d.fa d.d2
  let bs := (List.range d.d1).map fun j => readRun s (d.b + j * runBytes d.fb d.d2) d.fb d.d2
  let accs := (List.range d.d0).flatMap fun i => (List.range d.d1).map fun j =>
    dot ftz d.fa d.fb ⟨old.getD (i * d.d1 + j) 0, 0, false⟩ (as.getD i []) (bs.getD j [])
  let s := modSt s fun x => { x with accs := tput x.accs key (accs.map (·.code)) }
  let r : TileRes := ⟨s, accs.foldl (fun n a => n + a.sats) 0, accs.any (·.nan)⟩
  let scaled (a : Nat) : Num :=
    if isFp8 d.fo ∨ d.fo = 7 then f32 (fmul ftz a (if d.scale = 0 then one32 else d.scale)).code else f32 a
  writeRuns r c d.out d.fo ((List.range d.d0).map fun i => ((accs.drop (i * d.d1)).take d.d1).map fun a => scaled a.code) rnd

/-- Bytes of a triple whose o has d elements in a format. -/
def tripBytes (f d : Nat) : Nat := 8 + runBytes f d

/-- Write a triple at an address, o in a format. -/
def writeTrip (r : TileRes) (c a f : Nat) (t : Trip) (rnd : Option (Nat → Nat)) : TileRes :=
  writeRuns { r with st := unitWrite r.st c a (toLE 4 t.m ++ toLE 4 t.l) } c (a + 8) f [t.o.map f32] rnd

/-- ATTN_BLOCK as a plan's own tile (R79, R90, R91). R349 gives it q, g and head_dim and no pages: DESIGN CHOICE (log entry 47), ADDR_A has
q × g query rows, ADDR_B one page of 16 rows of one KV head, its keys and then its values, PARAM the score scale (0 the default of R96),
OUT_SCALE the INT8 scale; the triples go to ADDR_OUT, o in FMT_OUT. -/
def tileAttn (s : State) (c : Nat) (ftz : Bool) (d : TileD) (rnd : Option (Nat → Nat)) : TileRes :=
  let scale := if d.param = 0 then (frsqrt (.fin false d.d2 1)).code else d.param
  let sc := if d.fb = 7 then some (f32 (if d.scale = 0 then one32 else d.scale)) else none
  let row (s : State) (i : Nat) : List Num := readRun s (d.b + i * runBytes d.fb d.d2) d.fb d.d2
  let ts := (List.range (d.d0 * d.d1)).map fun i =>
    pageStep ftz (if d.fa = 0 then 0 else d.fb) sc scale (readRun s (d.a + i * runBytes d.fa d.d2) d.fa d.d2) 16 (fun _ => true)
      (fun r => row s r) (fun r => row s (16 + r)) ⟨trip0 d.d2, 0, false⟩
  (List.zip ts (List.range ts.length)).foldl (fun r x =>
    writeTrip { r with sats := r.sats + x.1.sats, nan := r.nan || x.1.nan } c (d.out + x.2 * tripBytes d.fo d.d2) d.fo x.1.val rnd) ⟨s, 0, false⟩

/-- SOFTMAX_MERGE (R93, R95): P panes of H triples (m, l, o), o in FMT_A. DESIGN CHOICE (log entry 112): with FMT_OUT FP32 the merged triples
are written, with any other format the normalised rows. -/
def tileMerge (s : State) (c : Nat) (ftz : Bool) (d : TileD) (rnd : Option (Nat → Nat)) : TileRes :=
  let trip (p h : Nat) : Trip :=
    let a := d.a + (p * d.d1 + h) * tripBytes d.fa d.d2
    ⟨rdNat s a 4, rdNat s (a + 4) 4, (readRun s (a + 8) d.fa d.d2).map fun x => (convert 0 x).code⟩
  (List.range d.d1).foldl (fun (r : TileRes) h =>
    let m := mergeTrips ftz d.d2 ((List.range d.d0).map fun p => trip p h)
    let r := { r with sats := r.sats + m.sats, nan := r.nan || m.nan }
    if d.fo = 0 then writeTrip r c (d.out + h * tripBytes 0 d.d2) 0 m.val rnd
    else
      let n := normTrip ftz m.val
      writeRuns { r with sats := r.sats + n.sats, nan := r.nan || n.nan } c (d.out + h * runBytes d.fo d.d2) d.fo [n.val.map f32] rnd) ⟨s, 0, false⟩

/-- Sum in order, one rounding an addition. -/
def sum32 (ftz : Bool) (l : List Num) : Tally Nat := l.foldl (fun t x =>
  let c := toF32 ftz (addNum (f32 t.val) x)
  t.note c.code c) ⟨0, 0, false⟩

/-- NORM of one row (R79): gain and bias runs of the row's width lie at ADDR_B. The order of its FP32 operations is the model's
(assumption log). -/
def normRow (ftz : Bool) (rms bias : Bool) (eps : Nat) (x gain bia : List Num) : Tally (List Num) :=
  let w := x.length
  let r : Num → Conv := toF32 ftz
  let n := Num.fin false w 1
  let s1 := sum32 ftz x
  let mean := if rms then ⟨0, false, false⟩ else r (divNum (f32 s1.val) n)
  let y := x.map fun v => r (addNum v (negNum (f32 mean.code)))
  let sq := y.map fun v => fmul ftz v.code v.code
  let s2 := sum32 ftz (sq.map fun v => f32 v.code)
  let var := r (divNum (f32 s2.val) n)
  let ve := r (addNum (f32 var.code) (f32 eps))
  let k := funcOut ftz (frsqrt (f32 ve.code))
  let a := (List.range w).map fun i => fmul ftz ((y.map (·.code)).getD i 0) k.code
  let b := (List.range w).map fun i => r (mulNum (f32 ((a.map (·.code)).getD i 0)) (gain.getD i .nan))
  let o := if bias then (List.range w).map fun i => r (addNum (f32 ((b.map (·.code)).getD i 0)) (bia.getD i .nan)) else b
  let t := Tally.of (o.map fun v => f32 v.code) (mean :: var :: ve :: k :: (y ++ sq ++ a ++ b ++ (if bias then o else [])))
  if rms then t.plus s2 else (t.plus s1).plus s2

/-- The sine or cosine of a rotation: the manual gives ROPE no formula, so a free FP32 value of magnitude at most 1 (log entry 47). -/
def ropeWave (sine : Bool) (theta pos i hd : Nat) : Num :=
  let w := (Config.ropeWave sine theta pos i hd).toNat
  f32 (w / 2 ^ 31 * 2 ^ 31 + Nat.min (w % 2 ^ 31) one32)

/-- ROPE (R79): each element of a pair is turned with the other, pairs by the layout of FUNC; pos gives a row's position. The sum of the two
products is rounded once (DESIGN CHOICE, log entry 47); the element a last pair lacks counts as +0. -/
def ropeRun (ftz : Bool) (d : TileD) (pos : Nat → Nat) (xs : List Num) : List Conv :=
  let h := d.d1 / 2
  (List.range xs.length).map fun i =>
    let k := i % d.d1
    let first := if d.func = 0 then decide (k < h) else k % 2 == 0
    let j := if d.func = 0 then (if first then i + h else i - h) else if first then i + 1 else i - 1
    let m := if d.func = 0 then k % h else k / 2
    let y := xs.getD j (.fin false 0 1)
    let wave (sine : Bool) : Num := ropeWave sine d.param (pos (i / d.d1)) m d.d1
    toF32 ftz (addNum (mulNum (xs.getD i .nan) (wave false)) (mulNum (if first then negNum y else y) (wave true)))

/-- TOPK_PRE of one row (R79): k candidates (value, index), descending, lower index first among equals; the rest carry
0xFFFFFFFF. -/
def topRow (k : Nat) (xs : List Num) : List (Option Nat) :=
  let ix := (List.range xs.length).filter fun i => !isNan (xs.getD i .nan)
  let l := sortBy (fun i j => ltNum (xs.getD j .nan) (xs.getD i .nan) || (eqNum (xs.getD i .nan) (xs.getD j .nan) && decide (i ≤ j))) ix
  (List.range k).map fun i => l[i]?

/-- What one tile does (R79). TOPK_PRE's unused places hold the value +0 (DESIGN CHOICE, log entry 113). key names its context's accumulators, tensor and step the generator of R76. -/
def runTile (s : State) (c key numctl seed tensor stepNo : Nat) (d : TileD) : TileRes :=
  let ftz := bit numctl 0
  let rnd : Option (Nat → Nat) := if bit numctl 1 ∧ d.sr ∧ isMx d.fo then some fun i => Config.srandom seed tensor stepNo i % 2 ^ 16 else none
  match d.op with
  | 1 => tileGemm s c key ftz d rnd
  | 2 => tileAttn s c ftz d rnd
  | 3 => tileMerge s c ftz d rnd
  | 4 =>
    let a := readRun s d.a d.fa d.d0
    let b := readRun s d.b d.fb d.d0
    let z := if d.func = 2 then readRun s d.out d.fo d.d0 else []
    let cs := (List.range d.d0).map fun i => elemFunc ftz d.func d.scale (a.getD i .nan) (b.getD i .nan) (z.getD i (.fin false 0 1))
    writeRuns ⟨s, (cs.filter (·.sat)).length, cs.any (·.nan)⟩ c d.out d.fo
      [if d.func = 5 then a else cs.map fun x => f32 x.code] rnd
  | 5 =>
    let gain := readRun s d.b d.fb d.d1
    let bia := readRun s (d.b + runBytes d.fb d.d1) d.fb d.d1
    let rows := (List.range d.d0).map fun i =>
      normRow ftz (bit d.func 0) (bit d.func 1) d.param (readRun s (d.a + i * runBytes d.fa d.d1) d.fa d.d1) gain bia
    writeRuns ⟨s, rows.foldl (fun n r => n + r.sats) 0, rows.any (·.nan)⟩ c d.out d.fo (rows.map (·.val)) rnd
  | 6 =>
    let cs := ropeRun ftz d (fun r => rdNat s (d.b + 4 * r) 4) (readRun s d.a d.fa d.d0)
    writeRuns ⟨s, (cs.filter (·.sat)).length, cs.any (·.nan)⟩ c d.out d.fo [cs.map fun x => f32 x.code] rnd
  | _ =>
    (List.range d.d0).foldl (fun (r : TileRes) i =>
      let xs := readRun s (d.a + i * runBytes d.fa d.d1) d.fa d.d1
      let top := topRow d.d2 xs
      let w := runBytes d.fo d.d2 + 4 * d.d2
      let r := writeRuns r c (d.out + i * w) d.fo [top.map fun t => match t with | some j => xs.getD j .nan | none => .fin false 0 1] rnd
      ⟨unitWrite r.st c (d.out + i * w + runBytes d.fo d.d2) (top.flatMap fun t => toLE 4 (t.getD 0xFFFFFFFF)), r.sats, r.nan⟩) ⟨s, 0, false⟩

/-- Bytes a tile reads at A and B. -/
def tileReads (d : TileD) : List (Nat × Nat) :=
  match d.op with
  | 1 => [(d.a, d.d0 * runBytes d.fa d.d2), (d.b, d.d1 * runBytes d.fb d.d2)]
  | 2 => [(d.a, d.d0 * d.d1 * runBytes d.fa d.d2), (d.b, 32 * runBytes d.fb d.d2)]
  | 3 => [(d.a, d.d0 * d.d1 * tripBytes d.fa d.d2)]
  | 4 => (d.a, runBytes d.fa d.d0) :: (if d.func ≤ 4 ∨ d.func = 12 then [(d.b, runBytes d.fb d.d0)] else [])
  | 5 => [(d.a, d.d0 * runBytes d.fa d.d1), (d.b, (1 + b2n (bit d.func 1)) * runBytes d.fb d.d1)]
  | 6 => [(d.a, runBytes d.fa d.d0), (d.b, 4 * cdiv d.d0 d.d1)]
  | _ => [(d.a, d.d0 * runBytes d.fa d.d1)]

/-- Bytes a tile writes at OUT. -/
def tileWrites (d : TileD) : Nat × Nat :=
  (d.out, match d.op with
    | 1 => d.d0 * runBytes d.fo d.d1
    | 2 => d.d0 * d.d1 * tripBytes d.fo d.d2
    | 3 => d.d1 * (if d.fo = 0 then tripBytes 0 d.d2 else runBytes d.fo d.d2)
    | 4 => runBytes d.fo d.d0
    | 5 => d.d0 * runBytes d.fo d.d1
    | 6 => runBytes d.fo d.d0
    | _ => d.d0 * (runBytes d.fo d.d2 + 4 * d.d2))

/-- Whether a range lies in a Deadbolt slice granted to a context (R385, R388). -/
def granted (s : State) (c a n : Nat) : Bool :=
  (List.range 16).any fun g =>
    let b := sramBase 0 + rf s rScDbGrant g 14 8 * 65536
    rbit s rScDbGrant g 25 && rf s rScDbGrant g 7 0 == c && decide (b ≤ a ∧ a + n ≤ b + rf s rScDbGrant g 22 15 * 65536)

/-- The first address of a span that passes a test: its start, or a multiple of a step above it. -/
def firstAt (step : Nat) (p : Nat → Bool) (a n : Nat) : Option Nat :=
  (a :: (List.range (n / step + 1)).map fun i => (a / step + 1 + i) * step).find? fun x => decide (x < a + n) && p x

/-- The fault an access of n bytes at an address raises for a context (R25, R88, R379): code and the first offending address. read is
false for a write, which finds no memory error. -/
def spanFault (s : State) (c : Nat) (read : Bool) (a n : Nat) : Option (Nat × Nat) :=
  if n = 0 then none
  else if areaOf s a = .reserved ∨ areaOf s (a + n - 1) = .reserved then
    some (1, (firstAt 1024 (fun x => areaOf s x == .reserved) a n).getD a)
  else if c ≠ 0 ∧ inAlloc s c a n = false ∧ granted s c a n = false then
    some (2, (firstAt 1024 (fun x => !inAlloc s c x 1 && !granted s c x 1) a n).getD a)
  else if read = true ∧ (match areaOf s a with | .sram _ => poisoned s a n | _ => false) = true then
    some (7, (firstAt 64 (fun x => poisoned s x 1) a n).getD a)
  else none

/-- The fault a tile's accesses raise before it runs (R25, R88): code and address. -/
def tileFault (s : State) (c : Nat) (d : TileD) : Option (Nat × Nat) :=
  if tileEnumOk d = false ∨ tileFmtOk d = false ∨ tileShapeOk d = false then some (6, 0)
  else ((tileReads d).findSome? fun x => spanFault s c true x.1 x.2).or (spanFault s c false (tileWrites d).1 (tileWrites d).2)

end Sys2Proof.Machine
end

