-- ==== Sys2Proof/Machine/Plans.lean ====
section
/-! DEFINITION. Step plans: reading and checking one (R347–R351, R96, R97, R476), PLAN_LOAD and PLAN_UNLOAD. -/
namespace Sys2Proof.Machine

def planStage (b : List Byte) (n : Nat) : Stage :=
  let o := 0x80 + 64 * n
  let w0 := w64At b o
  let w2 := w64At b (o + 16)
  let kind := bits w0 3 0
  let items := bits w0 47 32
  let len := match kind with | 1 => 64 * items | 2 => 64 | 3 => 32 | 5 => 32 * items | 6 => 128 * items | _ => 0
  ⟨kind, bits w0 9 4, bits w0 16 10, bits w0 24 17, bit w0 25, items, bits w0 51 48, w64At b (o + 8), bits w2 63 32,
   slice b (bits w2 31 0) len⟩

/-- A plan read from its bytes. -/
def planOf (c : Nat) (b : List Byte) (frames : List Nat) : Plan :=
  let w0 := w64At b 0
  let w1 := w64At b 8
  let w4 := w64At b 0x20
  ⟨c, bits w0 49 48, bits w0 52 50, bits w1 12 0, bits w1 50 32, bits w1 54 51, w64At b 0x10, w64At b 0x18,
   bits w4 15 0, bits w4 31 16, bits w4 47 32, bits w4 63 48, bits (w64At b 0x28) 43 0, leAt b 0x30 4,
   (List.range 8).filterMap fun i => let v := leAt b (0x40 + 4 * i) 4; if bit v 31 then some (v % 2 ^ 18) else none,
   (List.range (bits w1 25 16)).map (planStage b), frames, false⟩

def stageTiles (g : Stage) : List TileD := if g.kind = 1 then (List.range g.items).map fun i => tileOf (slice g.body (64 * i) 64) else []

/-- Attention descriptor and operands (R96, R348). -/
structure AttnD where
  qfmt : Nat
  outFmt : Nat
  oBf16 : Bool
  stats : Bool
  cont : Bool
  scale : Nat
  split : Nat
  deadline : Nat
  perTile : Nat
  qPerTile : Nat
  layer : Nat
  layers : Nat
  qrows : Nat
  qheads : Nat
  kvHeads : Nat
  hd : Nat
  fmt : Nat
  qBase : Nat
  outBase : Nat
  int8Base : Nat
deriving DecidableEq, Repr

def attnOf (b : List Byte) : AttnD :=
  let w0 := w64At b 0
  let w3 := w64At b 0x18
  let w4 := w64At b 0x20
  let hd := bits w4 58 50
  let sc := bits w0 63 32
  let sp := leAt b 8 4
  ⟨bits w0 3 0, bits w0 7 4, bit w0 8, bit w0 9, bit w0 10,
   if sc = 0 then (frsqrt (.fin false hd 1)).code else sc, if sp = 0 then 32768 else sp, w64At b 0x10, bits w3 4 0, bits w3 11 5,
   bits w4 15 0, bits w4 20 16, bits w4 31 21, bits w4 40 32, bits w4 49 41, hd, bits w4 62 59,
   bits (w64At b 0x28) 43 0, bits (w64At b 0x30) 43 0, bits (w64At b 0x38) 43 0⟩

/-- Formats of queries a KV storage format allows (R97). -/
def qfmtOk (kv q : Nat) : Bool :=
  if kv = 0 then q == 0 else if kv = 1 then q == 1 else if kv = 2 then q == 2 else decide (kv ≤ 7) && (q == 3 || q == 4)

/-- Reserved bits of an attention stage. -/
def attnRsvdOk (b : List Byte) : Bool :=
  bits (w64At b 0) 31 11 == 0 && leAt b 0x0C 4 == 0 && bits (w64At b 0x18) 63 12 == 0 && bits (w64At b 0x20) 63 63 == 0 &&
  bits (w64At b 0x28) 63 44 == 0 && bits (w64At b 0x30) 63 44 == 0 && bits (w64At b 0x38) 63 44 == 0

/-- The most KV elements one page of a geometry holds, over the heads-per-page values R33 allows. -/
def pageElems (kvHeads hd fmt : Nat) : Nat :=
  (List.range 16).foldl (fun m i =>
    let hpp := i + 1
    if kvHeads % hpp = 0 then (match ptChoose hpp hd fmt with
      | some pt => Nat.max m (2 * hpp * hd * ptRows pt)
      | none => m) else m) 0

/-- Check 3 of an attention stage (R96, R476). DESIGN CHOICE (log entry 122): a SCALE of −0 is neither 0 nor negative, and stands. -/
def attnOk (kind wcet : Nat) (b : List Byte) (a : AttnD) : Bool :=
  let raw := bits (w64At b 0) 63 32
  let sp := leAt b 8 4
  let g := if a.kvHeads = 0 then 0 else a.qheads / a.kvHeads
  let pages := if a.perTile = 0 then 1 else a.perTile
  (raw == 0 || (match f32 raw with | .fin n v _ => !(n && v != 0) | _ => false)) &&
  (sp == 0 || (sp % 1024 == 0 && decide (4096 ≤ sp ∧ sp ≤ 1048576))) &&
  decide (a.deadline ≤ wcet ∧ a.perTile ≤ 16 ∧ 1 ≤ a.qPerTile ∧ a.qPerTile ≤ 64 ∧ 1 ≤ a.layers ∧ a.layers ≤ 16 ∧
    1 ≤ a.qheads ∧ a.qheads ≤ 256 ∧ 1 ≤ a.kvHeads ∧ a.kvHeads ≤ 256 ∧ 16 ≤ a.hd ∧ a.hd ≤ 256 ∧ 1 ≤ g ∧ g ≤ 16 ∧
    a.qheads % a.kvHeads = 0 ∧ 1 ≤ a.qrows ∧ a.qrows ≤ (if kind = 1 then 17 else 1024)) &&
  (kind == 0 || !(a.stats || a.cont)) && ((a.fmt == 7) == (a.int8Base != 0)) &&
  decide (cdiv (pageElems a.kvHeads a.hd a.fmt * pages * a.qPerTile) (eA a.fmt) + 96 ≤ 3200)

/-- An access item (R350). -/
def itemOk (b : List Byte) : Bool × Bool :=
  let w0 := w64At b 0
  let kind := bits w0 3 0
  let size := bits w0 10 4
  (decide (kind ≤ 5 ∧ bits w0 63 11 = 0 ∧ bits (w64At b 16) 63 44 = 0 ∧ leAt b 28 4 = 0),
   if kind ≤ 1 then decide (1 ≤ size ∧ size ≤ 64) else size == (if kind = 5 then 16 else 8))

def stageItems (g : Stage) (w : Nat) : List (List Byte) := (List.range g.items).map fun i => slice g.body (w * i) w

/-- Check 1 of R351. -/
def planForm (b : List Byte) (n : Nat) (p : Plan) : Bool :=
  let w0 := w64At b 0
  let w1 := w64At b 8
  let stages := bits w1 25 16
  let choose := p.stages.any (·.kind == 4)
  b.length == n && decide (128 ≤ n) && bits w0 31 0 == 0x504C414E && bits w0 47 32 == 1 && leAt b 0x38 4 == n &&
  leAt b 0x3C 4 == crc32c (b.drop 128) &&
  bits w0 63 53 == 0 && bits w1 15 13 == 0 && bits w1 31 26 == 0 && bits w1 63 55 == 0 && bits (w64At b 0x28) 63 44 == 0 && leAt b 0x34 4 == 0 &&
  (List.range 8).all (fun i => bits (leAt b (0x40 + 4 * i) 4) 30 18 == 0) && (slice b 0x60 32).all (· == 0) &&
  decide (p.kind ≤ 2 ∧ 1 ≤ p.slots ∧ p.slots ≤ 4096 ∧ 1 ≤ stages ∧ stages ≤ 1023 ∧ 128 + 64 * stages ≤ n ∧ 1 ≤ p.wcet ∧ p.wcet ≤ 10000000000 ∧
    p.tierDeadline ≤ p.wcet) &&
  (if choose then decide (1 ≤ p.vocab ∧ p.vocab ≤ 262144) else p.vocab == 0) &&
  (List.range stages).all fun i =>
    let o := 0x80 + 64 * i
    let g := planStage b i
    let off := leAt b (o + 16) 4
    decide (1 ≤ g.kind ∧ g.kind ≤ 7) && bits (w64At b o) 31 26 == 0 && bits (w64At b o) 63 52 == 0 &&
    (slice b (o + 0x18) 40).all (· == 0) && (g.body.isEmpty || (off % 64 == 0 && decide (off + g.body.length ≤ n))) &&
    (match g.kind with
     | 1 => (stageTiles g).all tileEnumOk
     | 2 => attnRsvdOk g.body
     | 3 => bits (w64At g.body 0) 63 44 == 0 && bits (w64At g.body 8) 63 44 == 0 && bits (w64At g.body 16) 63 32 == 0 && w64At g.body 24 == 0
     | 5 => (stageItems g 32).all fun x => (itemOk x).1
     | 6 => (stageItems g 128).all fun x => bits (w64At x 0) 63 16 == 0 && (slice x 8 56).all (· == 0) && workReqForm (workReqOf (slice x 64 64))
     | _ => true)

/-- Check 2 of R351: format codes and combinations. -/
def planFormats (p : Plan) : Bool :=
  decide (p.logitFmt ≤ 1) && p.stages.all fun g =>
    match g.kind with
    | 1 => (stageTiles g).all tileFmtOk
    | 2 => let a := attnOf g.body; qfmtOk a.fmt a.qfmt && decide (a.outFmt ≤ 2)
    | _ => true

/-- Check 3 of R351. -/
def planShapes (s : State) (c : Nat) (p : Plan) : Bool :=
  let b := if p.logitFmt = 0 then 4 else 2
  let cums := p.stages.map (·.cumWcet)
  let choose := p.stages.any (·.kind == 4)
  p.stages.all (fun g =>
    decide (1 ≤ g.teCount ∧ g.teCount ≤ 64 ∧ g.teFirst + g.teCount ≤ 64) &&
    (match g.kind with
     | 1 => (stageTiles g).all tileShapeOk
     | 2 => attnOk p.kind p.wcet g.body (attnOf g.body)
     | 3 => imageReady s c g.imageId
     | 5 => (stageItems g 32).all fun x => (itemOk x).2
     | _ => true)) &&
  (List.zip cums (cums.drop 1)).all (fun x => decide (x.1 ≤ x.2)) && cums.getLast? == some p.wcet &&
  (!choose || (decide ((if p.kind = 1 then 17 else 1) * p.vocab * b ≤ p.logitBytes) &&
    (ctxSram s c).any fun r => decide (r.1 ≤ p.logitBase ∧ p.logitBase + p.slots * p.logitBytes ≤ r.1 + r.2)))

/-- PLAN_LOAD. -/
def opPlanLoad (id : Nat) (k : Cmd) (s : State) : State :=
  let n := fld k.w2 31 0
  let c := cCtx k
  match cmdBytes s k 1 n k.buf with
  | none => fail s id sInvalidParam 0
  | some b =>
    let p := planOf c b []
    if planForm b n p = false then fail s id sInvalidParam 0
    else if planFormats p = false then fail s id sInvalidFormat 0
    else if planShapes s c p = false then fail s id sInvalidParam 0
    else
      let nf := cdiv n frameBytes
      let beyond := p.stages.any fun g => (stageTiles g).any fun d => decide (rf s rMtAlloc c 52 44 < d.accKib)
      let frac := (List.range 4).any fun i => exceeds (planFrac p i) (weight s i c) (weightSum s i c (weight s i c))
      if mayTake s c nf = false ∨ freeFrames s < nf then fail s id sNoFit 1
      else if beyond then fail s id sNoFit 2
      else if frac then fail s id sNoFit 8
      else match pick s (fun i => !thas s.st.plans i) 0 4096 with
        | (none, s) => fail s id sNoFit 9
        | (some i, s) => match takeFrames s .system c .plan i nf with
          | none => fail s id sNoFit 1
          | some (fs, s) =>
            let s := fillFrames s fs b
            finish (modSt s fun t => { t with plans := tput t.plans i { p with frames := fs } }) id sOk 0 i 0

/-- Release a plan. -/
def planFree (s : State) (i : Nat) : State :=
  match tget s.st.plans i with
  | none => s
  | some p => modSt (p.frames.foldl dropSystem s) fun t => { t with plans := tdel t.plans i }

def planBusy (s : State) (i : Nat) : Bool := s.st.steps.any fun kv => kv.2.plan == i

/-- A plan being unloaded goes once no step of it is queued or running. -/
def planIdle (s : State) : State :=
  (tkeys s.st.plans fun p => p.unloading).foldl (fun s i =>
    if planBusy s i then s else finishAll (planFree s i) (.planIdle i) sOk 0 0 0) s

/-- PLAN_UNLOAD. -/
def opPlanUnload (id : Nat) (k : Cmd) (s : State) : State :=
  let i := fld k.w1 11 0
  match tget s.st.plans i with
  | none => fail s id sInvalidParam 0
  | some p =>
    if p.ctx ≠ cCtx k ∨ p.unloading then fail s id sInvalidParam 0
    else planIdle (pend (modSt s fun t => { t with plans := tput t.plans i { p with unloading := true } }) id (.planIdle i))

end Sys2Proof.Machine
end

