-- ==== Sys2Proof/Machine/Submit.lean ====
section
/-! DEFINITION. STEP_SUBMIT and the dispatch of a step: its slots' checks and the frames and drafts it takes (R14, R52, R60, R118,
R128, R129, R344, R352, R353, R476). -/
namespace Sys2Proof.Machine

def modStep (s : State) (id : Nat) (f : Step → Step) : State := modSt s fun t => { t with steps := tmod t.steps id f }

/-- STEP_SUBMIT. -/
def opStepSubmit (id : Nat) (k : Cmd) (s : State) : State :=
  match tget s.st.plans (fld k.w1 11 0) with
  | none => fail s id sInvalidParam 0
  | some p =>
    if p.ctx ≠ cCtx k ∨ p.unloading ∨ (cKind k 3 = 1 ∧ inAlloc s (cCtx k) k.w3.toNat (96 * p.slots) = false) then fail s id sInvalidParam 0
    else match cmdBytes s k 2 (128 * p.slots) k.buf with
      | none => fail s id sInvalidParam 0
      | some b =>
        let ent (i : Nat) : List Byte := slice b (128 * i) 128
        if (List.range p.slots).any (fun i => bits (w64At (ent i) 0) 63 33 != 0 || (slice (ent i) 8 56).any (· != 0)) then fail s id sInvalidParam 0
        else
          let n := (s.st.stepCtr + 1) % 2 ^ 32
          let slots := (List.range p.slots).map fun i =>
            let e := ent i
            (⟨leAt e 0 4, 0, bit (leAt e 4 1) 0, false, e.drop 64, sOk, 0, 0, [], false, 0, 0, 0, 0, [], 0, false, [], 0, 0, [], 0, ⟨false, 0, false, 0, 0, 0, 0, 0⟩⟩ : SlotRun)
          let st : Step := ⟨id, fld k.w1 11 0, cCtx k, false, 0, 0, slots, [], 0, 0, false, false, []⟩
          waitFor (modSt s fun t => { t with stepCtr := n, steps := tput t.steps n st }) id (.step n)

/-- Attention stages of a plan. -/
def planAttn (p : Plan) : List AttnD := p.stages.filterMap fun g => if g.kind = 2 then some (attnOf g.body) else none

/-- Frames beyond the reserve that rows appended to a (layer, head group) reach: those the rows need, less what the reserve has for the
pair, which its refill may have left bare (R51, R52, R63). -/
def extraFrames (x : Seq) (layer hg rows : Nat) : Nat :=
  let pt := ptRows x.geo.ptCode
  let ps := x.pages.filter fun p => p.layer == layer && p.hg == hg
  let pos := x.kvLength
  let need := match ps.find? fun p => p.opened && decide (p.base ≤ pos ∧ pos < p.base + pt) with
    | some p => cdiv (rows - (p.base + pt - pos)) pt
    | none => match ps.find? fun p => !p.opened && decide (p.base ≤ pos ∧ pos < p.base + p.fill) with
      | some p => cdiv (rows + (pos - p.base)) pt
      | none => cdiv rows pt
  need - (x.reserve.filter fun r => r.layer == layer && r.hg == hg).length

/-- Layers a plan's attention stages write. -/
def planCells (p : Plan) (x : Seq) : List (Nat × Nat) :=
  let ls := ((planAttn p).flatMap fun a => (List.range a.layers).map fun i => a.layer + i).eraseDups
  (ls.filter fun l => decide (l < x.geo.layers)).flatMap fun l => (List.range (groups x.geo)).map fun h => (l, h)

/-- Rows of a prefill or model step for a sequence. -/
def chunkRows (p : Plan) (x : Seq) : Nat :=
  Nat.min ((planAttn p).foldl (fun m a => Nat.max m a.qrows) 0) (x.length - x.kvLength)

/-- Whether the rows from position pos of a sequence lie, for every head group of a layer, in one OPEN page with row statistics. -/
def statsHeld (s : State) (x : Seq) (layer pos rows : Nat) : Bool :=
  (List.range (groups x.geo)).all fun hg => x.pages.any fun g =>
    g.opened && g.layer == layer && g.hg == hg && decide (g.base ≤ pos ∧ pos + rows ≤ g.base + ptRows x.geo.ptCode) &&
    (match localFrame s g.entry with | some f => (trailer s f).statsRef != 0 | none => false)

/-- Whether a CONTINUE pass of a plan would find pages with STATS_REF 0 (R99): no earlier stage of the plan writes the statistics of a
layer it continues, and its pages hold none. -/
def contBare (s : State) (p : Plan) (x : Seq) : Bool :=
  let as := planAttn p
  (List.range as.length).any fun i => match as[i]? with
    | some a => a.cont && (List.range a.layers).any fun l =>
        !((as.take i).any fun b => (b.stats || b.cont) && decide (b.layer ≤ a.layer + l ∧ a.layer + l < b.layer + b.layers)) &&
          !statsHeld s x (a.layer + l) x.kvLength (chunkRows p x)
    | none => false

/-- The offset of the first field of a slot's choice record that R118 refuses. -/
def recordFault (s : State) (p : Plan) (r : SlotRun) : Option Nat :=
  let choose := p.stages.any (·.kind == 4)
  let gramOk (i : Nat) : Bool := match tget s.st.grammars (p.ctx * 64 + i) with | some g => !choose || gramVocab g.table == p.vocab | none => false
  choiceCheck r.rec_ p.vocab gramOk (fun a n => inAlloc s p.ctx a n)

def recordBad (s : State) (p : Plan) (r : SlotRun) : Bool := (recordFault s p r).isSome

/-- Why a slot is padded at dispatch: status, detail, DETAIL1 (R353). twice says that its sequence is named twice. The choice record is checked
whatever stages the plan has (R118). -/
def slotCheck (s : State) (p : Plan) (r : SlotRun) (twice : Bool) : Option (Nat × Nat × Nat) :=
  let c := p.ctx
  let q := r.seq
  match recordFault s p r with
  | some d => some (sInvalidParam, d, 0)
  | none => match seqOf s q with
    | none => some (sStaleEpoch, 0, ownerKnown s q)
    | some x =>
      if x.ctx ≠ c then some (sInvalidParam, 0, 0)
      else if !(x.st == .runnable || x.st == .starved) then some (sInvalidParam, 0x8000 + sstateCode x.st, 0)
      else if twice then some (sInvalidParam, 0xFFFE, 0)
      else if ownLease s x.home = false ∨ s.ce.padded.contains q then some (sStaleEpoch, 0, self s + x.epoch * 2 ^ 32)
      else if p.kind = 1 ∧ x.kvLength + 1 ≠ x.length then some (sInvalidParam, 0, 0)
      else if (planAttn p).any (fun a => a.kvHeads != x.geo.kvHeads || a.hd != x.geo.headDim || a.fmt != x.geo.format) then some (sInvalidParam, 0, 0)
      else if p.stages.any (fun g => g.kind == 3 && !imageReady s c g.imageId) then some (sInvalidParam, 0, 0)
      else if contBare s p x then some (sInvalidParam, 0, 0)
      else if x.st = .starved then some (sReserveStarved, 0, 0)
      else none

/-- The choice state a slot starts with (R126, R128). -/
def choiceStart (s : State) (c : Nat) (r : ChoiceRec) (x : Choice) : Choice :=
  let x := if x.made then x else { x with made := true, draftLen := r.draftMax }
  if r.useGrammar ∧ (x.grammarValid = false ∨ x.grammarId ≠ r.grammarId) then
    let start := match tget s.st.grammars (c * 64 + r.grammarId) with | some g => gramStart g.table | none => 0
    { x with grammarId := r.grammarId, grammarValid := true, grammarState := start }
  else x

/-- A slot at the start of its step: padded, or running with its rows, drafts and extra frames. -/
def slotStart (s : State) (id i : Nat) (p : Plan) (r : SlotRun) (twice : Bool) : State :=
  if r.seq = 0 then s
  else
    let pad (s : State) (st d d1 : Nat) : State := modSlot s id i fun r => { r with run := 0, status := st, detail := d, detail1 := d1 }
    match slotCheck s p r twice, seqOf s r.seq with
    | some (st, d, d1), _ =>
      let s := if recordBad s p r then bump s rTuEvtCnt 0 47 32 1 else s
      if st = sStaleEpoch ∧ d1 = 0 then
        let (w, s) := ownerWord s r.seq
        pad s st d w
      else pad s st d d1
    | none, none => s
    | none, some x =>
      let rec_ := choiceOf r.rec_
      let ch := choiceStart s p.ctx rec_ x.choice
      let ok := !rec_.hostMask && rbit s rTuSpecCtrl 0 0 && decide (x.partner ≠ 0) && !x.draft
      let d := if p.kind = 1 then draftCount ⟨ch.draftLen, ch.reject, ch.accept, ch.probe⟩ rec_.draftMax x.length ok else 0
      let qrows := (planAttn p).foldl (fun m a => Nat.max m a.qrows) 0
      let rows := if p.kind = 1 then Nat.min (1 + d) qrows else chunkRows p x
      let extra := (planCells p x).foldl (fun n c => n + extraFrames x c.1 c.2 rows) 0
      let got := if extra = 0 then some ([], s)
        else if freeFrames s < extra ∨ mayTake s p.ctx extra = false then none
        else takeFrames s .opened p.ctx .none r.seq extra
      match got with
      | none =>
        let s := bump (changeSeq s r.seq fun y => { y with st := .starved }) rPgFallbackCnt 0 63 48 1
        raiseSeq (pad s sReserveStarved 0 0) p.ctx evReserveStarved sReserveStarved r.seq 0
      | some (fs, s) =>
        let s := updSeq s r.seq fun y => { y with choice := ch }
        modSlot s id i fun r => { r with
          run := 1, rows := rows, frames := fs, kv := x.kvLength, length := x.length, gate := d, choice := x.choice
          failed := match tget s.ce.groups x.group with
            | some g => g.failed.map fun k => g.members.getD k 0
            | none => [] }

/-- A queued step may start: its plan's earlier steps have ended, its context is ACTIVE, and no new step runs after
a host loss that does not close the Shutter (R344, R442). -/
def mayDispatch (s : State) (x : Step) : Bool :=
  !x.running && ctxState s x.ctx == 1 && !(rbit s rGlStatus 0 6 && !rbit s rGlHotplug 0 16) &&
  !(s.st.steps.any fun kv => kv.2.plan == x.plan && (kv.2.running || decide (kv.2.cmd < x.cmd)))

/-- STEP_DISPATCH, up to the start of the first stage. -/
def stepStart (s : State) (id : Nat) (x : Step) (p : Plan) : State :=
  let busy (q : Nat) : Bool := s.st.steps.any fun kv => kv.2.running && kv.2.slots.any fun r => r.run != 0 && r.seq == q
  let twice (q : Nat) : Bool := busy q || decide ((x.slots.filter fun r => r.seq == q).length > 1)
  let s := modStep s id fun y => { y with
    running := true, startAt := s.now, stage := 0, ctrs := (List.range 16).map fun j => (rdReg s rXeArmCtr (x.ctx * 16 + j) 0).toNat,
    numctl := (rdReg s rTeNumctl x.ctx 0).toNat, srseed := (rdReg s rTeSrseed x.ctx 0).toNat }
  (List.range x.slots.length).foldl (fun s i => match x.slots[i]? with
    | some r => slotStart s id i p r (twice r.seq)
    | none => s) s

end Sys2Proof.Machine
end

