-- ==== Sys2Proof/Machine/Panes.lean ====
section
/-! DEFINITION. The requester's side of attention: a slot's data (R476), its own triples, pane requests, panes that arrive or are
missing, substitutes, and the merge (R90–R116). -/
namespace Sys2Proof.Machine

def stepOf (s : State) (id : Nat) : Option Step := tget s.st.steps id
def slotAt (s : State) (id i : Nat) : Option SlotRun := (stepOf s id).bind fun x => x.slots[i]?

/-- Bytes of one row of one KV head at Q_BASE (R476). -/
def kvRowBytes (a : AttnD) : Nat := a.hd * fmtWidth a.fmt / 8 + (if isMx a.fmt then a.hd / 32 else 0)

/-- Bytes of one layer of a slot's block at Q_BASE, and where slot i's layer l begins. -/
def qLayerBytes (a : AttnD) : Nat := a.qrows * a.qheads * a.hd * elemBytes a.qfmt + 2 * a.qrows * a.kvHeads * kvRowBytes a
def qLayerAt (a : AttnD) (i l : Nat) : Nat := a.qBase + (i * a.layers + l) * qLayerBytes a

/-- The query of (slot, layer, row, head). -/
def queryRow (s : State) (a : AttnD) (i l r j : Nat) : List Num :=
  rowValues a.qfmt (rdMem s (qLayerAt a i l + (r * a.qheads + j) * a.hd * elemBytes a.qfmt) (a.hd * elemBytes a.qfmt)) [] a.hd

/-- Element and scale bytes of the K (region 0) or V (region 1) row of (slot, layer, row, KV head). -/
def newRow (s : State) (a : AttnD) (i l region r h : Nat) : List Byte × List Byte :=
  let b := qLayerAt a i l + a.qrows * a.qheads * a.hd * elemBytes a.qfmt + (region * a.qrows * a.kvHeads + r * a.kvHeads + h) * kvRowBytes a
  let n := a.hd * fmtWidth a.fmt / 8
  (rdMem s b n, if isMx a.fmt then rdMem s (b + n) (a.hd / 32) else [])

/-! ### A slot that is lost -/

/-- Discard a slot's tentative rows and end its step with a status (R54, R113, R323). -/
def slotFail (s : State) (id i st d d1 : Nat) : State :=
  match slotAt s id i with
  | some r =>
    if r.run ≠ 1 then s
    else
      let s := commitTo s r.seq r.kv
      modSlot s id i fun r => { r with run := 2, status := st, detail := d, detail1 := d1, tokens := [] }
  | none => s

/-- PANE_LOST (R113). -/
def paneLost (s : State) (id i holder : Nat) : State :=
  match slotAt s id i with
  | some r =>
    if r.run ≠ 1 then s
    else
      let s := slotFail s id i sPaneLost 0 holder
      let s := wf (bump s rTePaneEvtCnt 0 47 32 1) rTeAttnErr 0 2 2 1
      recoveryPause s r.seq
  | none => s

/-- Whether a row a slot appends in a stage must copy a page whose bytes are lost here and come from nowhere else (R40, R63). -/
def copyLost (s : State) (x : Seq) (a : AttnD) (kv : Nat) (remote : List PageCopy) : Bool :=
  x.pages.any fun p => !p.opened && decide (a.layer ≤ p.layer ∧ p.layer < a.layer + a.layers ∧ p.base ≤ kv ∧ kv < p.base + p.fill) &&
    pageGone s p.entry && (copyAt remote p).isNone

/-- Write a slot's new K and V rows into its pages, and to the mirror partner (R51, R55, R98). A page to be copied that cannot be read or
reconstructed loses the slot as a missing pane does, and nothing is written. -/
def writeKv (s : State) (id i : Nat) (a : AttnD) (r : SlotRun) (remote : List PageCopy) : State :=
  match seqOf s r.seq with
  | none => s
  | some x =>
    if copyLost s x a r.kv remote then paneLost s id i (self s)
    else (List.range a.layers).foldl (fun s l =>
      if a.layer + l ≥ x.geo.layers then s
      else
        let s := touchSpan s x.ctx (qLayerAt a i l + a.qrows * a.qheads * a.hd * elemBytes a.qfmt, 2 * r.rows * a.kvHeads * kvRowBytes a)
        let s := (List.range r.rows).foldl (fun s t =>
          (List.range (groups x.geo)).foldl (fun s hg =>
            appendRow s r.seq id i (a.layer + l) hg (r.kv + t) (fun region h => newRow s a i l region t (hg * x.geo.hpp + h)) remote) s) s
        mirrorRows s r.seq (a.layer + l) r.kv) s

/-- INT8 scale of a (layer, KV head) of a stage (R83, R476). -/
def int8Scale (s : State) (a : AttnD) (l h : Nat) : Option Num :=
  if a.fmt = 7 then some (f32 (rdNat s (a.int8Base + 4 * (l * a.kvHeads + h)) 4)) else none

/-! ### Units of attention work (R106, R107) -/

/-- Units of a slot or pane job: layers of a stage or request; blocks (first row, rows) of query rows; the split (0: short); the TOKEN_BASEs
of all pages held of the sequence; the (layer, head group, TOKEN_BASE) of those to be read. A short sequence has one unit a layer, a long one
a unit for each local range and head group with a page of the layer. -/
def attnUnits (slot layers : Nat) (blocks : List (Nat × Nat)) (split qheads kvHeads hpp : Nat) (bases : List Nat) (ps : List (Nat × Nat × Nat)) :
    List AttnUnit :=
  let w := hpp * (qheads / Nat.max 1 kvHeads)
  (List.range layers).flatMap fun l => blocks.flatMap fun b =>
    if split = 0 then [⟨slot, l, 0, [], b.1, b.2, 0, qheads, []⟩]
    else (localRanges split bases).flatMap fun rs => (List.range (kvHeads / Nat.max 1 hpp)).filterMap fun hg =>
      if ps.any (fun p => p.1 == l && p.2.1 == hg && rs.contains (p.2.2 / split)) then some ⟨slot, l, split, rs, b.1, b.2, hg * w, w, []⟩ else none

/-- Whether a page lies in a unit's ranges. -/
def AttnUnit.inRange (u : AttnUnit) (base : Nat) : Bool := u.split == 0 || u.ranges.contains (base / u.split)

/-- Whether a unit reads a page: one of its layer (counted from first), ranges and head groups, of w query heads each, and none above its last
row, at position top (R98). -/
def AttnUnit.reads (u : AttnUnit) (first w : Nat) (top : Option Nat) (layer hg base : Nat) : Bool :=
  layer == first + u.layer && u.inRange base && decide (u.head0 ≤ hg * w ∧ hg * w < u.head0 + u.heads) &&
    (match top with | some t => decide (base ≤ t) | none => true)

/-- The triples of a unit, by row and head, over the pages it reads: g query heads a KV head, the query of (row, head), its row's position
(none: every row of a page's view takes part) and the INT8 scale of a KV head. -/
def AttnUnit.run (u : AttnUnit) (s : State) (ftz : Bool) (ps : List KvPage) (g : Nat) (query : Nat → Nat → List Num) (pos : Nat → Option Nat)
    (scale : Nat) (sc : Nat → Option Num) (d : Nat) : Tally (List Trip) :=
  let ts := (List.range u.rows).flatMap fun t => (List.range u.heads).map fun k =>
    let j := u.head0 + k
    let kh := j / Nat.max 1 g
    unitTrip s ftz (ps.filter fun p => p.hg == kh / p.geo.hpp) (kh % ((ps.head?.map (·.geo.hpp)).getD 1)) (query (u.row0 + t) j)
      (pos (u.row0 + t)) scale (sc kh) d
  ⟨ts.map (·.val), ts.foldl (fun n t => n + t.sats) 0, ts.any (·.nan)⟩

/-- The triple a controller's units have for a (layer, row, head): a short sequence's one unit gives it, a long sequence's are merged in
the order of their ranges (R94). -/
def unitsTrip (ftz : Bool) (d : Nat) (us : List AttnUnit) (l r j : Nat) : Tally Trip :=
  let mine := us.filter fun u => u.layer == l && decide (u.row0 ≤ r ∧ r < u.row0 + u.rows ∧ u.head0 ≤ j ∧ j < u.head0 + u.heads)
  let ts := mine.map fun u => u.trips.getD ((r - u.row0) * u.heads + (j - u.head0)) (trip0 d)
  if mine.all (·.split == 0) then ⟨ts.headD (trip0 d), 0, false⟩ else mergeTrips ftz d ts

/-- Cycles of the ATTN_BLOCK tiles of a unit over n pages (R66, R79, R83): qPer rows and per pages a tile, 0 for the most that R66 allows, of
elems KV elements a page at e_a a cycle. -/
def unitTiles (elems ea n rows per qPer : Nat) : List Nat :=
  let cost (q k : Nat) : Nat := cdiv (elems * k * q) ea + 96
  let most (q : Nat) : Nat := ((List.range 16).reverse.find? fun k => decide (cost q (k + 1) ≤ 3200)).elim 1 (· + 1)
  let q := if qPer = 0 then ((List.range 64).reverse.find? fun k => decide (cost (k + 1) 1 ≤ 3200)).elim 1 (· + 1) else qPer
  let per := if per = 0 then most q else per
  (List.range (cdiv rows q)).flatMap fun b => (List.range (cdiv n per)).map fun i =>
    cost (Nat.min q (rows - q * b)) (Nat.min per (n - per * i))

/-- Elements of K and V of a page. -/
def kvElems (g : Geometry) : Nat := 2 * g.hpp * g.headDim * ptRows g.ptCode

/-- Cycles of work whose tiles take those given: at least one tile, that finds nothing to read. -/
def tilesCycles (ts : List Nat) : Nat := if ts.isEmpty then 96 else ts.foldl (· + ·) 0

/-! ### A slot's own attention -/

/-- Whether a tier-2 slot cannot be read: it is lost, or its port is down (R157, R162). -/
def slotDown (s : State) (n : Nat) : Bool :=
  (match slot s n with | some t => t.state == 3 | none => true) ||
  (match slotPort s n with | some i => !rbit s rMcTierPorts 0 (52 + i) | none => true)

/-- Whether a page held here cannot be read in its place, so that its rows come from its reconstruction (R40, R109, R162). -/
def needsCopy (s : State) (w : Word) : Bool :=
  entryPoisoned s w || (match localSlot s w with | some n => slotDown s n | none => false)

/-- A page of a sequence held here as attention reads it. -/
def kvPage (s : State) (x : Seq) (kv : Nat) (copies : List PageCopy) (p : PageRef) : Option KvPage :=
  let c := if needsCopy s p.entry then (copyAt copies p).map (·.bytes) else none
  match localFrame s p.entry, localSlot s p.entry with
  | some f, _ => some ⟨p.layer, p.hg, p.base, viewRows kv p, x.geo, frameAddr f, c⟩
  | none, some n => some ⟨p.layer, p.hg, p.base, viewRows kv p, x.geo, slotAddr n, c⟩
  | none, none => none

/-- S for a sequence that is long at this KV_LENGTH, else 0 (R106). -/
def splitOf (a : AttnD) (kv : Nat) : Nat := if kv < a.split then 0 else a.split

/-- Whether a page of a table is held here. -/
def heldHere (s : State) (p : PageRef) : Bool := (localFrame s p.entry).isSome || (localSlot s p.entry).isSome

/-- A slot's units in an attention stage (R98, R106): a decode step's rows go together, those of another plan in blocks of QROWS_PER_TILE. -/
def slotUnits (s : State) (decode : Bool) (i : Nat) (a : AttnD) (r : SlotRun) : List AttnUnit :=
  match seqOf s r.seq with
  | none => []
  | some x =>
    let held := x.pages.filter (heldHere s)
    let q := Nat.max 1 (if decode then r.rows else a.qPerTile)
    attnUnits i a.layers ((List.range (cdiv r.rows q)).map fun b => (q * b, Nat.min q (r.rows - q * b))) (splitOf a r.kv) a.qheads a.kvHeads x.geo.hpp
      (held.map (·.base)) ((held.filter fun p => decide (a.layer ≤ p.layer ∧ p.layer < a.layer + a.layers)).map fun p => (p.layer - a.layer, p.hg, p.base))

/-- Pages a slot's unit reads. -/
def slotRefs (s : State) (a : AttnD) (r : SlotRun) (u : AttnUnit) : List PageRef :=
  match seqOf s r.seq with
  | none => []
  | some x => x.pages.filter fun p => heldHere s p &&
      u.reads a.layer (x.geo.hpp * (a.qheads / Nat.max 1 a.kvHeads)) (some (r.kv + u.row0 + u.rows - 1)) p.layer p.hg p.base

/-- ATTN_BLOCK tiles of a slot's unit, in cycles. -/
def slotTiles (s : State) (a : AttnD) (r : SlotRun) (u : AttnUnit) : List Nat :=
  match seqOf s r.seq with
  | none => []
  | some x => unitTiles (kvElems x.geo) (eA a.fmt) (slotRefs s a r u).length u.rows a.perTile a.qPerTile

/-! ### Pane requests -/

/-- Word 0x08 of a request (R100). -/
def paneWord (a : AttnD) (rows : Nat) (nRanges : Nat) (degraded : Bool) : Nat :=
  a.layer + a.layers * 2 ^ 16 + rows * 2 ^ 24 + b2n a.oBf16 * 2 ^ 31 + a.qheads * 2 ^ 32 + a.hd * 2 ^ 41 + a.qfmt * 2 ^ 50 +
  nRanges * 2 ^ 54 + b2n degraded * 2 ^ 58

/-- Bytes of a PANE_REQUEST (R100). -/
def paneReq (s : State) (i : Nat) (a : AttnD) (r : SlotRun) (p : Pane) (ctx key dest : Nat) : List Byte :=
  toLE 4 r.seq ++ toLE 4 p.step ++ toLE 8 (paneWord a p.rows p.ranges.length p.degraded) ++
  toLE 8 (self s + ctx * 2 ^ 20 + p.missing * 2 ^ 28 + p.rank * 2 ^ 48 + p.count * 2 ^ 56) ++ toLE 8 a.scale ++ toLE 8 p.deadline ++
  toLE 8 dest ++ toLE 8 key ++ toLE 8 0 ++
  p.ranges.flatMap (fun x => toLE 4 x.1 ++ toLE 4 x.2.1 ++ toLE 8 x.2.2) ++
  (List.range a.layers).flatMap fun l =>
    rdMem s (qLayerAt a i l + p.row0 * a.qheads * a.hd * elemBytes a.qfmt) (p.rows * a.qheads * a.hd * elemBytes a.qfmt)

/-- Bytes of a pane's buffer. -/
def paneBytes (a : AttnD) (rows : Nat) : Nat := 64 + a.layers * rows * a.qheads * (a.hd * (if a.oBf16 then 2 else 4) + 8)

/-- Send one request: a window on the pane's buffer, and the message on TC1 (R100, R105, R110). DEST is this endpoint with local address 0
for every pane, since a pane's buffer lies outside the local map (DESIGN CHOICE, log entry 14). Without a window no pane can arrive, and the
slot is lost (R110, R113). -/
def sendPane (s : State) (i : Nat) (a : AttnD) (r : SlotRun) (p : Pane) (ctx : Nat) : State :=
  if ((slotAt s p.step p.slot).map (·.run)) ≠ some 1 then s
  else
  let n := s.st.paneCtr
  let w : Win := ⟨true, ctx, 0, paneBytes a p.rows, true, false, false, none, none, 0, [], some n, []⟩
  match winAlloc s w with
  | (none, s) => paneLost (modSt s fun t => { t with paneCtr := n + 1, panes := tput t.panes n { p with st := 2, win := 0 } }) p.step p.slot
      (if p.degraded then p.missing else p.holder)
  | (some wi, s) =>
    let p := { p with win := wi }
    let key := match winOf s wi with | some w => winKey wi w | none => 0
    let s := modSt s fun t => { t with paneCtr := n + 1, panes := tput t.panes n p }
    let qb := a.qheads * a.hd * elemBytes a.qfmt
    let s := (List.range a.layers).foldl (fun s l => touchSpan s ctx (qLayerAt a i l + p.row0 * qb, p.rows * qb)) s
    fwSend s p.holder ptPaneReq 1 .pane (paneReq s i a r p ctx key (self s * 2 ^ 44)) (.paneRequest n)

/-- Rows in blocks of 64 (R98). -/
def rowBlocks (rows : Nat) : List (Nat × Nat) := (List.range (cdiv rows 64)).map fun b => (64 * b, Nat.min 64 (rows - 64 * b))

/-- The pane deadline of a stage (R96, R110). -/
def paneDue (s : State) (a : AttnD) (wcet : Nat) : Nat :=
  s.now + (if a.deadline = 0 then wcet * rf s rTeAttnCtrl 0 14 8 / 100 else a.deadline)

/-- Substitute requests for a holder (R112): the other live members of the stripe group, in ascending endpoint order. With none to ask, the
holder's pane has no substitute and the slot is lost (R110, R113). -/
def sendSubs (s : State) (id i stage : Nat) (a : AttnD) (r : SlotRun) (ctx wcet holder row0 rows : Nat) (ranges : List (Nat × Nat × Nat)) : State :=
  let gone := (s.st.panes.filter fun kv => kv.2.step == id && kv.2.slot == i && kv.2.stage == stage && kv.2.st == 2).map fun kv => kv.2.holder
  let members := match (seqOf s r.seq).bind fun x => tget s.ce.groups x.group with
    | some g => sortBy (fun a b : Nat => decide (a ≤ b)) ((List.range g.members.length).filterMap fun k =>
        let e := g.members.getD k 0
        if g.failed.contains k ∨ r.failed.contains e ∨ e = self s ∨ e = holder ∨ gone.contains e then none else some e)
    | none => []
  let s := bump s rTePaneEvtCnt 0 31 16 1
  let s := raiseSeq s ctx evPaneDegraded 0 r.seq (a.layer + holder * 2 ^ 16)
  let n := Nat.min 15 members.length
  if n = 0 then paneLost s id i holder
  else
    (List.range n).foldl (fun s k =>
      sendPane s i a r ⟨id, i, stage, a.layer, a.layers, row0, rows, members.getD k 0, true, holder, k, n,
        ranges.map fun x => (x.1, x.2.1, 0), paneDue s a wcet, s.now, 0, 0, []⟩ ctx) s

/-- Holders other than this controller that a slot's table names for a stage's layers, with their ranges. -/
def paneHolders (s : State) (x : Seq) (a : AttnD) : List (Nat × List (Nat × Nat × Nat)) :=
  let named := (x.pages.filter fun p => decide (a.layer ≤ p.layer ∧ p.layer < a.layer + a.layers)).filterMap fun p =>
    match entryOf p.entry with
    | .page ep _ _ _ => some (ep, p)
    | .slot ep _ => some (ep, p)
    | _ => none
  let eps := ((named.map (·.1)).eraseDups).filter (· != self s)
  eps.map fun e =>
    let mine := (named.filter fun y => y.1 == e).map (·.2)
    let lo := mine.foldl (fun m p => Nat.min m p.base) (2 ^ 32)
    let hi := mine.foldl (fun m p => Nat.max m (p.base + 1)) 0
    let counts := (List.range a.layers).map fun l => (mine.filter fun p => p.layer == a.layer + l).length
    let n := counts.headD 0
    (e, [(lo, hi, if counts.all (· == n) then n else 0)])

/-- Send a slot's requests for a stage: a member marked FAILED at step start gets substitutes in the first place (R111). -/
def askPanes (s : State) (id i stage : Nat) (a : AttnD) (r : SlotRun) (ctx wcet : Nat) : State :=
  match seqOf s r.seq with
  | none => s
  | some x =>
    (paneHolders s x a).foldl (fun s h => (rowBlocks r.rows).foldl (fun s b =>
      if r.failed.contains h.1 then sendSubs s id i stage a r ctx wcet h.1 b.1 b.2 h.2
      else sendPane s i a r ⟨id, i, stage, a.layer, a.layers, b.1, b.2, h.1, false, 0, 0, 0, h.2, paneDue s a wcet, s.now, 0, 0, []⟩ ctx) s) s

/-! ### Panes -/

/-- Invalidate a pane's window (R114). -/
def paneClose (s : State) (p : Pane) : State := if p.win = 0 then s else winInvalidate s p.win none true

/-- A pane is missing (R110, R112, R113): substitutes are asked, or the slot is lost when it was a substitute. -/
def paneMissing (s : State) (n : Nat) : State :=
  match tget s.st.panes n with
  | none => s
  | some p =>
    if p.st ≠ 0 then s
    else
      let s := paneClose s p
      let s := modSt s fun t => { t with panes := tput t.panes n { p with st := 2 } }
      match stepOf s p.step, slotAt s p.step p.slot with
      | some x, some r =>
        if p.degraded then paneLost s p.step p.slot p.missing
        else match tget s.st.plans x.plan with
          | some pl => match pl.stages[p.stage]? with
            | some g => if r.run = 1 then sendSubs s p.step p.slot p.stage (attnOf g.body) r x.ctx pl.wcet p.holder p.row0 p.rows p.ranges else s
            | none => s
          | none => s
      | _, _ => s

/-- Entries of a pane's body as triples (R104). -/
def paneTrips (a : AttnD) (rows : Nat) (b : List Byte) : List Trip :=
  let ob := if a.oBf16 then 2 else 4
  let w := a.hd * ob + 8
  (List.range (a.layers * rows * a.qheads)).map fun n =>
    let e := slice b (64 + n * w) w
    ⟨leAt e 0 4, leAt e 4 4, (List.range a.hd).map fun k =>
      if a.oBf16 then leAt e (8 + 2 * k) 2 * 2 ^ 16 else leAt e (8 + 4 * k) 4⟩

/-- A pane's message completes (R105, R110, R115). -/
def paneArrived (s : State) (n : Nat) (b : List Byte) : State :=
  match tget s.st.panes n with
  | none => bump s rTePaneEvtCnt 0 63 48 1
  | some p =>
    let seq := ((slotAt s p.step p.slot).map (·.seq)).getD 0
    if p.st ≠ 0 ∨ leAt b 0 4 ≠ seq ∨ leAt b 4 4 ≠ p.step ∨ leAt b 8 2 ≠ p.layer ∨ bits (w64At b 16) 35 16 ≠ p.holder then bump s rTePaneEvtCnt 0 63 48 1
    else
      let lat := Nat.min (s.now - p.issued) (2 ^ 32 - 1)
      let s := wf (wf s rTePaneLat 0 31 0 (Nat.max lat (rf s rTePaneLat 0 31 0))) rTePaneLat 0 63 32 lat
      if leAt b 16 2 ≠ sOk then paneMissing s n
      else match (stepOf s p.step).bind fun x => (tget s.st.plans x.plan).bind fun pl => pl.stages[p.stage]? with
        | some g => paneClose (modSt s fun t => { t with panes := tput t.panes n { p with st := 1, trips := paneTrips (attnOf g.body) p.rows b } }) p
        | none => s

/-- PANE_DEADLINE: the deadline of an outstanding pane has passed. -/
def paneDeadline (s : State) (n : Nat) : State :=
  match tget s.st.panes n with
  | some p => if p.st = 0 ∧ p.deadline ≤ s.now then paneMissing s n else s
  | none => s

/-- A holder is dead: its outstanding panes are missing at once when EARLY_DEGRADE_EN is 1 (R111). -/
def holderDead (s : State) (e : Nat) : State :=
  if rbit s rTeAttnCtrl 0 1 then (tkeys s.st.panes fun p => p.st == 0 && p.holder == e).foldl paneMissing s else s

/-! ### The merge -/

/-- The triples of one (layer, row, head) of a slot in merge order (R94): by the endpoint that produced each, substitutes in the
missing holder's place by rank. -/
def mergeList (s : State) (id i stage : Nat) (a : AttnD) (own : Trip) (l r j : Nat) : List Trip :=
  let here := (s.st.panes.filter fun kv => kv.2.step == id && kv.2.slot == i && kv.2.stage == stage && kv.2.st == 1 &&
    decide (kv.2.row0 ≤ r ∧ r < kv.2.row0 + kv.2.rows)).map (·.2)
  let ps : List (Nat × Trip) := here.map fun p =>
    ((if p.degraded then p.missing else p.holder) * 256 + p.rank,
     p.trips.getD ((l * p.rows + (r - p.row0)) * a.qheads + j) (trip0 a.hd))
  let me : Nat × Trip := (self s * 256, own)
  (sortBy (fun u v : Nat × Trip => decide (u.1 ≤ v.1)) (me :: ps)).map (·.2)

/-- Where the row statistics of (row, head) lie in a record (R41). -/
def statsAt (ref heads row j : Nat) : Nat := ref + 8 * (row * heads + j)

/-- The row-statistics record of a page with heads query heads: a new one in frames of its own when the page has none, two adjacent ones when
it takes more than 64 KiB (R39, R41, R99; DESIGN CHOICE, log entry 114). -/
def statsRef (s : State) (c q f heads : Nat) : Nat × State :=
  let t := trailer s f
  if t.statsRef ≠ 0 then (t.statsRef, s)
  else
    let put (n : Nat) (s : State) : Nat × State := (frameAddr n, setTrailer s f { t with statsRef := frameAddr n })
    if 8 * ptRows t.ptCode * heads ≤ frameBytes then
      match takeFrame s .system c .stats q with
      | (none, s) => (0, s)
      | (some n, s) => put n s
    else
      match pick s (fun n => isFree s n && isFree s (n + 1) && frameStack n == frameStack (n + 1)) 0 (numFrames - 1) with
      | (none, s) => (0, s)
      | (some n, s) => put n (takeAt (takeAt s n .system c .stats (statsPair n)) (n + 1) .system c .stats (statsPair n))

/-- The page of a sequence holding position pos of (layer, KV head), with its frame here. -/
def rowPage (s : State) (q layer kh pos : Nat) : Option (PageRef × Nat × Nat) :=
  (seqOf s q).bind fun y => (y.pages.find? fun p => p.layer == layer && p.hg == kh / y.geo.hpp &&
    decide (p.base ≤ pos ∧ pos < p.base + p.fill)).bind fun p => (localFrame s p.entry).map fun f => (p, y.geo.hpp, f)

/-- The first span of an attention output block of slot i of a stage (R476), and its bytes. -/
def outSpan (a : AttnD) (i : Nat) : Nat × Nat :=
  let n := a.layers * a.qrows * a.qheads * a.hd * elemBytes a.outFmt
  (a.outBase + i * n, n)

/-- Write the attention output of a slot (R95, R99): normalised rows, or +0 for a slot that has ended. What its roundings count is told of
the whole slot at once, as one merge tile's (R71, R85). -/
def attnOut (s : State) (id i stage te : Nat) (x : Step) (a : AttnD) (r : SlotRun) : State :=
  let ftz := bit x.numctl 0
  let ob := elemBytes a.outFmt
  let us := x.units.filter (·.slot == i)
  let g := a.qheads / a.kvHeads
  let put (y : Tally State) (l t j : Nat) (n : Tally (List Nat)) : Tally State :=
    let o := n.val.map fun c => convert a.outFmt (f32 c)
    ⟨unitWrite y.val x.ctx ((outSpan a i).1 + ((l * a.qrows + t) * a.qheads + j) * a.hd * ob) (o.flatMap fun c => toLE ob c.code),
     y.sats + n.sats + (o.filter (·.sat)).length, y.nan || n.nan || o.any (·.nan)⟩
  let keep (s : State) (at_ : Nat) (codes : List Nat) : State :=
    modSt (stackAccess s x.ctx at_ 8) fun y => { y with passes := tput y.passes (x.ctx * 2 ^ 44 + at_) codes }
  let rows := if r.run = 1 then r.rows else a.qrows
  let cells := (List.range a.layers).flatMap fun l => (List.range rows).flatMap fun t => (List.range a.qheads).map fun j => (l, t, j)
  let out := cells.foldl (fun (y : Tally State) c =>
    let (l, t, j) := c
    if r.run ≠ 1 then put y l t j ⟨List.replicate a.hd 0, 0, false⟩
    else
      let s := y.val
      let own := unitsTrip ftz a.hd us l t j
      let m := (mergeTrips ftz a.hd (mergeList s id i stage a own.val l t j)).plus own
      let n := (normTrip ftz m.val).plus m
      if !(a.stats || a.cont) then put y l t j n
      else match rowPage s r.seq (a.layer + l) (j / g) (r.kv + t) with
        | none => put y l t j n
        | some (p, hpp, f) =>
          let lse2 := lseTrip ftz m.val
          let n := n.plus lse2
          let (ref, s) := statsRef s x.ctx r.seq f (hpp * g)
          if ref = 0 then put { y with val := s } l t j n
          else
            let at_ := statsAt ref (hpp * g) (r.kv + t - p.base) (j % (hpp * g))
            if a.cont then
              let lse1 := rdNat s (at_ + 4) 4
              let o := continuePass ftz (tgetD s.st.passes (x.ctx * 2 ^ 44 + at_) []) lse1 n.val lse2.val
              let s := keep (wrMem s at_ (toLE 4 (fmax ftz (rdNat s at_ 4) m.val.m).code ++ toLE 4 o.val.2)) at_ o.val.1
              put { y with val := s } l t j ((⟨o.val.1, o.sats, o.nan⟩ : Tally (List Nat)).plus n)
            else put { y with val := keep (wrMem s at_ (toLE 4 m.val.m ++ toLE 4 lse2.val)) at_ n.val } l t j n) (⟨s, 0, false⟩ : Tally State)
  noteNums out.val x.ctx x.numctl te out.sats out.nan

/-- Panes of a stage of a step still outstanding, of slots that still run: a slot that is lost waits for none (R113). -/
def panesOut (s : State) (id stage : Nat) : Bool :=
  s.st.panes.any fun kv => kv.2.step == id && kv.2.stage == stage && kv.2.st == 0 && ((slotAt s id kv.2.slot).map (·.run)) == some 1

/-- The attention stage ends: outputs of every slot, the panes merged are counted (a running slot's, its own with them), all are dropped, and
the windows of those that never came are closed. -/
def attnEnd (s : State) (id stage te : Nat) (a : AttnD) : State :=
  match stepOf s id with
  | none => s
  | some x =>
    let mine := (s.st.panes.filter fun kv => kv.2.step == id && kv.2.stage == stage).map (·.2)
    let n := (mine.filter fun p => p.st == 1 && ((x.slots[p.slot]?).map (·.run)) == some 1).length + (x.slots.filter fun r => r.run == 1).length
    let s := (List.range x.slots.length).foldl (fun s i => match slotAt s id i with
      | some r => if r.run = 0 then s else attnOut s id i stage te x a r
      | none => s) s
    let s := (mine.filter fun p => p.st == 0).foldl paneClose s
    let s := bump s rTePaneMerged 0 47 0 n
    modSt s fun t => { t with panes := t.panes.filter fun kv => !(kv.2.step == id && kv.2.stage == stage), steps := tmod t.steps id fun y => { y with units := [] } }

end Sys2Proof.Machine
end

