-- ==== Sys2Proof/Machine/Stages.lean ====
section
/-! DEFINITION. The stages of a running step: the work each kind starts, what ends it, choosing and verification, and the deferral
of slots (R54, R79, R117–R134, R316–R323, R344–R350). -/
namespace Sys2Proof.Machine

/-- Nanoseconds of engine cycles at the rate point in force (R65). -/
def engineNs (s : State) (cycles : Nat) : Nat := if inSprint s then cdiv cycles 2 else cdiv (5 * cycles) 8

/-- Add work of a context (R317): one that had none in the class on the die takes at least the least virtual time there. -/
def addWork (s : State) (w : Work) : State :=
  let here := (s.mt.work.filter fun y => y.cls == w.cls && y.die == w.die).map (·.ctx)
  let vt (c : Nat) : Nat := tgetD s.mt.vt (vtKey w.cls w.die c) 0
  let s := match here with
    | [] => s
    | c :: cs =>
      if here.contains w.ctx then s
      else
        let least := cs.foldl (fun m d => Nat.min m (vt d)) (vt c)
        modMt s fun m => { m with vt := tput m.vt (vtKey w.cls w.die w.ctx) (Nat.max (vt w.ctx) least) }
  modMt s fun m => { m with work := m.work ++ [w] }

/-- Tile programs of an image for a range of layers. The manual gives programs no layout: R349's descriptors are taken, split
evenly among the layers; the first tile reads at IN_BASE and the last writes at OUT_BASE (assumption log). -/
def imageTiles (im : Image) (first count inB outB : Nat) : List TileD :=
  let n := im.program.length / 64
  let per := n / Nat.max im.layers 1
  let ts := (List.range (per * count)).map fun i => tileOf (slice im.program (64 * (per * first + i)) 64)
  (List.zip ts (List.range ts.length)).map fun x =>
    let d := if x.2 = 0 then { x.1 with a := inB } else x.1
    if x.2 + 1 = ts.length then { d with out := outB } else d

def stageImage (s : State) (g : Stage) : List TileD :=
  match tget s.st.images g.imageId with
  | some im => imageTiles im (leAt g.body 16 2) (leAt g.body 18 2) (bits (w64At g.body 0) 43 0) (bits (w64At g.body 8) 43 0)
  | none => []

/-- The tile a work item of a stage runs. The stage's SR flag marks all its tiles. -/
def stageTile (s : State) (g : Stage) (i : Nat) : Option TileD :=
  ((if g.kind = 1 then stageTiles g else stageImage s g)[i]?).map fun d => { d with sr := d.sr || g.sr }

/-- Engine and die of item i of a stage. -/
def stageTe (g : Stage) (i : Nat) : Nat := g.teFirst + i % Nat.max g.teCount 1

def addTiles (s : State) (id : Nat) (x : Step) (g : Stage) (ds : List TileD) : State :=
  (List.zip ds (List.range ds.length)).foldl (fun s y =>
    addWork s ⟨0, stageTe g y.2 / 32, x.ctx, id, x.stage, y.2, engineNs s (tileCycles y.1)⟩) s

/-- Running slots of a step, by number. -/
def runSlots (x : Step) : List (Nat × SlotRun) :=
  ((List.range x.slots.length).filterMap fun i => (x.slots[i]?).map fun r => (i, r)).filter fun y => y.2.run == 1

/-- Grammar state after tokens; a stop token moves it nowhere when its state has no transition. -/
def gramWalk (b : List Byte) (q : Nat) (ts : List Nat) : Nat := ts.foldl (fun q t => (gramNext b q t).getD q) q

/-- Cycles of one slot's choosing (R134): its positions, each with the grammar state that the drafts before it lead to. -/
def tuCycles (s : State) (p : Plan) (r : SlotRun) (ds : List Nat) : Nat :=
  let c := choiceOf r.rec_
  let gram (j : Nat) : Nat := if c.useGrammar then (match tget s.st.grammars (p.ctx * 64 + c.grammarId), seqOf s r.seq with
    | some g, some x => cdiv (bits (gramState g.table (gramWalk g.table x.choice.grammarState (ds.take j))) 54 32) 8 + cdiv p.vocab 512
    | _, _ => 0) else 0
  let pos (j : Nat) : Nat := cdiv p.vocab 64 + (if c.penWindow = 0 then 0 else cdiv c.penWindow 16) + gram j +
    (if isGreedy c then 64 else (if c.topK = 0 then 2 * cdiv p.vocab 64 + 256 else c.topK + 256) + 64)
  (List.range (1 + ds.length)).foldl (fun n j => n + pos j) 0 + 32 * ds.length

/-- Issue one access item (R350, R274): an owner without a valid lease issues no access to a region of that home; the item then
reports STALE_EPOCH. A buffer outside the context's memory, or in a reserved region, is a fault of the transfer engine (R25). -/
def accessItem (s : State) (id stage i c : Nat) (b : List Byte) : State :=
  let w0 := w64At b 0
  let kind := bits w0 3 0
  let size := bits w0 10 4
  let addr := w64At b 8
  let la := bits (w64At b 16) 43 0
  let epoch := leAt b 24 4
  let home := addr / 2 ^ 44
  let from_ : AccFrom := .item id stage i la
  match (match spanFault s c (kind != 0) la 56 with
    | some f => some f
    | none => if inAlloc s c la 56 then none else some (2, la)) with
  | some (code, at_) => match pick s (xeUsable s) 0 64 with
    | (some n, s) => ctxFault (unitFault s rXeFault rXeFaultAddr n code c at_) c code n 1 at_
    | (none, s) => ctxFault s c code 0 1 at_
  | none =>
  if (s.ce.regs.any fun kv => decide (kv.1 ≤ addr ∧ addr < kv.1 + 0x200000)) = true ∧ ownLease s home = false then
    touchSpan (wrMem s (la + 48) (toLE 8 (outcomeWord sStaleEpoch 0 (self s) false))) c (la + 48, 8)
  else
    let pay := if kind = 0 then [] else if kind = 1 then rdMem s la size else rdMem s la (if kind ≤ 3 then 8 else 16)
    issueAccess (touchSpan s c (la, pay.length)) from_ (Nat.min kind 2) (kind - 2) size addr c epoch pay

/-- Post a transfer item's work request on its queue pair; one of another context, or of none, posts nothing (log). -/
def transferItem (s : State) (c : Nat) (b : List Byte) : State :=
  let n := leAt b 0 2
  match qpOf s n with
  | none => s
  | some q =>
    if q.ctx ≠ c then s
    else
      let r : WrRun := ⟨workReqOf (b.drop 64), 0, [], 0, 0, 0, 0, false, 0⟩
      let wrs := q.wrs ++ [(q.wrNo, r)]
      let s := setQp s n { q with pi := (q.pi + 1) % 2 ^ 32, wrNo := q.wrNo + 1, wrs := wrs }
      if q.st = 3 then popDone s n (wrs.map fun kv => (kv.1, if kv.2.st = 2 then kv.2 else { kv.2 with st := 2, status := sFlushed })) else s

/-- An image stage switches its group when an engine of it last ran another image (R138): TU_SWITCH_LAT records how long that took, at most
20 µs, a free value. -/
def imageSwitch (s : State) (g : Stage) : State :=
  let es := (List.range g.teCount).map (g.teFirst + ·)
  let other := es.any fun e => match tget s.st.teImage e with | some i => i != g.imageId | none => false
  let s := modSt s fun y => { y with teImage := es.foldl (fun t e => tput t e g.imageId) y.teImage }
  if other = false then s
  else
    let (w, s) := fresh s
    let ns := w.toNat % 20001
    wf (wf s rTuSwitchLat 0 31 0 (Nat.max ns (rf s rTuSwitchLat 0 31 0))) rTuSwitchLat 0 63 32 ns

/-- The fault a slot's attention finds in its query block, its INT8 scales or its output block (R25, R88, R476): code and address. -/
def attnFault (s : State) (c i : Nat) (a : AttnD) : Option (Nat × Nat) :=
  [(true, qLayerAt a i 0, a.layers * qLayerBytes a), (true, a.int8Base, if a.fmt = 7 then 4 * a.layers * a.kvHeads else 0),
   (false, outSpan a i)].findSome? fun x => spanFault s c x.1 x.2.1 x.2.2

/-- Whether a CONTINUE pass of a slot finds a page of its rows with no statistics (R99). -/
def contMissing (s : State) (a : AttnD) (r : SlotRun) : Bool :=
  a.cont && (List.range a.layers).any fun l => (List.range r.rows).any fun t => (List.range a.kvHeads).any fun h =>
    match rowPage s r.seq (a.layer + l) h (r.kv + t) with
    | some (_, _, f) => (trailer s f).statsRef == 0
    | none => true

/-- Queue a slot's units of attention work. -/
def queueUnits (s : State) (id stage : Nat) (g : Stage) (a : AttnD) (decode : Bool) (ctx i : Nat) : State :=
  match stepOf s id, slotAt s id i with
  | some x, some r =>
    if r.run ≠ 1 then s
    else
      let us := slotUnits s decode i a r
      let n := x.units.length
      let s := modStep s id fun y => { y with units := y.units ++ us }
      (List.zip us (List.range us.length)).foldl (fun s u =>
        addWork s ⟨0, stageTe g (n + u.2) / 32, ctx, id, stage, n + u.2, engineNs s (tilesCycles (slotTiles s a r u.1))⟩) s
  | _, _ => s

/-- A slot's attention stage starts: its blocks are checked, its new rows written, its panes asked for and its units queued. -/
def attnBegin (s : State) (id i : Nat) (x : Step) (p : Plan) (g : Stage) (r : SlotRun) (remote : List PageCopy) : State :=
  let a := attnOf g.body
  match attnFault s x.ctx i a with
  | some (code, at_) => teFault s (stageTe g i) code x.ctx at_
  | none =>
    let s := modSlot (writeKv s id i a r remote) id i fun r => { r with readAt := s.now }
    if contMissing s a r then slotFail s id i sInvalidParam 0 0
    else queueUnits (askPanes s id i x.stage a r x.ctx p.wcet) id x.stage g a (p.kind == 1) x.ctx i

/-- A slot's choosing starts: its drafts, and its work (R129, R134). -/
def chooseBegin (s : State) (id i stage : Nat) (p : Plan) (r : SlotRun) (qs : List (List Cand)) : State :=
  let ds := (draftList (choiceOf r.rec_) r.length qs).take r.gate
  addWork (modSlot s id i fun r => { r with draft := ds }) ⟨2, i % 2, p.ctx, id, stage, i, engineNs s (tuCycles s p r (ds.map (·.1)))⟩

/-- Start the current stage of a step. -/
def stageBegin (s : State) (id : Nat) (arg : StageArg) : State :=
  match stepOf s id with
  | none => s
  | some x => match (tget s.st.plans x.plan).bind fun p => (p.stages[x.stage]?).map fun g => (p, g) with
    | none => s
    | some (p, g) => match g.kind with
      | 1 => addTiles s id x g (stageTiles g)
      | 2 =>
        (runSlots x).foldl (fun s y => attnBegin s id y.1 x p g y.2 (tgetD arg.remote y.1 [])) (modStep s id fun y => { y with units := [] })
      | 3 => addTiles (imageSwitch s g) id x g (stageImage s g)
      | 4 => (runSlots x).foldl (fun s y => chooseBegin s id y.1 x.stage p y.2 (tgetD arg.drafts y.1 [])) s
      | 5 => (List.zip (stageItems g 32) (List.range g.items)).foldl (fun s y => accessItem s id x.stage y.2 x.ctx y.1) s
      | 6 => (stageItems g 128).foldl (fun s b => transferItem s x.ctx b) s
      | _ => s

/-! ### Choosing (R117–R133) -/

/-- Read an allow-list (R123). -/
def allowIds (s : State) (c : ChoiceRec) (v : Nat) : List Nat :=
  let a := c.maskAddr + (if c.hostMask then 4 * cdiv v 32 else 0)
  (List.range c.allowCount).map fun i => rdNat s (a + 4 * i) 4

/-- Choose and verify for one slot: its tokens go to the token log, its KV is committed, its choice state moves on. A slot with a
bad allow-list changes no state of its sequence (R124, R352). -/
def chooseSlot (s : State) (id i : Nat) (x : Step) (p : Plan) (r : SlotRun) : State :=
  match seqOf s r.seq with
  | none => s
  | some y =>
    let c := choiceOf r.rec_
    let v := p.vocab
    match (if c.allowList then badAllow v (allowIds s c v) 0 0 else none) with
    | some k => updSeq (slotFail (bump s rTuEvtCnt 0 47 32 1) id i sInvalidParam 0x28 k) r.seq fun z => { z with choice := r.choice }
    | none =>
      let eb := elemBytes p.logitFmt
      let ds := r.draft
      let table := (tget s.st.grammars (p.ctx * 64 + c.grammarId)).map (·.table)
      let codes (j : Nat) : List Nat :=
        let b := p.logitBase + i * p.logitBytes + j * v * eb
        (List.range v).map fun t => rdNat s (b + t * eb) eb
      let before (j : Nat) : List Nat := (ds.map (·.1)).take j
      let mask (j : Nat) : Masks :=
        ⟨if c.hostMask then some (rdMem s c.maskAddr (cdiv v 8)) else none, if c.allowList then some (allowIds s c v) else none,
         if c.useGrammar then table.map fun b => (b, gramWalk b y.choice.grammarState (before j)) else none⟩
      let pos (j : Nat) : Widened := masked c p.logitFmt (codes j) y.log (before j) (mask j) p.stops
      let res := verify (bit x.numctl 0) c (fun j => (pos j).cands) ds 0 r.length
      let room := maxLength - r.length
      let toks := (cutAtStop p.stops res.tokens).take room
      let a := Nat.min res.accepted toks.length
      let seen := (List.range (Nat.min (ds.length + 1) (toks.length + b2n res.empty))).map pos
      let nan := (seen.filter (·.nan)).length
      let sats := seen.foldl (fun n w => n + w.sats) 0
      let stop := (toks.getLast?.map p.stops.contains).getD false
      let ended : Option Nat := if stop then some sOk
        else if r.length + toks.length ≥ maxLength then some sLengthLimit
        else if res.empty ∧ toks.length = res.tokens.length then some sMaskEmpty else none
      let s := if nan = 0 then s else wf (bump s rTuEvtCnt 0 31 16 nan) rTeNumstat x.ctx 0 0 1
      let s := if sats = 0 then s else wf (bump s rTeSatcnt x.ctx 47 0 sats) rTeNumstat x.ctx 1 1 1
      let s := if ds.isEmpty then s
        else bump (bump s rTuSpecCnt 0 31 0 (Nat.min ds.length (res.accepted + 1))) rTuSpecCnt 0 63 32 a
      let s := meter s rTuPosCnt r.tu 0 seen.length
      let s := touchSpan s x.ctx (p.logitBase + i * p.logitBytes, seen.length * v * eb)
      let s := if c.hostMask then touchSpan s x.ctx (c.maskAddr, cdiv v 8) else s
      let ad := if p.kind = 1 then adapt ⟨y.choice.draftLen, y.choice.reject, y.choice.accept, y.choice.probe⟩ ds.length a c.draftMax
        else ⟨y.choice.draftLen, y.choice.reject, y.choice.accept, y.choice.probe⟩
      let gs := if c.useGrammar then (match table with
          | some b => gramWalk b y.choice.grammarState toks
          | none => y.choice.grammarState) else y.choice.grammarState
      let s := updSeq s r.seq fun z => { z with choice := { z.choice with
        grammarState := gs, draftLen := ad.draftLen, reject := ad.reject, accept := ad.accept, probe := ad.probe } }
      let s := modSlot s id i fun r => { r with
        tokens := toks, accepted := a, ended := ended.isSome, endStatus := ended.getD 0 }
      let s := if p.kind = 1 then commitTo s r.seq (r.kv + Nat.min (1 + a) r.rows) else s
      if toks.isEmpty then s else logWrite s r.seq toks none (some (id, i))

/-! ### The end of a stage (R322, R323) -/

/-- Whether nothing of the current stage of a step is left to run or to arrive. A WAIT stage ends by its own row. -/
def stageIdle (s : State) (id : Nat) (x : Step) (g : Stage) : Bool :=
  g.kind != 7 && !(s.mt.work.any fun w => w.step == id && w.stage == x.stage) && !panesOut s id x.stage &&
  !(s.fab.accs.any fun kv => (kv.2.out ++ kv.2.wait).any fun a => match a.from_ with | .item st sg _ _ => st == id && sg == x.stage | _ => false) &&
  !(s.fab.lines.any fun kv => kv.2.wait.any fun a => match a.from_ with | .item st sg _ _ => st == id && sg == x.stage | _ => false)

/-- Stop the slots of a step that were deferred. -/
def stopDeferred (s : State) (id : Nat) : State :=
  match stepOf s id with
  | none => s
  | some x => (runSlots x).foldl (fun s y =>
      if y.2.deferred ∧ y.2.tokens.isEmpty then bump (slotFail s id y.1 sSlotDeferred 0 0) rMtStepCnt x.ctx 63 48 1 else s) s

/-- Slots a step may still defer: DEFERRABLE, running, without a token in its log. -/
def deferrable (x : Step) : List (Nat × SlotRun) :=
  (runSlots x).filter fun y => y.2.deferrable && !y.2.deferred && y.2.tokens.isEmpty && !y.2.logged

def markDeferred (s : State) (id i : Nat) : State := modSlot s id i fun r => { r with deferred := true }

/-- Judge a step at a stage boundary (R322), and defer slots for one at risk (R323): those of the running steps of lower
priority, then one slot of its own, the latest admitted. -/
def riskJudge (s : State) (id : Nat) (x : Step) (p : Plan) (g : Stage) : State :=
  let risk := decide (s.now - x.startAt > g.cumWcet + rf s rMtDefer 0 31 1)
  let s := modStep s id fun y => { y with atRisk := risk }
  if !risk || !rbit s rMtDefer 0 0 then s
  else
    let prio (y : Step) : Nat := ((tget s.st.plans y.plan).map (·.priority)).getD 0
    let low := s.st.steps.filter fun kv => kv.2.running && decide (p.priority < prio kv.2) && !(deferrable kv.2).isEmpty
    if !low.isEmpty then
      (sortBy (fun a b : Nat × Step => decide (prio b.2 ≤ prio a.2)) low).foldl (fun s kv =>
        (deferrable kv.2).foldl (fun s y => markDeferred s kv.1 y.1) s) s
    else
      let adm (y : Nat × SlotRun) : Nat := ((seqOf s y.2.seq).map (·.admitNo)).getD 0
      match sortBy (fun a b : Nat × SlotRun => decide (adm b ≤ adm a)) (((stepOf s id).map deferrable).getD []) with
      | y :: _ => markDeferred s id y.1
      | [] => s

/-- All stages of a step are over: rows of a prefill or model step are committed, of a decode step that chose nothing the
input row; a PROMPT controller forms stripes of what sealed (R54, R289). -/
def stagesOver (s : State) (id : Nat) (p : Plan) : State :=
  match stepOf s id with
  | none => s
  | some x => (runSlots x).foldl (fun s y =>
      let choose := p.stages.any (·.kind == 4)
      let s := if p.kind ≠ 1 then commitTo s y.2.seq (y.2.kv + y.2.rows) else if choose then s else commitTo s y.2.seq (y.2.kv + Nat.min 1 y.2.rows)
      if role s = 0 then stripeForm s y.2.seq false else s) s

/-- Go on with a step after its current stage. A step whose running slots are all deferred has no stage left. -/
def stageNext (s : State) (id : Nat) (p : Plan) (arg : StageArg) : State :=
  match stepOf s id with
  | none => s
  | some x =>
    let all := (runSlots x).isEmpty && x.slots.any fun r => r.status == sSlotDeferred
    let n := if all then p.stages.length else x.stage + 1
    let s := modStep s id fun y => { y with stage := n }
    if n < p.stages.length then stageBegin s id arg else stagesOver s id p

/-- STAGE_BOUNDARY: the current stage of a running step ends and the next one starts. -/
def stageBoundary (s : State) (id : Nat) (arg : StageArg) : State :=
  match stepOf s id with
  | none => s
  | some x => match (tget s.st.plans x.plan).bind fun p => (p.stages[x.stage]?).map fun g => (p, g) with
    | none => s
    | some (p, g) =>
      if x.running = false ∨ stageIdle s id x g = false then s
      else
        let s := stopDeferred s id
        let s := match g.kind with
          | 2 => attnEnd s id x.stage g.teFirst (attnOf g.body)
          | 4 => (((stepOf s id).map runSlots).getD []).foldl (fun s y => chooseSlot s id y.1 x p y.2) s
          | _ => s
        stageNext (riskJudge s id x p g) id p arg

/-- WAIT_STAGE_RELEASE: a WAIT stage ends once its counter has advanced by WAIT_DELTA since dispatch (R348). -/
def waitRelease (s : State) (id : Nat) (arg : StageArg) : State :=
  match stepOf s id with
  | none => s
  | some x => match (tget s.st.plans x.plan).bind fun p => (p.stages[x.stage]?).map fun g => (p, g) with
    | none => s
    | some (p, g) =>
      let adv := sub32 (rf s rXeArmCtr (x.ctx * 16 + g.waitCtr) 31 0) (x.ctrs.getD g.waitCtr 0)
      if x.running = false ∨ g.kind ≠ 7 ∨ adv < g.waitDelta then s
      else stageNext (riskJudge (stopDeferred s id) id x p g) id p arg

/-- STEP_DISPATCH: a queued step starts (R344). -/
def stepDispatch (s : State) (id : Nat) (arg : StageArg) : State :=
  match stepOf s id with
  | none => s
  | some x => match tget s.st.plans x.plan with
    | none => s
    | some p => if mayDispatch s x then stageBegin (stepStart s id x p) id arg else s

/-- STEP_BUDGET_EXPIRY: a step that has not replied by the end of its budget (R321). -/
def budgetExpiry (s : State) (id : Nat) : State :=
  match stepOf s id with
  | none => s
  | some x => match tget s.st.plans x.plan with
    | none => s
    | some p =>
      if x.running = false ∨ x.overrun = true ∨ s.now < x.startAt + p.wcet then s
      else
        let s := bump (modStep s id fun y => { y with overrun := true }) rMtStepCnt x.ctx 47 32 1
        raiseCtx s x.ctx evStepOverrun 0 x.plan (s.now - x.startAt)

end Sys2Proof.Machine
end

