-- ==== Sys2Proof/Machine/PaneJobs.lean ====
section
/-! DEFINITION. A holder's pane work: the fields of a request, the pages it names here, and the units of its computation (R100–R107). -/
namespace Sys2Proof.Machine

/-- Fields of a PANE_REQUEST (R100). -/
structure PaneReq where
  seq : Nat
  layer : Nat
  layers : Nat
  rows : Nat
  oBf16 : Bool
  qheads : Nat
  hd : Nat
  qfmt : Nat
  ranges : List (Nat × Nat × Nat)
  degraded : Bool
  requester : Nat
  ctx : Nat
  rank : Nat
  count : Nat
  scale : Nat
  deadline : Nat
  dest : Nat
  key : Nat
  rsvd : Bool
deriving DecidableEq, Repr

def paneReqOf (b : List Byte) : PaneReq :=
  let w1 := w64At b 8
  let w2 := w64At b 16
  let n := bits w1 57 54
  let e (i : Nat) : Nat := 0x40 + 16 * i
  ⟨leAt b 0 4, bits w1 15 0, bits w1 20 16, bits w1 30 24, bit w1 31, bits w1 40 32, bits w1 49 41, bits w1 53 50,
   (List.range n).map fun i => (leAt b (e i) 4, leAt b (e i + 4) 4, leAt b (e i + 8) 4), bit w1 58,
   bits w2 19 0, bits w2 27 20, bits w2 55 48, bits w2 63 56, leAt b 0x18 4, w64At b 0x20, w64At b 0x28, leAt b 0x30 4,
   decide (bits w1 23 21 ≠ 0 ∨ bits w1 63 59 ≠ 0 ∨ leAt b 0x1C 4 ≠ 0 ∨ leAt b 0x34 4 ≠ 0 ∨ w64At b 0x38 ≠ 0) ||
     (List.range n).any fun i => leAt b (e i + 12) 4 != 0⟩

/-- Check 1 of R101: fields, ranges, group ratio. -/
def paneFormOk (p : PaneReq) (kvHeads : Nat) : Bool :=
  let rs := p.ranges
  !p.rsvd && decide (1 ≤ p.layers ∧ p.layers ≤ 16 ∧ 1 ≤ p.rows ∧ p.rows ≤ 64 ∧ 1 ≤ p.qheads ∧ p.qheads ≤ 256 ∧ 16 ≤ p.hd ∧ p.hd ≤ 256 ∧
    1 ≤ rs.length ∧ rs.length ≤ 8 ∧ 1 ≤ p.ctx) &&
  (if p.degraded then decide (1 ≤ p.count ∧ p.count ≤ 15 ∧ p.rank < p.count) && rs.all (fun r => r.2.2 == 0) else p.count == 0) &&
  rs.all (fun r => decide (r.1 < r.2.1 ∧ r.2.1 ≤ 4194304)) && (List.zip rs (rs.drop 1)).all (fun x => decide (x.1.2.1 ≤ x.2.1)) &&
  decide (kvHeads ≠ 0 ∧ p.qheads % kvHeads = 0 ∧ 1 ≤ p.qheads / kvHeads ∧ p.qheads / kvHeads ≤ 16)

/-- Pages of a sequence held here that panes cover (R102, R103): those of the holding index, and the sealed pages this controller keeps of a
sequence it owns. -/
def heldPages (s : State) (q : Nat) : List Holding :=
  let ix := s.pg.index.filter fun h => h.seq == q && !h.parity
  match seqOf s q with
  | none => ix
  | some x => ix ++ (x.pages.filter fun p => !p.opened && heldHere s p && !(ix.any fun h => h.entry == p.entry)).map fun p =>
      ⟨q, p.layer, p.hg, p.entry, p.base, p.fill, false, 0, 0, self s, x.ctx, 0⟩

/-- Pages of a request's sequence and layers in its ranges, by TOKEN_BASE (R102, R103). -/
def panePages (s : State) (p : PaneReq) : List Holding :=
  (heldPages s p.seq).filter fun h => decide (p.layer ≤ h.layer ∧ h.layer < p.layer + p.layers) &&
    p.ranges.any fun r => decide (r.1 ≤ h.base ∧ h.base < r.2.1)

/-- Whether a range holds the pages its EXPECTED_PAGES names in every layer. -/
def expectedOk (p : PaneReq) (ps : List Holding) : Bool :=
  p.ranges.all fun r => r.2.2 == 0 || (List.range p.layers).all fun l =>
    (ps.filter fun h => h.layer == p.layer + l && decide (r.1 ≤ h.base ∧ h.base < r.2.1)).length == r.2.2

def paneCopy (copies : List PageCopy) (h : Holding) : Option PageCopy :=
  copies.find? fun c => c.trailer.layer == h.layer && c.trailer.hg == h.hg && c.trailer.tokenBase == h.base

/-- Whether a page of a request is in a slot that cannot be read and comes from no reconstruction. -/
def holdDown (s : State) (copies : List PageCopy) (h : Holding) : Bool :=
  (match localSlot s h.entry with | some n => slotDown s n | none => false) && (paneCopy copies h).isNone

/-- Pages of a job as attention reads them: those resolved, or for a substitute the missing holder's, which it reconstructed, of the stripes
that are its share (R112). -/
def jobPages (s : State) (j : PaneJob) (g : Geometry) : List KvPage :=
  let p := paneReqOf j.req
  if p.degraded then j.copies.filterMap fun c =>
    if !c.parity && c.stripe % Nat.max p.count 1 == p.rank &&
        decide (p.layer ≤ c.trailer.layer ∧ c.trailer.layer < p.layer + p.layers) &&
        p.ranges.any (fun r => decide (r.1 ≤ c.trailer.tokenBase ∧ c.trailer.tokenBase < r.2.1)) then
      some ⟨c.trailer.layer, c.trailer.hg, c.trailer.tokenBase, c.trailer.fill, g, 0, some c.bytes⟩
    else none
  else j.pages.filterMap fun h => match paneCopy j.copies h, localFrame s h.entry, localSlot s h.entry with
    | some c, _, _ => some ⟨h.layer, h.hg, h.base, h.fill, g, 0, some c.bytes⟩
    | none, some f, _ => some ⟨h.layer, h.hg, h.base, h.fill, g, frameAddr f, none⟩
    | none, none, some n => some ⟨h.layer, h.hg, h.base, h.fill, g, slotAddr n, none⟩
    | none, none, none => none

/-- Geometry of a job: that of its pages' trailers. -/
def jobGeo (s : State) (j : PaneJob) : Geometry :=
  match j.copies.head?, j.pages.head? with
  | some c, _ => trailerGeo c.trailer
  | none, some h => match localFrame s h.entry, localSlot s h.entry with
    | some f, _ => trailerGeo (trailer s f)
    | none, some n => (slot s n).elim (trailerGeo noTrailer) fun t => trailerGeo t.trailer
    | none, none => trailerGeo noTrailer
  | none, none => trailerGeo noTrailer

/-- Query heads a KV head of a job, and query heads a page. -/
def jobRatio (j : PaneJob) : Nat := Nat.max 1 ((paneReqOf j.req).qheads / Nat.max 1 j.kvHeads)

/-- A job's units (R106, R107): its pages by the division the request's sequence has here, which no field of the request names (log entry 14). -/
def jobUnits (s : State) (j : PaneJob) : List AttnUnit :=
  let p := paneReqOf j.req
  let ps := jobPages s j (jobGeo s j)
  attnUnits 0 p.layers [(0, p.rows)] j.split p.qheads j.kvHeads (jobGeo s j).hpp
    (if p.degraded then ps.map (·.base) else (heldPages s p.seq).map (·.base)) (ps.map fun x => (x.layer - p.layer, x.hg, x.base))

/-- Pages a job's unit reads. -/
def jobReads (s : State) (j : PaneJob) (u : AttnUnit) : List KvPage :=
  (jobPages s j (jobGeo s j)).filter fun x => u.reads (paneReqOf j.req).layer (x.geo.hpp * jobRatio j) none x.layer x.hg x.base

/-- ATTN_BLOCK tiles of a job's unit, in cycles. No field of the request shapes them: the largest that R66 allows (log entry 115). -/
def jobTiles (s : State) (j : PaneJob) (u : AttnUnit) : List Nat :=
  unitTiles (kvElems (jobGeo s j)) (eA (jobGeo s j).format) (jobReads s j u).length u.rows 0 0

/-- Engine n runs unit k of job id (R103): its triples join the job. -/
def jobRun (s : State) (n id k : Nat) : State :=
  match s.st.jobs.find? fun j => j.id == id with
  | none => s
  | some j => match j.units[k]? with
    | none => s
    | some u =>
      let p := paneReqOf j.req
      let eb := elemBytes p.qfmt
      let q0 := 0x40 + 16 * p.ranges.length
      let g := jobGeo s j
      let t := u.run s (rbit s rTeNumctl p.ctx 0) (jobReads s j u) (jobRatio j)
        (fun r h => rowValues p.qfmt (slice j.req (q0 + ((u.layer * p.rows + r) * p.qheads + h) * p.hd * eb) (p.hd * eb)) [] p.hd)
        (fun _ => none) p.scale (fun kh => if g.format = 7 then some (f32 (j.scales.getD (u.layer * j.kvHeads + kh) 0)) else none) p.hd
      let s := modSt s fun y => { y with jobs := y.jobs.map fun x =>
        if x.id = id then { x with units := x.units.set k { u with trips := t.val } } else x }
      let s := meter s rTeTileCnt n 0 (jobTiles s j u).length
      noteNums s p.ctx (rdReg s rTeNumctl p.ctx 0).toNat n t.sats t.nan

end Sys2Proof.Machine
end

