-- ==== Sys2Proof/Machine/Units.lean ====
section
/-! DEFINITION. Units at work: which context a free unit takes, its quantum, meters, parity and faults (R25, R26, R85–R88, R145, R266,
R317–R320, R330, R331). Unit classes here: 0 TE, 1 XE, 2 TU, 3 CU. -/
namespace Sys2Proof.Machine

def ctrlReg (cls : Nat) : RegDesc := if cls = 0 then rTeCtrl else if cls = 1 then rXeCtrl else if cls = 2 then rTuCtrl else rCuCtrl
def statusReg (cls : Nat) : RegDesc := if cls = 0 then rTeStatus else if cls = 1 then rXeStatus else if cls = 2 then rTuStatus else rCuStatus
def contextReg (cls : Nat) : RegDesc := if cls = 0 then rTeContext else if cls = 1 then rXeContext else if cls = 2 then rTuContext else rCuContext
def faultReg (cls : Nat) : RegDesc := if cls = 0 then rTeFault else if cls = 1 then rXeFault else if cls = 2 then rTuFault else rCuFault
def faultAddrReg (cls : Nat) : RegDesc :=
  if cls = 0 then rTeFaultAddr else if cls = 1 then rXeFaultAddr else if cls = 2 then rTuFaultAddr else rCuFaultAddr
def busyReg (cls : Nat) : RegDesc := if cls = 0 then rTeBusyNs else if cls = 1 then rXeBusyNs else if cls = 2 then rTuBusyNs else rCuBusyNs
def nsReg (cls : Nat) : RegDesc := if cls = 0 then rMtTeNs else if cls = 1 then rMtXeNs else if cls = 2 then rMtTuNs else rMtCuNs

/-- Class codes of the ID registers (R88, R335). -/
def classCode (cls : Nat) : Nat := if cls = 0 then 2 else if cls = 1 then 1 else cls + 1

/-- Die of a unit: SE 0 and 1, MH 2 to 7. -/
def dieOf (cls n : Nat) : Nat := if cls = 3 then 2 + n / 4 else unitDie cls n

/-- HL index of a die (R303). -/
def dieHealth (die : Nat) : Nat := 48 + die

/-- Whether a unit takes new work: enabled and not offline. -/
def unitServes (s : State) (cls n : Nat) : Bool :=
  decide (n < unitCount cls) && rbit s (ctrlReg cls) n 0 && !rbit s (statusReg cls) n 3

/-- Time of a context on a unit: meters of the unit, of the context and of its composition (R317, R330, R331). -/
def chargeUnit (s : State) (cls n c ns : Nat) : State :=
  let s := meter (meter s (busyReg cls) n 0 ns) (nsReg cls) c 0 ns
  let s := wf (wf s (contextReg cls) n 7 0 c) (contextReg cls) n 8 8 1
  let tag := rf s rMtCtx c 55 32
  let k := vtKey cls (dieOf cls n) c
  let w := if c = 0 then 4096 else weight s cls c
  let s := modMt s fun m => { m with vt := tput m.vt k (tgetD m.vt k 0 + ns * 65536 / Nat.max w 1) }
  if rf s rGlMeterMode 0 0 0 = 0 then s
  else modMt s fun m =>
    let x := tgetD m.comps tag ⟨0, 0⟩
    { m with comps := tput m.comps tag { x with engineNs := (x.engineNs + ns) % 2 ^ 64 } }

/-- The queue pairs of a transfer engine that is disabled or offline move to another of its die (R260, R266). -/
def moveQps (s : State) (x : Nat) : State :=
  (tkeys s.fab.qps fun q => q.xe == x).foldl (fun s n =>
    match chooseXe s (x / 32) with
    | (some y, s) => updQp s n fun q => { q with xe := y }
    | (none, s) => s) s

/-- A unit goes out of service after a parity error that its re-run did not clear (R87, R145, R266). -/
def unitOffline (s : State) (cls n c : Nat) : State :=
  let d := dieHealth (dieOf cls n)
  let s := unitFault (wf s (statusReg cls) n 3 3 1) (faultReg cls) (faultAddrReg cls) n 5 c 0
  let s := if cls = 0 then bump s rTeParity n 31 16 1 else s
  let s := penalise_ s d 8192
  let s := raiseDev s evPredictive 0 d (healthOf s d + rf s rHlScore d 17 16 * 2 ^ 16 + n * 2 ^ 32)
  if cls = 1 then moveQps s n else s

/-- A parity error and its re-run. -/
def parityRetry (s : State) (cls n : Nat) : State :=
  let s := if cls = 0 then bump s rTeParity n 15 0 1 else s
  penalise_ s (dieHealth (dieOf cls n)) 256

/-- Where engine n's accumulators lie in a context's save area (R86, R312), after the 416 KiB of the other units (DESIGN CHOICE, log entry 116). -/
def accPlace (s : State) (c n : Nat) : Nat := rf s rMtSave c 43 0 + (416 + n * rf s rMtAlloc c 52 44) * 1024

/-- Save the accumulators live on engine n to its context's area (R86). -/
def accSave (s : State) (n c : Nat) : State :=
  match tget s.mt.teLive n with
  | none => s
  | some l =>
    let s := wrMem s (accPlace s c n) (((tgetD s.st.accs l.step []).flatMap (toLE 4)).take (l.kib * 1024))
    modMt s fun m => { m with teLive := tdel m.teLive n, teSaved := tput m.teSaved (c * 64 + n) l }

/-- Restore a context's accumulators to engine n from its area (R86). -/
def accRestore (s : State) (n c : Nat) : State :=
  match tget s.mt.teSaved (c * 64 + n) with
  | none => s
  | some l =>
    let old := tgetD s.st.accs l.step []
    let k := Nat.min old.length (l.kib * 256)
    let new := (List.range k).map (fun i => rdNat s (accPlace s c n + 4 * i) 4) ++ old.drop k
    modMt (modSt s fun y => { y with accs := tput y.accs l.step new }) fun m => { m with
      teSaved := tdel m.teSaved (c * 64 + n), teLive := tput m.teLive n l }

/-- After a tile of a step on engine n: a GEMM's accumulators live there and nowhere else, as many KiB as the tile's plan declares. -/
def accNote (s : State) (n id : Nat) (d : TileD) : State :=
  if d.op = 1 then modMt s fun m =>
    let live := m.teLive.filter fun kv => kv.2.step != id
    { m with teSaved := m.teSaved.filter (fun kv => kv.2.step != id), teLive := if d.accKib = 0 then tdel live n else tput live n ⟨id, d.accKib⟩ }
  else modMt s fun m => { m with teLive := match tget m.teLive n with
    | some l => if l.step ≠ id then m.teLive else if d.accKib = 0 then tdel m.teLive n else tput m.teLive n ⟨id, d.accKib⟩
    | none => m.teLive }

/-- A step's accumulators end with it. -/
def accForget (s : State) (id : Nat) : State :=
  modMt (modSt s fun y => { y with accs := tdel y.accs id }) fun m => { m with
    teLive := m.teLive.filter (fun kv => kv.2.step != id), teSaved := m.teSaved.filter fun kv => kv.2.step != id }

/-- Cycles in which a tile engine saves or restores accumulators: 512 B a cycle (R86). -/
def accCycles (l : Option LiveAcc) : Nat := l.elim 0 fun l => 2 * l.kib

/-- Time of a context switch on a unit: save of what the outgoing context has there, and restore (R86, R320). -/
def switchNs (s : State) (cls n c : Nat) : Nat :=
  let w := rdReg s (contextReg cls) n 0
  let other := wbit w 8 && fld w 7 0 != c
  if cls = 0 then engineNs s ((if other then accCycles (tget s.mt.teLive n) else 0) + accCycles (tget s.mt.teSaved (c * 64 + n)))
  else if other = false then 0
  else if cls = 3 then 16 else engineNs s 16

/-- Accumulators at a tile boundary, where engine n goes to work of context c (R86). -/
def teSwitch (s : State) (n c : Nat) : State :=
  let w := rdReg s rTeContext n 0
  accRestore (if wbit w 8 && fld w 7 0 != c then accSave s n (fld w 7 0) else s) n c

/-- Mark of pane work in the queue of a class: its step is the pane job's number. -/
def paneMark : Nat := 65536

/-- Whether work can run: attention over a page in a tier-2 slot waits until the slot can be read, or the page is reconstructed (R162, R163,
R165). -/
def workReady (s : State) (copies : List PageCopy) (w : Work) : Bool :=
  if w.stage = paneMark then
    match s.st.jobs.find? fun j => j.id == w.step with
    | some j => !(j.pages.any (holdDown s j.copies))
    | none => true
  else match stepOf s w.step with
    | some x => match (tget s.st.plans x.plan).bind (fun p => p.stages[w.stage]?), x.units[w.item]? with
      | some g, some u => g.kind != 2 || (match slotAt s w.step u.slot with
        | some r => r.run != 1 || !((slotRefs s (attnOf g.body) r u).any fun p =>
            (match localSlot s p.entry with | some n => slotDown s n | none => false) && (copyAt copies p).isNone)
        | none => true)
      | _, _ => true
    | none => true

/-- The context a unit takes (R317): least virtual time among those with work for the class on the die that can run, the lower number on a
tie. -/
def pickCtx (s : State) (cls die : Nat) (copies : List PageCopy) : Option Nat :=
  let cs := ((s.mt.work.filter fun w => w.cls == cls && w.die == die && workReady s copies w).map (·.ctx)).eraseDups
  let vt (c : Nat) : Nat := tgetD s.mt.vt (vtKey cls die c) 0
  (sortBy (fun a b : Nat => decide (vt a < vt b) || (vt a == vt b && decide (a ≤ b))) cs).head?

/-- Deadline of a pane job (R100). -/
def jobDeadline (s : State) (id : Nat) : Nat :=
  match s.st.jobs.find? fun j => j.id == id with
  | some j => w64At j.req 0x20
  | none => 0

/-- The work a context has next in a class on a die: in order, pane work by earliest DEADLINE (R103). -/
def pickWork (s : State) (cls die c : Nat) (copies : List PageCopy) : Option Work :=
  let ws := s.mt.work.filter fun w => w.cls == cls && w.die == die && w.ctx == c && workReady s copies w
  match ws with
  | [] => none
  | w :: _ =>
    if w.stage ≠ paneMark then some w
    else (sortBy (fun a b : Work => decide (jobDeadline s a.step ≤ jobDeadline s b.step)) (ws.filter fun w => w.stage == paneMark)).head?

/-- A PAYLOAD_CRC failure on the read path is counted at the frame's codec unit (R145). -/
def crcNote (s : State) (f : Nat) : State := if (trailerFaults s f).contains 1 then bump s rCuCheckCnt (frameStack f) 31 0 1 else s

/-- A codec unit reads a page of its stack for attention: bytes in the storage format, and what it finds wrong (R109, R145). -/
def cuPage (s : State) (c f : Nat) (g : Geometry) : State :=
  let s := meter s rCuBytes (frameStack f) 0 (usedBytes g)
  stackAccess (notePoison (crcNote s f) f) c (frameAddr f) (usedBytes g)

/-- A page of n bytes reconstructed for a reader is counted (R292), and at a codec unit (R145): that of its frame's stack, else one that the manual
leaves open (log entry 5). -/
def cuRebuilt (s : State) (f : Option Nat) (n : Nat) : State :=
  let s := bump s rLtDegradedCnt 0 31 0 1
  let count (s : State) (u : Nat) : State := meter (bump s rCuCheckCnt u 63 32 1) rCuBytes u 0 n
  match f with
  | some f => count s (frameStack f)
  | none => match pick s (unitServes s 3) 0 24 with
    | (some u, s) => count s u
    | (none, s) => s

/-- One tile of a stage. -/
def tileRun (s : State) (n : Nat) (x : Step) (id : Nat) (p : Plan) (g : Stage) (i : Nat) : State :=
  match stageTile s g i with
  | none => s
  | some d => match tileFault s x.ctx d with
    | some (code, addr) => teFault s n code x.ctx addr
    | none =>
      let tensor := (p.stages.take x.stage).foldl (fun k h => if h.kind = 1 then k + h.items else k) 0 + i
      let r := runTile s x.ctx id x.numctl x.srseed tensor id d
      let s := accNote ((tileReads d).foldl (fun s y => touchSpan s x.ctx y) r.st) n id d
      noteNums (meter s rTeTileCnt n 0 1) x.ctx x.numctl n r.sats r.nan

/-- A unit of a slot's own attention: its triples join the step. A page that cannot be read or reconstructed loses the slot as a missing
pane does. -/
def attnRun (s : State) (n : Nat) (x : Step) (id : Nat) (g : Stage) (k : Nat) (copies : List PageCopy) : State :=
  match x.units[k]? with
  | none => s
  | some u => match slotAt s id u.slot with
    | none => s
    | some r => match seqOf s r.seq with
      | none => s
      | some y =>
        if r.run ≠ 1 then s
        else
          let a := attnOf g.body
          let ratio := a.qheads / Nat.max 1 a.kvHeads
          let mine := slotRefs s a r u
          let qb := a.hd * elemBytes a.qfmt
          let s := touchSpan s x.ctx (qLayerAt a u.slot u.layer + (u.row0 * a.qheads + u.head0) * qb, u.rows * u.heads * qb)
          let t := u.run s (bit x.numctl 0) (mine.filterMap (kvPage s y r.kv copies)) ratio (queryRow s a u.slot u.layer)
            (fun t => some (r.kv + t)) a.scale (int8Scale s a u.layer) a.hd
          let s := mine.foldl (fun s p =>
            let s := match localFrame s p.entry, localSlot s p.entry with
              | some f, _ => cuPage s x.ctx f y.geo
              | none, some m => match slot s m with
                | some t => (slotFaults s m t.trailer).foldl pgErr s
                | none => s
              | none, none => s
            if needsCopy s p.entry ∧ (copyAt copies p).isSome = true then cuRebuilt s (localFrame s p.entry) (usedBytes y.geo) else s) s
          if mine.any (fun p => needsCopy s p.entry && (copyAt copies p).isNone) then paneLost s id u.slot (self s)
          else
            let s := meter s rTeTileCnt n 0 (slotTiles s a r u).length
            noteNums (modStep s id fun y => { y with units := y.units.set k { u with trips := t.val } }) x.ctx x.numctl n t.sats t.nan

/-- What a token unit's choosing for a slot finds wrong in what it reads (R88, R145): its logits, or its masks. -/
def chooseFault (s : State) (p : Plan) (i : Nat) (r : SlotRun) : Option (Nat × Nat) :=
  let c := choiceOf r.rec_
  let m := (if c.hostMask then 4 * cdiv p.vocab 32 else 0) + (if c.allowList then 4 * c.allowCount else 0)
  [(p.logitBase + i * p.logitBytes, (1 + r.gate) * p.vocab * elemBytes p.logitFmt), (c.maskAddr, m)].findSome? fun x => spanFault s p.ctx true x.1 x.2

/-- A fault of a unit of a class that its context is charged with. -/
def classFault (s : State) (cls n code c addr : Nat) : State :=
  ctxFault (unitFault s (faultReg cls) (faultAddrReg cls) n code c addr) c code n (classCode cls) addr

/-- What a finished piece of work does. -/
def workDone (s : State) (n : Nat) (w : Work) (copies : List PageCopy) : State :=
  if w.stage = paneMark then jobRun s n w.step w.item
  else match stepOf s w.step with
    | none => s
    | some x => match (tget s.st.plans x.plan).bind fun p => (p.stages[w.stage]?).map fun g => (p, g) with
      | none => s
      | some (p, g) =>
        if g.kind = 2 then attnRun s n x w.step g w.item copies
        else if g.kind = 4 then
          let s := modSlot s w.step w.item fun r => { r with tu := n }
          match (slotAt s w.step w.item).bind fun r => if r.run = 1 then chooseFault s p w.item r else none with
          | some (code, addr) => classFault s 2 n code x.ctx addr
          | none => s
        else tileRun s n x w.step p g w.item

/-- Faults a transfer, token or codec unit may record for its context. -/
def unitCode (c : Nat) : Bool := c == 1 || c == 2 || c == 6 || c == 7

/-- The operation code of work (R89, R145): the tile's, ATTN_BLOCK for attention, for a token unit whether it chooses or verifies. -/
def workOp (s : State) (w : Work) : Nat :=
  if w.cls = 2 then (match slotAt s w.step w.item with | some r => if r.gate = 0 then 1 else 2 | none => 1)
  else if w.stage = paneMark then 2
  else match (stepOf s w.step).bind fun x => (tget s.st.plans x.plan).bind fun p => p.stages[w.stage]? with
    | some g => if g.kind = 2 then 2 else ((stageTile s g w.item).map (·.op)).getD 0
    | none => 0

/-- A unit runs work for a time, after any it has not ended (R89, R145). -/
def unitRuns (s : State) (cls n ns op : Nat) : State :=
  modMt s fun m =>
    let from_ := (tget m.runs (unitKey cls n)).elim s.now fun r => Nat.max s.now r.ends
    { m with runs := tput m.runs (unitKey cls n) ⟨from_ + ns, op⟩ }

/-- UNIT_DISPATCH: a free unit of a class runs one quantum. Tile engines and token units take what a step or a pane left for
them; the time transfer engines and codec units run is told. -/
def unitDispatch (s : State) (cls n : Nat) (q : Quantum) : State :=
  if cls > 3 ∨ unitServes s cls n = false ∨ (cls = 0 ∧ s.gl.power.stopTiles = true) then s
  else
    let die := dieOf cls n
    let fault (s : State) (c : Nat) : State := match q.fault with
      | some (code, addr) => if unitCode code then classFault s cls n code c addr else s
      | none => s
    if cls = 1 ∨ cls = 3 then
      if ctxState s q.ctx ≠ 1 then s
      else match wakeUnit s cls n 0 with
        | (false, s) => s
        | (true, s) =>
          let ns := q.ns + switchNs s cls n q.ctx
          let s := unitRuns (chargeUnit s cls n q.ctx ns) cls n ns (if cls = 3 then q.op % 6 else 0)
          let s := q.ecc.foldl eccHit s
          let s := if q.parity = 0 then s else parityRetry s cls n
          fault (if q.parity ≥ 2 then unitOffline s cls n q.ctx else s) q.ctx
    else match (pickCtx s cls die q.copies).bind fun c => (pickWork s cls die c q.copies).map fun w => (c, w) with
      | none => s
      | some (c, w) => match wakeUnit s cls n (if cls = 0 then n % 32 / 8 * 500 else 0) with
        | (false, s) => s
        | (true, s) =>
          let quantum := if cls = 0 then engineNs s 3200 else rf s rMtSched 0 19 10 * 1000
          let used := Nat.min w.ns quantum
          let ns := (if q.parity = 0 then used else 2 * used) + switchNs s cls n c
          let op := workOp s w
          let s := if cls = 0 then teSwitch s n c else s
          let s := unitRuns (chargeUnit s cls n c ns) cls n ns op
          let s := q.ecc.foldl eccHit s
          let s := if q.parity = 0 then s else parityRetry s cls n
          if q.parity ≥ 2 then unitOffline s cls n c
          else
            let rest := delFirst (· == w) s.mt.work
            if w.ns > used then modMt s fun m => { m with work := m.work.map fun y => if y == w then { y with ns := y.ns - used } else y }
            else
              let s := workDone (modMt s fun m => { m with work := rest }) n w q.copies
              if cls = 2 ∨ (q.fault.map (·.1)) = some 6 then fault s c else s

end Sys2Proof.Machine
end

