-- ==== Sys2Proof/Machine/PaneServe.lean ====
section
/-! DEFINITION. The holder's side of attention: checking a pane request, resolving and leasing its pages, computing and sending the pane
(R100–R107, R165), and the tier-2 reads that are late or in error (R162–R165). -/
namespace Sys2Proof.Machine

/-- The status of a request's pane, by the checks of R101 in order, and bits of TE_ATTN_ERR it sets. A page in a slot that cannot be read, or
whose tier-2 read failed, is the tier policy's; any other that is poisoned and was not reconstructed is lost. -/
def paneCheck (s : State) (b : List Byte) (x : PaneArg) : Option (Nat × Option Nat) :=
  let p := paneReqOf b
  let ps := panePages s p
  let down := ps.any (holdDown s x.copies)
  let unread := ps.any fun h => entryPoisoned s h.entry && !holdDown s x.copies h && (paneCopy x.copies h).isNone
  if rbit s rTeAttnCtrl 0 0 = false then some (sShutterClosed, none)
  else if paneFormOk p x.geo.kvHeads = false then some (sInvalidParam, some 1)
  else if qfmtOk x.geo.format p.qfmt = false then some (sInvalidFormat, some 1)
  else if ctxState s p.ctx ≠ 1 then some (sInvalidContext, none)
  else if serving s = false then some (sShutterClosed, none)
  else if (heldPages s p.seq).isEmpty && !(s.pg.index.any (·.seq == p.seq)) then some (sNoPage, none)
  else if p.degraded = false ∧ expectedOk p ps = false then some (sNoPage, some 0)
  else if unread ∨ x.lost then some (sLostState, none)
  else if (down ∨ x.tierBad) ∧ rf s rMcTierPolicy p.ctx 1 0 = 1 then some (sTierFailed, none)
  else none

/-- Header of a pane (R104). -/
def paneHead (s : State) (req : List Byte) (st pages rows : Nat) : List Byte :=
  let w2 := w64At req 16
  toLE 8 (w64At req 0) ++ toLE 8 (w64At req 8 % 2 ^ 59) ++
  toLE 8 (st + self s * 2 ^ 16 + bits w2 47 28 * 2 ^ 36 + bits w2 55 48 * 2 ^ 56) ++ toLE 8 (pages + rows * 2 ^ 32) ++ toLE 8 s.now ++
  List.replicate 24 0

/-- Write a pane to DEST under DEST_KEY (R105, R247): DEST's endpoint, and its local address as the offset in the window. -/
def paneSend (s : State) (req : List Byte) (st : Nat) (bytes : List Byte) : State :=
  let p := paneReqOf req
  let s := bump s rTePaneSent 0 47 0 1
  let s := if st = sOk then s else bump s rTePaneSent 0 63 48 1
  fwSendTo s (p.dest / 2 ^ 44) ptWrite 1 p.key (p.dest % 2 ^ 44) (some p.deadline) .pane bytes (.pane p.ctx)

/-- Drop a pane job, with its leases and what is left of its work. -/
def jobDrop (s : State) (j : PaneJob) : State :=
  let s := j.leases.foldl unlease s
  let s := modMt s fun m => { m with work := m.work.filter fun w => !(w.stage == paneMark && w.step == j.id) }
  modSt s fun t => { t with jobs := t.jobs.filter (·.id != j.id) }

/-- A codec unit finds what is wrong with a page of a request, before any row of it is used (R40, R109). -/
def notePage (s : State) (h : Holding) : State :=
  match localFrame s h.entry, localSlot s h.entry with
  | some f, _ => crcNote (notePoison s f) f
  | none, some n => match slot s n with
    | some t => (slotFaults s n t.trailer).foldl pgErr s
    | none => s
  | none, none => s

/-- Resolve a page of a job that waits for its lease (R43, R102): the page as it is held now, with the lease it takes. -/
def jobLease (s : State) (j : PaneJob) (h : Holding) : PaneJob × State :=
  match (heldPages s h.seq).find? fun y => y.layer == h.layer && y.hg == h.hg && y.base == h.base with
  | none => (j, s)
  | some y =>
    let got : PaneJob := { j with pages := j.pages.map (fun z => if z = h then y else z), wait := delFirst (· == h) j.wait }
    match localFrame s y.entry with
    | none => (got, s)
    | some f => if canLease s f then ({ got with leases := j.leases ++ [f] }, lease s f) else (j, s)

/-- A job goes on that waits for leases, or for the port of a tier-2 slot it reads (R43, R165): with all it needs its units are queued under
its CONTEXT's share. One whose page is held here no longer is answered NO_PAGE. -/
def jobTry (s : State) (id : Nat) : State :=
  match s.st.jobs.find? fun j => j.id == id with
  | none => s
  | some j =>
    if j.queued then s
    else
      let (j, s) := j.wait.foldl (fun a h => jobLease a.2 a.1 h) (j, s)
      let p := paneReqOf j.req
      let gone := j.wait.any fun h => !((heldPages s h.seq).any fun y => y.layer == h.layer && y.hg == h.hg && y.base == h.base)
      if gone then jobDrop (paneSend s j.req sNoPage (paneHead s j.req sNoPage 0 0)) j
      else
        let ready := j.wait.isEmpty && !(j.pages.any (holdDown s j.copies))
        let j := if ready then { j with units := jobUnits s j, queued := true } else j
        let s := modSt s fun t => { t with jobs := t.jobs.map fun x => if x.id = id then j else x }
        if ready = false then s
        else (List.zip j.units (List.range j.units.length)).foldl (fun s u =>
          addWork s ⟨0, (id + u.2) % 2, p.ctx, id, paneMark, u.2, engineNs s (tilesCycles (jobTiles s j u.1))⟩) s

/-- PANE_REQUEST: a request from an endpoint is checked, its pages are resolved and leased, and its work is queued. -/
def paneRequest (s : State) (src : Nat) (req : List Byte) (x : PaneArg) : State :=
  let p := paneReqOf req
  let ps := if p.degraded then [] else panePages s p
  let check := paneCheck s req x
  let reads := match check with | none => true | some (st, _) => st == sLostState || st == sTierFailed
  let n := (ps.filter (holdDown s [])).length + b2n x.tierBad
  let s := if reads then (let s := ps.foldl notePage s; if n = 0 then s else bump s rMcTierCnt p.ctx 63 32 n) else s
  match check with
  | some (st, err) =>
    let s := match err with | some n => wf s rTeAttnErr 0 n n 1 | none => s
    paneSend s req st (paneHead s req st 0 0)
  | none =>
    let wait := ps.filter fun h => (paneCopy x.copies h).isNone && (localFrame s h.entry).isSome
    let s := wakeForPane s (wait.filterMap fun h => (localFrame s h.entry).map frameStack).eraseDups
    let id := s.st.jobCtr
    jobTry (modSt s fun t => { t with
      jobs := t.jobs ++ [⟨id, src, req, x.geo.kvHeads, x.split, x.scales, ps, wait, [], x.copies, [], false, s.now⟩], jobCtr := id + 1 }) id

/-- The holder's answer to job j (R94, R103–R105): every row of every layer over the job's pages, its units' triples merged, the counts, and
PANE_REPLY with the results; the pages' leases end. Engine te ran the merge, and its numeric events count there (R85). -/
def paneAnswer (s : State) (j : PaneJob) (te : Nat) : State :=
  let p := paneReqOf j.req
  let g := jobGeo s j
  let ps := jobPages s j g
  let ftz := rbit s rTeNumctl p.ctx 0
  let ob := if p.oBf16 then 2 else 4
  let ts := (List.range p.layers).flatMap fun l => (List.range p.rows).flatMap fun r => (List.range p.qheads).map fun h =>
    unitsTrip ftz p.hd j.units l r h
  let out := ts.map fun t => (t.val, t.val.o.map fun o => convert (if p.oBf16 then 1 else 0) (f32 o))
  let sats := ts.foldl (fun n t => n + t.sats) 0 + (out.foldl (fun n o => n + (o.2.filter (·.sat)).length) 0)
  let s := noteNums s p.ctx (rdReg s rTeNumctl p.ctx 0).toNat te sats (ts.any (·.nan))
  let s := j.leases.foldl (fun s f => cuPage s p.ctx f g) s
  let s := if p.degraded then j.copies.foldl (fun s _ => cuRebuilt s none (usedBytes g)) s
    else j.pages.foldl (fun s h => if (paneCopy j.copies h).isSome then cuRebuilt s (localFrame s h.entry) (usedBytes g) else s) s
  let body := out.flatMap fun o => toLE 4 o.1.m ++ toLE 4 o.1.l ++ o.2.flatMap fun c => toLE ob c.code
  let rows := ps.foldl (fun n x => n + x.rows) 0
  jobDrop (paneSend s j.req sOk (paneHead s j.req sOk ps.length rows ++ body)) j

/-- PANE_COMPUTED: every unit of a job has run; the pane is made of its triples and sent (R103–R105). -/
def paneComputed (s : State) (id te : Nat) : State :=
  match s.st.jobs.find? fun j => j.id == id with
  | none => s
  | some j =>
    if j.queued = false ∨ (s.mt.work.any fun w => w.stage == paneMark && w.step == id) = true then s
    else paneAnswer s j te

/-! ### Tier-2 reads (R162–R165) -/

/-- Whether work of the current attention stage of a step is a slot's. -/
def slotWork (x : Step) (i : Nat) (w : Work) : Bool := ((x.units[w.item]?).map (·.slot)) == some i

/-- Pages of a slot's sequence in tier 2 that its current attention stage still has to read. -/
def slotSpilled (s : State) (id i : Nat) : Nat :=
  match stepOf s id, slotAt s id i with
  | some x, some r => match (tget s.st.plans x.plan).bind fun p => p.stages[x.stage]? with
    | some g =>
      let a := attnOf g.body
      if g.kind ≠ 2 ∨ r.run ≠ 1 ∨ !(s.mt.work.any fun w => w.step == id && w.stage == x.stage && slotWork x i w) then 0
      else ((((seqOf s r.seq).map (·.pages)).getD []).filter fun p =>
        decide (a.layer ≤ p.layer ∧ p.layer < a.layer + a.layers) && (localSlot s p.entry).isSome).length
    | none => 0
  | _, _ => 0

/-- End a slot's step for its tier-2 reads: it does no more work (R163, R164). -/
def tierFail (s : State) (id i detail : Nat) : State :=
  let s := modMt s fun m => { m with work := m.work.filter fun w => !(w.step == id && w.stage != paneMark &&
    (match stepOf s id with | some x => w.stage == x.stage && slotWork x i w | none => false)) }
  slotFail s id i sTierFailed detail 0

/-- Whether reads issued at a time are late (R162): READ_TIMEOUT_US has passed. -/
def readsLate (s : State) (at_ : Nat) : Bool := decide (at_ + rf s rMcTierCtrl 0 17 8 * 1000 ≤ s.now)

/-- TIER_READ_LATE: n reads of a slot, or of a holder's job, are late, and issued again (R162, R163), or in error. Those of pages that their
stripes give (solved) count, and the tier policy does not apply to them. -/
def tierReadLate (s : State) (id i : Nat) (job : Option Nat) (n : Nat) (err solved : Bool) : State :=
  let count (s : State) (c n : Nat) : State := if err then bump s rMcTierCnt c 63 32 n else bump s rMcTierCnt c 31 0 n
  match job with
  | some k => match s.st.jobs.find? fun j => j.id == k with
    | none => s
    | some j =>
      let c := (paneReqOf j.req).ctx
      let n := Nat.min n (j.pages.filter fun h => (localSlot s h.entry).isSome).length
      if n = 0 ∨ (err = false ∧ readsLate s j.readAt = false) then s
      else
        let s := count s c n
        let s := modSt s fun t => { t with jobs := t.jobs.map fun x => if x.id = k then { x with readAt := s.now } else x }
        if solved = false ∧ rf s rMcTierPolicy c 1 0 = 1 then jobDrop (paneSend s j.req sTierFailed (paneHead s j.req sTierFailed 0 0)) j else s
  | none => match stepOf s id, slotAt s id i with
    | some x, some r =>
      let n := Nat.min n (slotSpilled s id i)
      if n = 0 ∨ (err = false ∧ readsLate s r.readAt = false) then s
      else
        let s := modSlot (count s x.ctx n) id i fun r => { r with readAt := s.now }
        if solved ∨ rf s rMcTierPolicy x.ctx 1 0 ≠ 1 then s
        else
          let s := tierFail s id i 2
          modSlot (defer s (.sequence r.seq) (.endSeq r.seq sTierFailed)) id i fun r => { r with ended := true, endStatus := sTierFailed }
    | _, _ => s

/-- TIER_DEADLINE: reads of a slot are still outstanding at the tier deadline, or those of a holder's job at the request's
DEADLINE, which then sends nothing. -/
def tierDeadline (s : State) (id i : Nat) (job : Option Nat) : State :=
  match job with
  | some k => match s.st.jobs.find? fun j => j.id == k with
    | some j => if (paneReqOf j.req).deadline ≤ s.now ∧ (j.pages.any fun h => (localSlot s h.entry).isSome) = true then jobDrop s j else s
    | none => s
  | none => match stepOf s id, slotAt s id i with
    | some x, some r => match tget s.st.plans x.plan with
      | some p =>
        let d := if p.tierDeadline = 0 then p.wcet * rf s rMcTierCtrl 0 7 1 / 100 else p.tierDeadline
        if slotSpilled s id i = 0 ∨ s.now < x.startAt + d ∨ rf s rMcTierPolicy x.ctx 1 0 = 1 then s
        else recoveryPause (tierFail s id i 1) r.seq
      | none => s
    | _, _ => s

end Sys2Proof.Machine
end

