-- ==== Sys2Proof/Machine/Boundary.lean ====
section
/-! DEFINITION. Changes that wait for a step boundary (R345), the commit of a transaction (R357), the step boundary itself (R344, R346,
R352, R353) and the useful-progress ratio (R304). -/
namespace Sys2Proof.Machine

/-! ### Transactions (R357) -/

/-- The objects a staged command touches. -/
def txnObjs (op : Nat) (c : Cmd) : List Nat :=
  match op with
  | 0x72 => [3000 + fld c.w1 7 0]
  | 0x73 => [3000 + fld c.w1 7 0]
  | 0x70 => (if wbit c.w1 8 then (cmdPorts c).map fun p => 1000 + 8 * p + fld c.w1 7 5 else []) ++
      (if wbit c.w1 9 then [2000 + fld c.w1 17 10] else [])
  | 0x71 => (cmdPorts c).map fun p => 1000 + 8 * p + fld c.w1 7 5
  | _ => [0]

/-- SET_MODE in force. -/
def modeApply (s : State) (m : Nat) : State := touch (wf s rGlMode 0 1 0 m) 0

/-- Apply one staged command. -/
def txnApply (s : State) (op : Nat) (c : Cmd) : State :=
  match op with
  | 0x02 => modeApply s (fld c.w1 1 0)
  | 0x70 => shaperApply s c
  | 0x71 => policerApply s c
  | 0x72 => shareApply s c
  | 0x73 => tierApply s c
  | _ => limitNote (capApply s c)

/-- State check of a staged command on the shadow. -/
def txnState (s : State) (op : Nat) (c : Cmd) : Option Nat :=
  match op with
  | 0x72 => match shareCheck c s with
    | some (st, _) => some st
    | none => if shareFits s c then none else some sNoFit
  | 0x70 => (shaperCheck c s).map (·.1)
  | 0x73 => (tierCheck c s).map (·.1)
  | _ => none

/-- Run the staged commands on the shadow in order: the state after all, or the status and index of the first that fails. -/
def txnShadow (s : State) (i : Nat) : List (Nat × Cmd) → State ⊕ (Nat × Nat)
  | [] => .inl s
  | (op, c) :: l => match txnState s op c with
    | some st => .inr (st, i)
    | none => txnShadow (txnApply s op c) (i + 1) l

/-- Index of the first staged command that touches an object changed since a count of changes. -/
def txnConflict (s : State) (began i : Nat) : List (Nat × Cmd) → Option Nat
  | [] => none
  | (op, c) :: l =>
    if (txnObjs op c).any fun o => decide (began < tgetD s.host.changes o 0) then some i else txnConflict s began (i + 1) l

/-- The boundary where a TXN_COMMIT acts: conflict, state checks, hold-up, journal and change together. A commit that finds no journal
slot waits for one (R297). -/
def txnCommit (s : State) (n : Nat) : State :=
  match tget s.host.txns n with
  | none => s
  | some t =>
    let ended (s : State) : State := modHost s fun h => { h with txns := tdel h.txns n }
    let bad (st d : Nat) : State := finish (bump (ended s) rCqTxnStatus 0 35 20 1) t.commitId st d 0 0
    let persist := ((openCmd s t.commitId).map fun o => cPersist o.cmd).getD false
    match txnConflict s t.beganAt 0 t.staged with
    | some i => bad sTxnConflict i
    | none => match txnShadow s 0 t.staged with
      | .inr (st, i) => bad st i
      | .inl y =>
        if persist ∧ holdupOk (holdupNote s) = false then finish (bump (holdupRefused (holdupNote (ended s))) rCqTxnStatus 0 35 20 1) t.commitId sHoldup 0 0 0
        else match jrStart y jrTxn (t.ring + n * 2 ^ 32) 0 (.txn n) with
          | (none, y) => modCe s fun c => { c with jrWaits := y.ce.jrWaits }
          | (some op, y) =>
            let y := jrEnd (jrPhase (ended y) op 2 0) op 3 sOk
            let y := match tget y.ce.jr op with
              | some r => if persist then flashDue y (.txn op r t.staged) else y
              | none => y
            finish (bump y rCqTxnStatus 0 19 4 1) t.commitId sOk 0 t.staged.length op

/-! ### Deferred changes -/

/-- An adapter version that waits becomes the current one; the former one goes once nothing pins it (R141). -/
def adapterSwitch (s : State) (n : Nat) : State :=
  match tget s.st.adapters n with
  | none => s
  | some a =>
    let key := a.ctx * 2 ^ 16 + a.id
    let old := tget s.st.current key
    let s := modSt s fun t => { t with
      adapters := tmod t.adapters n (fun b => { b with pendingSwitch := false, unloadAfter := false }),
      current := if a.unloadAfter then tdel t.current key else tput t.current key n }
    let s := match old with
      | some m => if m = n then s else adapterRelease s m
      | none => s
    adapterRelease s n

/-- Apply a deferred change. -/
def applyAct (s : State) : BAct → State
  | .setMode m => modeApply s m
  | .setShare c => if ctxState s (fld c.w1 7 0) = 1 then shareApply s c else s
  | .setTierPolicy c => if ctxState s (fld c.w1 7 0) = 0 then s else tierApply s c
  | .setPowerCap w => limitNote (wf s rPmCap 0 10 0 w)
  | .commit n => txnCommit s n
  | .sprintBegin _ => sprintBegin s
  | .sprintEnd cause => sprintEnd s cause
  | .fork id => forkBegin s id
  | .pause q => pauseBegin s q
  | .cancelSeq q => cancelSeq s q
  | .endSeq q st => endSeq s q st
  | .adapterSwitch n => adapterSwitch s n
  | .hingeOffer id => hingeBegin s id
  | .tailSwitch n => stripeSwitch s n

/-- Whether a step is running that a change concerns. -/
def concerns (sc : Scope) (x : Step) : Bool :=
  x.running && (match sc with
    | .sequence q => x.slots.any fun r => r.seq == q
    | .context c => x.ctx == c
    | .device => true)

/-- Apply the deferred changes that satisfy a test, in the order they were accepted. -/
def applyDeferred (s : State) (p : Deferred → Bool) : State :=
  let now := s.host.deferred.filter p
  now.foldl (fun s d => applyAct s d.act) (modHost s fun h => { h with deferred := h.deferred.filter fun d => !p d })

/-- Apply every change that no running step concerns. -/
def deferredSettle (s : State) : State :=
  applyDeferred s fun d => !(s.st.steps.any fun kv => concerns d.scope kv.2)

/-! ### The useful-progress ratio (R304) -/

/-- Add the time of a completed step to the covered time: intervals rise and do not overlap. -/
def progressAdd (s : State) (lo : Nat) : State :=
  let hi := s.now
  let keep := s.ce.progress.filter fun i => decide (i.2 < lo)
  let meet := s.ce.progress.filter fun i => decide (lo ≤ i.2)
  let from_ := meet.foldl (fun m i => Nat.min m i.1) lo
  let had := meet.foldl (fun n i => n + (i.2 - i.1)) 0
  let keep := keep.filter fun i => decide (hi < i.2 + 3600 * 1000000000)
  modCe s fun c => { c with progress := keep ++ [(from_, hi)], useful := c.useful + (hi - from_ - had) }

/-- HL_PROGRESS over the last WINDOW_S seconds. -/
def viewProgress (s : State) : Nat :=
  let w := rf s rHlCtrl 0 27 16 * 1000000000
  let lo := s.now - w
  let n := s.ce.progress.foldl (fun n i => n + (i.2 - Nat.max lo i.1)) 0
  if w = 0 then 0 else Nat.min 65536 (n * 65536 / w)

/-- HL_USEFUL_NS and HL_WALL_NS. -/
def viewUseful (s : State) : Nat := s.ce.useful
def viewWall (s : State) : Nat := s.now - s.ce.coldAt

/-! ### The step boundary -/

/-- Whether everything a step's reply waits for is done: its stages, the placing of its tokens and rows (R15, R55), and at a PROMPT
controller the stripes of what it sealed. -/
def stepReady (s : State) (id : Nat) (x : Step) (p : Plan) : Bool :=
  let qs := (x.slots.filter (·.run != 0)).map (·.seq)
  x.running && x.stage == p.stages.length &&
  !(s.ce.logJobs.any fun kv => match kv.2.step with | some (st, _) => st == id | none => false) &&
  !(s.ce.reqs.any fun kv => match kv.2.use with | .mirror q => qs.contains q | _ => false) &&
  !(role s == 0 && qs.any (stripesBusy s))

/-- A result record. -/
def resultBytes (s : State) (r : SlotRun) (wasLive : Bool) : List Byte :=
  let y := seqOf s r.seq
  let ended := wasLive && r.run != 0 && (match y with | some y => y.st == .ended || y.st == .cancelled | none => false)
  let endStatus := if ended then (y.map (·.endStatus)).getD 0 else 0
  let len := if r.seq = 0 then 0 else match y with | some y => y.length | none => r.length
  toLE 4 r.seq ++ toLE 2 r.status ++ toLE 2 r.detail ++ toLE 8 r.detail1 ++
  toLE 8 (r.tokens.length + b2n ended * 2 ^ 5 + endStatus * 2 ^ 16 + len * 2 ^ 32) ++
  (List.range 17).flatMap (fun i => toLE 4 (r.tokens.getD i 0)) ++ toLE 4 0

/-- A reclamation point of the step boundary, when the boundary counts (R346). -/
def boundaryReclaim (s : State) : State :=
  let run := (s.st.steps.filter fun kv => kv.2.running).map (·.1)
  if s.st.counted.any fun i => run.contains i then s
  else ledgerTick (reclaim (modSt s fun t => { t with counted := run }))

/-- The ends a step boundary brings to the step's sequences qs: cancels come before the ends the step itself brings (R16). -/
def boundaryEnds (s : State) (qs : List Nat) (x : Step) : State :=
  let s := applyDeferred s fun d => match d.act with
    | .cancelSeq q => qs.contains q
    | .endSeq q _ => qs.contains q
    | _ => false
  x.slots.foldl (fun s r =>
    let maskEnd := r.ended && r.endStatus == sMaskEmpty && (match seqOf s r.seq with | some y => seqLive y | none => false)
    let s := if r.ended then endSeq s r.seq r.endStatus else s
    let s := if maskEnd then bump s rTuEvtCnt 0 15 0 1 else s
    r.frames.foldl toPending s) s

/-- The effects of a step's end, in the order of R344: descriptors, results and the reply, the ends of its sequences, the step's counts,
stripes, and what waited for this boundary. -/
def stepEnd (s : State) (id : Nat) (x : Step) : State :=
  let qs := (x.slots.filter (·.run != 0)).map (·.seq)
  let live := qs.filter fun q => match seqOf s q with | some y => seqLive y | none => false
  let s := qs.foldl (fun s q => match seqOf s q with
    | some y => if seqLive y then writeDesc s q else s
    | none => s) s
  let after := boundaryEnds s qs x
  let s := match openCmd s x.cmd with
    | some o => cmdWrite s o.cmd 3 (x.slots.flatMap fun r => resultBytes after r (live.contains r.seq))
    | none => s
  let s := finish s x.cmd sOk 0 id (x.slots.filter (·.status != sOk)).length
  let s := boundaryEnds s qs x
  let s := modSt s fun t => { t with
    steps := tdel t.steps id, panes := t.panes.filter (fun kv => kv.2.step != id) }
  let s := accForget (modMt s fun m => { m with work := m.work.filter fun w => w.step != id || w.stage == paneMark }) id
  let s := progressAdd (bump s rMtStepCnt x.ctx 31 0 1) x.startAt
  let s := live.foldl (fun s q => stripeRetry s q) s
  let s := applyDeferred s fun d => concerns d.scope x
  boundaryReclaim s

/-- STEP_BOUNDARY: the result table and the step's reply are written, then the ends and their events (R343), and deferred
changes apply. -/
def stepBoundary (s : State) (id : Nat) : State :=
  match stepOf s id with
  | none => s
  | some x => match tget s.st.plans x.plan with
    | none => s
    | some p =>
      if stepReady s id x p = false then s
      else stepEnd s id x

/-- RECLAMATION_TICK (R44): with no step running, every TICK_US. -/
def reclamationTick (s : State) : State :=
  let due := decide (s.pg.lastTick + rf s rPgReclaim 0 16 0 * 1000 ≤ s.now)
  if due = false then s
  else
    let s := modPg s fun p => { p with lastTick := s.now }
    if s.st.steps.any fun kv => kv.2.running then s
    else ledgerTick (reclaim (modSt s fun t => { t with counted := [] }))

end Sys2Proof.Machine
end

