-- ==== Sys2Proof/Machine/Images.lean ====
section
/-! DEFINITION. Model images, adapters and grammars: their headers and fit checks, the copies that bring them in, unloading (R125,
R135–R144, R160, R385). -/
namespace Sys2Proof.Machine

/-! ### Tier-2 copies (R160) -/

/-- Free tier-2 slots for a read-only copy of n frames, within the context's quota: taken and being written, or none. -/
def takeSlots (s : State) (c : Nat) : Nat → Option (List Nat × State)
  | 0 => some ([], s)
  | n + 1 =>
    if tierFor s c = false then none
    else match pick s (slotFree s) 0 (Nat.max 1 (slotsTotal s)) with
      | (none, _) => none
      | (some k, s) => (takeSlots (setSlot s k ⟨0, 1, c, 0, 0, noTrailer⟩) c n).map fun r => (k :: r.1, r.2)

/-- Write the copy: the frames' bytes in order. -/
def writeSlots (s : State) (slots frames : List Nat) : State :=
  (List.zip slots frames).foldl (fun s x =>
    let s := copyMem s (frameAddr x.2) (slotAddr x.1) frameBytes
    match slot s x.1 with
    | some t => setSlot s x.1 { t with state := 1 }
    | none => s) s

/-- Status of a source that cannot be read: TARGET_DEAD for a fabric one (R354), INVALID_PARAM for the host (R453). -/
def sourceFail (fabric : Bool) : Nat := if fabric then sTargetDead else sInvalidParam

/-! ### Images (R135–R139) -/

/-- Check of an image header: the status of the first rule it breaks. -/
def imageCheck (h : List Byte) : Option Nat :=
  let w2 := w64At h 0x10
  let w3 := w64At h 0x18
  let cls := leAt h 6 1
  let params := w64At h 8
  let vocab := bits w3 18 0
  let q := bits w3 27 19
  let wf_ := bits w2 3 0
  let af := bits w2 7 4
  let kf := bits w2 11 8
  let kv := bits w2 39 28
  if leAt h 0 4 ≠ 0x494D4731 ∨ leAt h 4 2 ≠ 1 ∨ cls > 4 ∨ leAt h 7 1 ≠ 0 ∨ bits w2 63 61 ≠ 0 ∨ bits w3 63 28 ≠ 0 ∨
      leAt h 0x44 4 ≠ 0 ∨ ((slice h 0x48 184).any (· != 0)) = true ∨ params < 1 ∨ params > 16000000000 then some sInvalidParam
  else if wf_ ≥ 8 ∨ af ≥ 8 ∨ kf ≥ 8 ∨ (pairRate wf_ af).isNone then some sInvalidFormat
  else match geometryCheck (bits w2 27 12) kv (bits w2 44 40) (bits w2 60 45) kf with
    | some (st, _) => some st
    | none =>
      if kv > 256 ∨ (if cls = 2 then vocab ≠ 0 else vocab < 1 ∨ vocab > 262144) ∨ q < 1 ∨ q > 256 ∨ q % kv ≠ 0 ∨ q / kv > 16 ∨
          w64At h 0x20 < cdiv (params * bpe32 wf_) 32 then some sInvalidParam else none

/-- Frames of an image's weights and programs, and the stack frames its fit check asks for (R136). -/
def imageFrames (h : List Byte) : Nat := cdiv (w64At h 0x20) frameBytes + cdiv (w64At h 0x28) frameBytes
def imageStack (h : List Byte) (seqs tokens : Nat) : Nat :=
  let w2 := w64At h 0x10
  let hpp := bits w2 44 40
  let pt := ((ptChoose hpp (bits w2 60 45) (bits w2 11 8)).map ptRows).getD 16
  imageFrames h + seqs * (bits w2 27 12 * (bits w2 39 28 / hpp) * (cdiv tokens pt + 1) + cdiv (w64At h 0x38) frameBytes)

/-- The record of an image that an IMG_LOAD of context c starts to copy, from its header h (R136). -/
def imageRec (id : Nat) (k : Cmd) (h : List Byte) (fs slots : List Nat) : Image :=
  let w2 := w64At h 0x10
  ⟨cCtx k, 0, h, fs, w64At h 0x30, id, bits w2 11 8, bits w2 27 12, bits w2 39 28, bits w2 44 40, bits w2 60 45, [], cKind k 1 == 2, slots⟩

/-- Tier-2 slots for the backup of n frames, when PLACE asks for one. -/
def backupSlots (s : State) (c place n : Nat) : Option (List Nat × State) := if place = 2 then takeSlots s c n else some ([], s)

/-- IMG_LOAD. -/
def opImgLoad (id : Nat) (k : Cmd) (s : State) : State :=
  let c := cCtx k
  let seqs := fld k.w2 15 0
  let tokens := fld k.w2 38 16
  let place := fld k.w2 40 39
  let fabric := cKind k 1 == 2
  match k.buf with
  | none => fail s id (sourceFail fabric) 0
  | some b =>
    let h := slice b 0 256
    match imageCheck h with
    | some st => fail s id st 0
    | none =>
      let need := imageStack h seqs tokens
      let free := framesAlloc s c - framesUsed s c
      let sram := w64At h 0x30
      let sfree := rf s rMtAlloc c 43 25 * 1024 - sramInUse s c
      let nf := imageFrames h
      if seqs = 0 ∨ tokens > maxLength ∨ place = 3 then fail s id sInvalidParam 0
      else if need > free then finish s id sNoFit 1 ((need - free) * frameBytes) 0
      else if sram > sfree then finish s id sNoFit 2 (sram - sfree) 0
      else match tfree s.st.images 0 256 with
        | none => fail s id sNoFit 3
        | some i =>
          if i ≥ 256 then fail s id sNoFit 3
          else match takeFrames s .system c .image i nf with
            | none => finish s id sNoFit 1 ((nf - freeFrames s) * frameBytes) 0
            | some (fs, t) => match backupSlots t c place nf with
              | none => fail s id sNoFit 1
              | some (slots, t) =>
                let t := pend (modSt t fun x => { x with images := tput x.images i (imageRec id k h fs slots) }) id (.image i)
                (jrStart t jrImage i 0 (.image i)).2

/-- Free an image's frames and copies. -/
def imageFree (s : State) (i : Nat) : State :=
  match tget s.st.images i with
  | none => s
  | some im =>
    let s := im.slots.foldl releaseSlot (im.frames.foldl dropSystem s)
    modSt s fun t => { t with images := tdel t.images i }

/-- An install fails: everything is freed, the reply and IMG_FAILED carry the status. -/
def imageFail (s : State) (i st d : Nat) : State :=
  match tget s.st.images i with
  | none => s
  | some im =>
    let s := match jrFind s (.image i) with
      | some op => jrEnd s op 5 st
      | none => modCe s fun c => { c with jrWaits := c.jrWaits.filter (· != .image i) }
    let s := finishAll (imageFree s i) (.image i) st d i 0
    raiseCtx s im.ctx evImgFailed st i 0

/-- Check of every tile of an image's programs (R137): status and detail of the first check that fails. -/
def imageTilesCheck (s : State) (c : Nat) (program : List Byte) : Option (Nat × Nat) :=
  let ts := (List.range (program.length / 64)).map fun i => tileOf (slice program (64 * i) 64)
  if program.length % 64 ≠ 0 ∨ (ts.all tileEnumOk) = false then some (sInvalidParam, 0)
  else if (ts.all tileFmtOk) = false then some (sInvalidFormat, 0)
  else if (ts.all tileShapeOk) = false then some (sInvalidParam, 0)
  else if (ts.any fun d => decide (rf s rMtAlloc c 52 44 < d.accKib)) = true then some (sNoFit, 2)
  else none

/-- Image i is ready (R137): its tiles' program is set, its copies lie in its slots, its command completes and IMG_READY is raised. -/
def imageDone (s : State) (i : Nat) (im : Image) (op : Nat) (program : List Byte) : State :=
  let s := writeSlots (jrPhase s op 3 0) im.slots im.frames
  let s := modSt s fun t => { t with images := tput t.images i { im with st := 2, program := program, cmd := 0 } }
  let s := finishAll (jrEnd s op 4 sOk) (.image i) sOk 0 i 0
  raiseCtx s im.ctx evImgReady 0 i 0

/-- IMG_COPY_DONE: the copy of an image's weights, then programs, completes; none when its source failed. VERIFYING follows, and
RESIDENT with its tier-2 copy written, or the failure. -/
def imgCopyDone (s : State) (i : Nat) (body : Option (List Byte)) : State :=
  match tget s.st.images i with
  | none => s
  | some im => match jrFind s (.image i) with
    | none => s
    | some op =>
      if im.st ≠ 0 then s
      else match body with
        | none => imageFail s i (sourceFail im.fabric) 0
        | some b =>
          let wb := w64At im.header 0x20
          let pb := w64At im.header 0x28
          let b := slice b 0 (wb + pb)
          let nw := cdiv wb frameBytes
          let s := fillFrames (fillFrames s (im.frames.take nw) (b.take wb)) (im.frames.drop nw) (b.drop wb)
          let s := jrPhase s op 2 0
          if crc32c b ≠ leAt im.header 0x40 4 then imageFail s i sInvalidParam 0
          else match imageTilesCheck s im.ctx (b.drop wb) with
            | some (st, d) => imageFail s i st d
            | none => imageDone s i im op (b.drop wb)

/-- Whether a loaded plan or a live sequence names an image. -/
def imageNamed (s : State) (c i : Nat) : Bool :=
  (s.st.plans.any fun kv => kv.2.ctx == c && kv.2.stages.any fun g => g.kind == 3 && g.imageId == i) ||
  (s.pg.seqs.any fun kv => kv.2.ctx == c && kv.2.hasImage && kv.2.imageId == i && seqLive kv.2)

/-- IMG_UNLOAD (R139). -/
def opImgUnload (id : Nat) (k : Cmd) (s : State) : State :=
  let i := fld k.w1 7 0
  match tget s.st.images i with
  | none => fail s id sInvalidParam 0
  | some im =>
    if im.ctx ≠ cCtx k ∨ im.st < 2 ∨ imageNamed s im.ctx i = true then fail s id sInvalidParam 0
    else finishOk (imageFree s i) id

/-! ### Adapters (R140–R144) -/

/-- Whether a version of an adapter is resident in a context, and whether a replacement of it is on its way. -/
def adapterHas (s : State) (c a : Nat) : Bool := s.st.adapters.any fun kv => kv.2.ctx == c && kv.2.id == a
def adapterMoving (s : State) (c a : Nat) : Bool :=
  s.st.adapters.any fun kv => kv.2.ctx == c && kv.2.id == a && (kv.2.cmd != 0 || kv.2.pendingSwitch)

/-- Check of an adapter header: the status of the first rule it breaks. -/
def adapterCheck (s : State) (c : Nat) (replace : Bool) (h : List Byte) : Option Nat :=
  let w := w64At h 0
  let a := bits w 15 0
  let v := bits w 31 16
  let rank := bits w 40 32
  if bits w 63 54 ≠ 0 ∨ leAt h 0x14 4 ≠ 0 ∨ ((slice h 0x18 40).any (· != 0)) = true then some sInvalidParam
  else if bits w 44 41 ≥ 8 then some sInvalidFormat
  else if rank < 1 ∨ rank > 256 ∨ (bit w 53 = true ∧ bits w 52 45 ≠ 0) ∨ adapterHas s c a ≠ replace ∨ (replace = false ∧ v ≠ 0) ∨
      (s.st.adapters.any fun kv => kv.2.ctx == c && kv.2.id == a && kv.2.version == v) = true ∨ adapterMoving s c a = true then some sInvalidParam
  else none

/-- Entries of the adapter region in use, and whether a run is free. -/
def runFree (s : State) (n first : Nat) : Bool :=
  decide (first + n ≤ 131072) && s.st.adapters.all fun kv => !kv.2.hostServed || decide (kv.2.run.1 + kv.2.run.2 ≤ first ∨ first + n ≤ kv.2.run.1)

/-- The record of an adapter that an ADP_LOAD or ADP_REPLACE starts to copy, from its header h (R140, R141). -/
def adapterRec (id : Nat) (k : Cmd) (replace : Bool) (h : List Byte) (run : Nat) (fs slots : List Nat) : Adapter :=
  let w := w64At h 0
  let n := w64At h 8
  ⟨cCtx k, bits w 15 0, bits w 31 16, bits w 52 45, bit w 53, n, leAt h 0x10 4, fs, if bit w 53 then (run, cdiv n frameBytes) else (0, 0), 0, false,
    replace, false, false, id, cKind k 1 == 2, slots⟩

/-- The BAR2 entries of a HOST_SERVED adapter: any free run, which the manual leaves open (log entry 5). -/
def adapterRun (s : State) (host : Bool) (n : Nat) : Option Nat × State := if host then pick s (runFree s n) 0 131072 else (some 0, s)

/-- ADP_LOAD and ADP_REPLACE. -/
def adapterLoad (id : Nat) (k : Cmd) (replace : Bool) (s : State) : State :=
  let c := cCtx k
  let place := fld k.w2 1 0
  match k.buf with
  | none => fail s id (sourceFail (cKind k 1 == 2)) 0
  | some b =>
    let h := slice b 0 64
    match (if place = 3 then some sInvalidParam else adapterCheck s c replace h) with
    | some st => fail s id st 0
    | none =>
      let w := w64At h 0
      let n := w64At h 8
      let nf := cdiv n frameBytes
      match pick s (fun i => !thas s.st.adapters i) 0 4096 with
      | (none, _) => fail s id sNoFit 5
      | (some i, t) => match adapterRun t (bit w 53) nf with
        | (none, _) => fail s id sNoFit 5
        | (some run, t) =>
          if mayTake t c nf = false ∨ freeFrames t < nf then fail s id sNoFit 1
          else match takeFrames t .system c .adapter i nf with
            | none => fail s id sNoFit 1
            | some (fs, t) => match backupSlots t c place nf with
              | none => fail s id sNoFit 1
              | some (slots, t) =>
                pend (modSt t fun x => { x with adapters := tput x.adapters i (adapterRec id k replace h run fs slots) }) id (.adapter i)

def opAdpLoad (id : Nat) (k : Cmd) (s : State) : State := adapterLoad id k false s
def opAdpReplace (id : Nat) (k : Cmd) (s : State) : State := adapterLoad id k true s

/-- Free an adapter slot. -/
def adapterFree (s : State) (n : Nat) : State :=
  match tget s.st.adapters n with
  | none => s
  | some a =>
    let s := a.slots.foldl releaseSlot (a.frames.foldl dropSystem s)
    modSt s fun t => { t with adapters := tdel t.adapters n }

/-- Adapter n's bytes b are in place (R140, R141): its command completes, and it becomes the current one, at once or, replacing another,
when the steps allow. -/
def adapterReady (s : State) (n : Nat) (a : Adapter) (b : List Byte) : State :=
  let s := writeSlots (fillFrames s a.frames b) a.slots a.frames
  let s := modSt s fun t => { t with adapters := tput t.adapters n { a with loaded := true, cmd := 0, pendingSwitch := a.replace } }
  let off := if a.hostServed then 0x200000000 + a.run.1 * 0x10000 else 0
  let s := finishAll s (.adapter n) sOk 0 off n
  if a.replace then defer s .device (.adapterSwitch n)
  else if a.unloadAfter then adapterRelease s n
  else modSt s fun t => { t with current := tput t.current (a.ctx * 2 ^ 16 + a.id) n }

/-- ADP_COPY_DONE: the copy of a slot's weights completes; none when its source failed. ADP_LOAD's version becomes current at once,
ADP_REPLACE's at the next step boundary. -/
def adpCopyDone (s : State) (n : Nat) (body : Option (List Byte)) : State :=
  match tget s.st.adapters n with
  | none => s
  | some a =>
    if a.cmd = 0 then s
    else match body with
      | none => finishAll (adapterFree s n) (.adapter n) (sourceFail a.fabric) 0 0 0
      | some b =>
        let b := slice b 0 a.bytes
        if crc32c b ≠ a.crc then finishAll (adapterFree s n) (.adapter n) sInvalidParam 0 0 0
        else adapterReady s n a b

/-- ADP_UNLOAD (R142, R144): the current pointer goes; a version on its way to be current loses it at once after. -/
def opAdpUnload (id : Nat) (k : Cmd) (s : State) : State :=
  let c := cCtx k
  let a := fld k.w1 15 0
  let key := c * 2 ^ 16 + a
  if (thas s.st.current key || adapterMoving s c a) = false then fail s id sInvalidParam 0
  else
    let waits := s.st.adapters.any fun kv => kv.2.ctx == c && kv.2.id == a && kv.2.pendingSwitch
    let s := modSt s fun t => { t with adapters := t.adapters.map fun kv =>
      if kv.2.ctx = c ∧ kv.2.id = a ∧ (kv.2.cmd ≠ 0 ∨ kv.2.pendingSwitch = true) then (kv.1, { kv.2 with unloadAfter := true }) else kv }
    match (if waits then none else tget s.st.current key) with
    | some n => finishOk (adapterRelease (modSt s fun t => { t with current := tdel t.current key }) n) id
    | none => finishOk s id

/-- TU_IMG_STATUS and TU_ADP_STATUS. -/
def viewImgStatus (s : State) : Nat := tcount s.st.images (·.st == 2) + tcount s.st.images (fun i => decide (i.st < 2)) * 2 ^ 9
def viewAdpStatus (s : State) : Nat := s.st.adapters.length + tcount s.st.adapters (·.pendingSwitch) * 2 ^ 13

/-! ### Grammars (R125) -/

/-- Release a grammar. -/
def grammarFree (s : State) (k : Nat) : State :=
  match tget s.st.grammars k with
  | none => s
  | some g => modSt (g.frames.foldl dropSystem s) fun t => { t with grammars := tdel t.grammars k }

/-- GRAMMAR_LOAD: a length of 0 unloads the ID. -/
def opGrammarLoad (id : Nat) (k : Cmd) (s : State) : State :=
  let c := cCtx k
  let n := fld k.w2 31 0
  let g := fld k.w2 37 32
  let key := c * 64 + g
  let other := s.st.grammars.any fun kv => kv.1 % 64 == g && kv.2.ctx != c
  let named := s.pg.seqs.any fun kv => seqLive kv.2 && kv.2.choice.grammarValid && kv.2.choice.grammarId == g
  if n = 0 then
    (if other then fail s id sNoFit 4 else if named ∨ thas s.st.grammars key = false then fail s id sInvalidParam 0
     else finishOk (grammarFree s key) id)
  else match cmdBytes s k 1 n k.buf with
    | none => fail s id sInvalidParam 0
    | some b =>
      let nf := cdiv n frameBytes
      if b.length ≠ n ∨ gramOk b = false then fail s id sInvalidParam 0
      else if other then fail s id sNoFit 4
      else if named then fail s id sInvalidParam 0
      else if mayTake s c nf = false ∨ freeFrames s < nf then fail s id sNoFit 1
      else match takeFrames s .system c .grammar key nf with
        | none => fail s id sNoFit 1
        | some (fs, s) => finishOk (modSt (fillFrames (grammarFree s key) fs b) fun t => { t with grammars := tput t.grammars key ⟨c, b, fs⟩ }) id

/-- TU_GRAMMAR_MAP. -/
def viewGrammarMap (s : State) : Nat := (List.range 64).foldl (fun m i => if s.st.grammars.any fun kv => kv.1 % 64 == i then m + 2 ^ i else m) 0

end Sys2Proof.Machine
end

