-- ==== Sys2Proof/Machine/Contexts.lean ====
section
/-! DEFINITION. Contexts: the teardown a context fault starts, CTX_CREATE and CTX_DESTROY (R308–R316, R332, R386, R388). A teardown
runs within the command that found the fault. -/
namespace Sys2Proof.Machine

/-! ### Steps of a context (R314 step 3) -/

/-- End a running step whose context is torn down: its slots report CONTEXT_FAULT and no tokens, and its reply is written. It does
not count as useful progress (R304). -/
def stepCut (s : State) (id cause : Nat) : State :=
  match stepOf s id with
  | none => s
  | some x =>
    let s := (runSlots x).foldl (fun s y => if y.2.tokens.isEmpty then commitTo s y.2.seq y.2.kv else s) s
    let jobs := (s.ce.logJobs.filter fun kv => match kv.2.step with | some (st, _) => st == id | none => false)
    let s := modCe s fun c => { c with
      logJobs := c.logJobs.filter (fun kv => !(jobs.any fun j => j.1 == kv.1)),
      reqs := c.reqs.filter fun kv => !(jobs.any fun j => j.2.waiting.contains kv.1) }
    let s := jobs.foldl (fun s j => logKick s j.2.seq) s
    let slots := x.slots.map fun r => if r.run = 0 then r else { r with
      status := sContextFault, detail := cause, detail1 := 0, tokens := [], ended := false }
    let s := ((s.st.panes.filter fun kv => kv.2.step == id).map (·.2)).foldl paneClose s
    let s := x.slots.foldl (fun s r => r.frames.foldl toPending s) s
    let s := accForget (modSt s fun t => { t with
      steps := tdel t.steps id, panes := t.panes.filter (fun kv => kv.2.step != id) }) id
    let s := match openCmd s x.cmd with
      | some o => cmdWrite s o.cmd 3 (slots.flatMap fun r => resultBytes s r false)
      | none => s
    boundaryReclaim (finish s x.cmd sOk 0 id (slots.filter (·.status != sOk)).length)

/-- Steps 2 and 3: what runs for the context stops, and its in-flight steps end; a queued step fails. -/
def stopWork (s : State) (c cause : Nat) : State :=
  let s := (s.st.jobs.filter fun j => (paneReqOf j.req).ctx == c).foldl jobDrop s
  let s := modMt s fun m => { m with work := m.work.filter (·.ctx != c) }
  let run := (s.st.steps.filter fun kv => kv.2.ctx == c && kv.2.running).map (·.1)
  let wait := s.st.steps.filter fun kv => kv.2.ctx == c && !kv.2.running
  let s := run.foldl (fun s i => stepCut s i cause) s
  wait.foldl (fun s kv => fail (modSt s fun t => { t with steps := tdel t.steps kv.1 }) kv.2.cmd sContextFault cause) s

/-! ### Objects of a context (R314 steps 4 to 6) -/

/-- Windows, plans and grammars go; queue pairs enter ERROR; an admission in progress fails. -/
def dropObjects (s : State) (c : Nat) : State :=
  let s := (tkeys s.fab.qps fun q => q.ctx == c && q.st != 3).foldl (fun s n => qpError s n sContextFault) s
  let s := (tkeys s.fab.wins fun w => w.ctx == c && w.live).foldl (fun s i => winInvalidate s i none true) s
  let s := (tkeys s.st.plans fun p => p.ctx == c).foldl (fun s i => finishAll (planFree s i) (.planIdle i) sOk 0 0 0) s
  let s := (tkeys s.st.grammars fun g => g.ctx == c).foldl grammarFree s
  (tkeys s.ce.admits fun a => a.seqRec.ctx == c).foldl (fun s j => admitFail s j sContextFault 0) s

/-- Images and adapter slots of a context go (R314 step 5 under END, CTX_DESTROY of a FAULTED context). -/
def dropItems (s : State) (c : Nat) : State :=
  let s := (tkeys s.st.images fun i => i.ctx == c).foldl (fun s i =>
    match tget s.st.images i with
    | some im => if im.st < 2 then imageFail s i sContextFault 0 else imageFree s i
    | none => s) s
  let s := (tkeys s.st.adapters fun a => a.ctx == c).foldl (fun s n => finishAll (adapterFree s n) (.adapter n) sContextFault 0 0 0) s
  modSt s fun t => { t with current := t.current.filter fun kv => kv.1 / 2 ^ 16 != c }

/-- Sequences a context owns here. -/
def seqsOf (s : State) (c : Nat) : List Nat := tkeys s.pg.seqs fun x => x.ctx == c

/-- A sequence under PAUSE: PAUSED with cause CONTEXT, its pages in place and no TTL. An offered one is so once its offer ends. -/
def ctxPause (s : State) (q : Nat) : State :=
  match seqOf s q with
  | none => s
  | some x =>
    let s := migrateEnd (stopTransfers s q) q sContextFault
    let s := finishAll (finishAll s (.pause q) sContextFault 0 0 0) (.resume q) sContextFault 0 0 0
    let s := changeSeq s q fun y => { y with
      st := if y.st = .offered then .offered else .paused, before := if y.st = .offered then .paused else y.before,
      pauseCause := 3, expiry := 0, pauseAsk := false, hintAsk := false }
    if x.st = .offered then
      modCe s fun k => { k with hinges := k.hinges.map fun h => if h.obj == ⟨false, q⟩ then { h with before := .paused } else h }
    else s

/-- A sequence ends with CONTEXT_FAULT and its references are released. -/
def ctxEnd (s : State) (q : Nat) : State := releasePages (migrateEnd (finishSeq s q .ended sContextFault) q sContextFault) q

/-- Step 5: the sequences, by FAULT_POLICY (MT[c]_CTX bit 2). -/
def ctxSeqs (s : State) (c : Nat) : State :=
  let live := (seqsOf s c).filter fun q => match seqOf s q with | some x => seqLive x | none => false
  if rbit s rMtCtx c 2 then dropItems (live.foldl ctxEnd s) c else live.foldl ctxPause s

/-- Step 6: apertures, staging SRAM and Deadbolt slices, and the registers of the context. -/
def ctxRelease (s : State) (c : Nat) : State :=
  let s := (List.range 64).foldl (fun s a => if aptOn s a && bits (rdReg s rSpApt2 a 0).toNat 10 3 == c then aptOff s a else s) s
  let s := zeroGrants s c
  let s := [rSpCtxSram0, rSpCtxSram1, rTeNumctl, rTeSrseed, rTeNumstat, rTeSatcnt, rMcTierPolicy, rMcTierCnt, rFlCtx, rTsCtx].foldl
    (fun s d => resetReg s d c 0) s
  let s := (List.range 16).foldl (fun s j => resetReg s rXeArmCtr (c * 16 + j) 0) s
  let s := modMt s fun m => { m with ctxBucket := tdel m.ctxBucket c }
  modSt s fun t => { t with passes := t.passes.filter fun kv => kv.1 / 2 ^ 44 != c }

/-- MT[c]_CTX.STATE becomes ABSENT: the reservations are released. -/
def ctxAbsent (s : State) (c : Nat) : State := touch (resetReg (resetReg (resetReg s rMtCtx c 0) rMtAlloc c 0) rMtShare c 0) (3000 + c)

/-- The teardown of a context (R314). -/
def teardown (s : State) (f : CtxFault) : State :=
  let c := f.ctx
  let s := wrReg s rMtFault c 0 (word (f.cause + f.unit * 2 ^ 8 + f.cls * 2 ^ 16 + bits f.addr 43 16 * 2 ^ 36))
  let s := wrReg s rMtFaultTime c 0 (word s.now)
  let run := (s.st.steps.filter fun kv => kv.2.ctx == c && kv.2.running).map (·.2)
  let s := ctxRelease (ctxSeqs (dropObjects (stopWork s c f.cause) c) c) c
  let s := if f.cause = 0x20 then ctxAbsent s c else wf s rMtCtx c 1 0 2
  let s := if f.cause = 0x20 then finishAll s (.teardown c) sOk 0 0 0 else s
  let s := raiseCtx s c evContextFaulted sContextFault (f.cause + f.unit * 2 ^ 8 + f.cls * 2 ^ 16) f.addr
  applyDeferred s fun d => run.any (concerns d.scope)

/-- A context fault of a context other than 0 (R313): an ACTIVE context is torn down, a FAULTED one counts it. -/
def ctxFaulted (s : State) (f : CtxFault) : State :=
  if ctxState s f.ctx = 1 then teardown s f
  else if ctxState s f.ctx = 2 then bump s rMtFault f.ctx 35 20 1
  else s

/-! ### CTX_CREATE and CTX_DESTROY -/

/-- Whether a context holds anything in use (R313, cause 0x20). -/
def ctxInUse (s : State) (c : Nat) : Bool :=
  !(seqsOf s c).isEmpty || !(tkeys s.ce.admits fun a => a.seqRec.ctx == c).isEmpty || (s.fab.qps.any fun kv => kv.2.ctx == c) ||
  (s.fab.wins.any fun kv => kv.2.ctx == c && kv.2.live) || (s.st.plans.any fun kv => kv.2.ctx == c) ||
  (s.st.images.any fun kv => kv.2.ctx == c) || (s.st.adapters.any fun kv => kv.2.ctx == c) ||
  (s.st.grammars.any fun kv => kv.2.ctx == c) || (s.fab.regions.any fun kv => kv.2.ctx == c) || decide (slotsOf s c ≠ 0) ||
  ((List.range 64).any fun a => aptOn s a && bits (rdReg s rSpApt2 a 0).toNat 10 3 == c) || decide (framesUsed s c ≠ 0)

/-- Whether CTX_DESTROY of a context waits for its regions' recalls. -/
def ctxLeaving (s : State) (c : Nat) : Bool := s.host.opens.any fun o => o.wait == .teardown c

/-- CONTEXT-paused sequences of a context created anew take EXPIRY (R315). -/
def ctxRevive (s : State) (c : Nat) : State :=
  (seqsOf s c).foldl (fun s q => match seqOf s q with
    | some x => if x.st = .paused ∧ x.pauseCause = 3 then
        changeSeq s q fun y => { y with ttl := defaultTtl s c, expiry := s.now + defaultTtl s c * 1000000000 }
      else s
    | none => s) s

/-- CTX_CREATE once no release of the context is in progress: a re-armed context's CONTEXT-paused sequences take EXPIRY (R315). -/
def ctxCreate (id : Nat) (k : Cmd) (s : State) : State :=
  let c := fld k.w1 7 0
  if c = 0 ∨ ctxState s c = 1 then fail s id sInvalidContext 0
  else match ctxCheck s c k with
    | .inl (st, d) => fail s id st d
    | .inr place =>
      finish (ctxRevive (touch (ctxInstall s c k place) (3000 + c)) c) id sOk 0 place.1.1 0

/-- What a FAULTED context still holds is released (R315): its CONTEXT-paused sequences end, and every sequence is freed. -/
def ctxFreeAll (s : State) (c : Nat) : State :=
  let s := (seqsOf s c).foldl (fun s q =>
    let s := match seqOf s q with
      | some x => if seqLive x then ctxEnd s q else s
      | none => s
    freeSeq s q) s
  let s := dropItems s c
  let s := (tkeys s.fab.qps fun q => q.ctx == c).foldl qpForget s
  let s := (tkeys s.pg.slots fun t => t.ctx == c && t.state != 2).foldl releaseSlot s
  (tkeys s.fab.regions fun r => r.ctx == c).foldl (fun s b =>
    let r := regionModRun s b (2 ^ 61 + b) true 0
    if r.1 then regionGone r.2 (self s * 2 ^ 44 + b) else r.2) s

/-- CTX_DESTROY once no release of the context is in progress. -/
def ctxDestroy (id : Nat) (k : Cmd) (s : State) : State :=
  let c := fld k.w1 7 0
  if c = 0 ∨ ctxState s c = 0 then fail s id sInvalidContext 0
  else if ctxState s c = 2 then
    let s := ctxFreeAll s c
    if s.fab.regions.any fun kv => kv.2.ctx == c then pend s id (.teardown c) else finishOk (ctxAbsent (ctxRelease s c) c) id
  else if ctxInUse s c then teardown (pend s id (.teardown c)) ⟨c, 0x20, 0, 0, 0⟩
  else finishOk (ctxAbsent (ctxRelease s c) c) id

def opCtxCreate (id : Nat) (k : Cmd) (s : State) : State :=
  let c := fld k.w1 7 0
  if ctxLeaving s c then pend s id (.teardown c) else ctxCreate id k s

def opCtxDestroy (id : Nat) (k : Cmd) (s : State) : State :=
  let c := fld k.w1 7 0
  if ctxLeaving s c then pend s id (.teardown c) else ctxDestroy id k s

/-- The releases that waited for recalls end, and the commands that waited for them act (R332). -/
def ctxLeft (s : State) : State :=
  (List.range 256).foldl (fun s c =>
    if ctxLeaving s c ∧ (s.fab.regions.any fun kv => kv.2.ctx == c) = false then
      let l := s.host.opens.filter fun o => o.wait == .teardown c
      let s := ctxAbsent (ctxRelease s c) c
      l.foldl (fun s o =>
        let s := waitFor s o.id .none
        if some o.id = (l.head?).map (·.id) then finishOk s o.id
        else if o.opcode = 0x74 then ctxCreate o.id o.cmd s else ctxDestroy o.id o.cmd s) s
    else s) s

end Sys2Proof.Machine
end

