-- ==== Sys2Proof/Machine/Upkeep.lean ====
section
/-! DEFINITION. Upkeep of the page reserve: refill with its fall-back, the pauses for space it makes and their end
(R51, R57, R58, R310, R311). -/
namespace Sys2Proof.Machine

/-- The order of R57 among sequences that wait: priority class (0 the highest), then admission. -/
def refillLe (a b : Nat × Seq) : Bool :=
  decide (a.2.priority < b.2.priority) || (a.2.priority == b.2.priority && decide (a.2.admitNo ≤ b.2.admitNo))

/-- Sequences of a state with a reserve to refill, or STARVED with a full one (R46, R58), in the order of R57. -/
def refillQueue (s : State) (p : Seq → Bool) : List (Nat × Seq) :=
  sortBy refillLe (s.pg.seqs.filter fun kv => p kv.2 && (!(bareCells kv.2).isEmpty || kv.2.st == .starved))

/-- Excess of a context's frame use over its weighted share, times the sum of the weights (R311). -/
def frameExcess (s : State) (c : Nat) : Int :=
  let act := (List.range 255).filter fun i => ctxState s (i + 1) == 1
  let sum := (act.map fun i => rf s rMtCtx (i + 1) 31 16).foldl (· + ·) 0
  (framesUsed s c * sum : Nat) - (rf s rMtPool 0 24 0 * rf s rMtCtx c 31 16 : Nat)

/-- Whether a running step works on a sequence. -/
def seqRunning (s : State) (q : Nat) : Bool :=
  s.st.steps.any fun kv => kv.2.running && kv.2.slots.any fun r => r.seq == q && r.run == 1

/-- Whether sequence y may be paused for x (R57 step 2): a lower class, or the same class and a later admission; at least
one unwritten reserved frame; no running step works on it. -/
def spaceCandidate (s : State) (x y : Nat × Seq) : Bool :=
  x.1 != y.1 && (y.2.st == .runnable || y.2.st == .starved) && !y.2.reserve.isEmpty &&
  (decide (x.2.priority < y.2.priority) || (x.2.priority == y.2.priority && decide (x.2.admitNo < y.2.admitNo))) &&
  !seqRunning s y.1

/-- The order among candidates: the starving sequence's context, then contexts by falling excess with the lower number
first among equals; the lowest class, then the latest admission (R57, R311). -/
def spaceBefore (s : State) (c : Nat) (a b : Nat × Seq) : Bool :=
  let own (y : Nat × Seq) : Nat := if y.2.ctx = c then 0 else 1
  let ea := frameExcess s a.2.ctx
  let eb := frameExcess s b.2.ctx
  if own a ≠ own b then decide (own a < own b)
  else if a.2.ctx ≠ b.2.ctx then (if ea = eb then decide (a.2.ctx < b.2.ctx) else decide (eb < ea))
  else if a.2.priority ≠ b.2.priority then decide (b.2.priority < a.2.priority)
  else decide (b.2.admitNo ≤ a.2.admitNo)

/-- Give a reserved frame of another sequence to a (layer, head group) of sequence q, charged to q's context (R57, R310). -/
def moveReserve (s : State) (q c : Nat) (cell : Nat × Nat) (f : Nat) : State :=
  let s := toReserved (setFrame s f { frame s f with ctx := c, owner := q }) f
  updSeq s q fun y => { y with reserve := y.reserve ++ [⟨cell.1, cell.2, f⟩] }

/-- Pause a candidate with PAUSE_CAUSE SPACE (R57 step 2, R58): its pages stay, its unwritten reserved frames move to the
starving sequence and the rest go to FREE-PENDING. -/
def spacePause (s : State) (q v : Nat) : State :=
  match seqOf s q, seqOf s v with
  | some x, some y =>
    let cs := bareCells x
    let s := changeSeq s v fun z => { z with st := .paused, pauseCause := 1, expiry := 0, reserve := [] }
    let s := (List.zip cs y.reserve).foldl (fun s p => moveReserve s q x.ctx p.1 p.2.frame) s
    let s := freeReserve s (y.reserve.drop cs.length)
    raiseSeq (bump s rPgFallbackCnt 0 47 32 1) y.ctx evSeqPaused 0 v 1
  | _, _ => s

/-- Take a FREE frame for one bare cell of a sequence; beyond its context's reservation when beyond is set (R310). -/
def refillOne (s : State) (q : Nat) (beyond : Bool) : Option State :=
  match seqOf s q with
  | none => none
  | some x => match (bareCells x).head? with
    | none => none
    | some cell =>
      if freeFrames s = 0 ∨ (beyond = false ∧ mayTake s x.ctx 1 = false) then none
      else match takeFrame s .reserved x.ctx .none q with
        | (some f, s) => some (updSeq s q fun y => { y with reserve := y.reserve ++ [⟨cell.1, cell.2, f⟩] })
        | (none, _) => none

/-- A sequence whose reserve cannot be filled becomes STARVED (R57 step 3). -/
def starve (s : State) (q : Nat) : State :=
  match seqOf s q with
  | none => s
  | some x =>
    if x.st ≠ .runnable then s
    else
      let s := changeSeq s q fun y => { y with st := .starved }
      raiseSeq (bump s rPgFallbackCnt 0 63 48 1) x.ctx evReserveStarved sReserveStarved q 0

/-- Whether tier 2 is full, absent, or barred for a context by its tier policy (R57 step 2). -/
def tierShut (s : State) (c : Nat) : Bool :=
  !tierFor s c || tierFull s || (List.range 3).all fun i => !rbit s rMcTierPorts 0 (52 + i)

/-- Refill the reserve of one sequence by the steps of R57 in order. Its cells, and so the rounds, are at most fuel. -/
def refillSeq_ (s : State) (q : Nat) : Nat → State
  | 0 => s
  | fuel + 1 => match seqOf s q with
    | none => s
    | some x =>
      if (bareCells x).isEmpty then (if x.st = .starved then changeSeq s q fun y => { y with st := .runnable } else s)
      else match refillOne s q false with
        | some t => refillSeq_ t q fuel
        | none =>
          let (spilling, s) := spillOne s
          if spilling || !s.pg.spills.isEmpty then starve s q
          else
            let cands := if tierShut s x.ctx then s.pg.seqs.filter fun kv => spaceCandidate s (q, x) kv else []
            match (sortBy (spaceBefore s x.ctx) cands).head? with
            | some v => refillSeq_ (spacePause s q v.1) q fuel
            | none => match refillOne s q true with
              | some t => refillSeq_ t q fuel
              | none => starve s q

/-- RESERVE_REFILL: every sequence that waits for refill, in the order of R57. -/
def reserveRefill (s : State) : State :=
  (refillQueue s fun x => x.st == .runnable || x.st == .starved).foldl (fun s kv =>
    refillSeq_ s kv.1 (2 * (bareCells kv.2).length + 2)) s

/-- SPACE_RESUME (R58): sequences paused for space resume in the order of R57 while their reserve can be taken. DESIGN CHOICE (log entry
108): the first that cannot take its reserve yet is waited for; no later one goes before it. -/
def spaceResume (s : State) : State :=
  ((sortBy refillLe (s.pg.seqs.filter fun kv => kv.2.st == .paused && kv.2.pauseCause == 1)).foldl (fun r kv =>
    if r.1 = false then r
    else match fillReserve r.2 kv.1 with
      | none => (false, r.2)
      | some s =>
        let s := changeSeq s kv.1 fun y => { y with st := .runnable }
        let s := finishAll s (.resume kv.1) sOk 0 0 0
        (true, raiseSeq s kv.2.ctx evResumeReady 0 kv.1 (leftHere s kv.1 % 2 ^ 32))) (true, s)).2

end Sys2Proof.Machine
end

