-- ==== Sys2Proof/Machine/Ports.lean ====
section
/-! DEFINITION. Ebesh ports: training, retraining, loss of the word stream, spraying state, encryption phases, and device time
(R178–R181, R189, R191, R192, R194, R197–R204). -/
namespace Sys2Proof.Machine

def portS (s : State) (n : Nat) : PortS := tgetD s.fab.ports n ⟨0, [], 0, true, [0, 0], 0⟩
def setPort (s : State) (n : Nat) (p : PortS) : State := modFab s fun f => { f with ports := tput f.ports n p }

/-- Packets that wait for a path are tried again (R191, R193). -/
def flushAll (s : State) : State :=
  (((s.fab.txs.filter fun t => t.st == 0).map (·.pkt.dst)).eraseDups).foldl flushDest s

/-- A port goes down at the cell manager: the members it reached are probed at once (R478). -/
def portProbe (s : State) (n : Nat) : State :=
  if isMgr s then
    ((probed s).filter fun d => match routeOf s d with | some w => wbit w (25 + n) | none => false).foldl
      (fun s d => (askC s d mProbe 0 0 0 0 .plain).2) s
  else s

/-- EP[n]_STATUS changes (R203): lanes in use with their width, or none. A port that leaves UP loses what it carries. -/
def portSet (s : State) (n st : Nat) (lanes : List Nat) : State :=
  let was := rf s rEpStatus n 1 0
  let old := fun (d : Nat) (p : Option Nat) => match p with
    | some p => pathPort s d p == some n
    | none => false
  let width := if lanes.length ≥ 4 then 0 else if lanes.length = 2 then 1 else if lanes.length = 1 then 2 else 0
  let s := wf (wf (wf s rEpStatus n 1 0 st) rEpStatus n 3 2 width) rEpStatus n 7 4 (lanes.foldl (fun m l => m + 2 ^ l) 0)
  if was = st then s
  else
    let s := raiseEdge s (irqPort n)
    let s := if was = 2 then portProbe (bump (portLost s n old) rEpRetx n 47 32 1) n else s
    healthNote (if st = 2 then flushAll s else s) (24 + n) 0

/-- Training starts from the first attempt (R179); the port reports DOWN first (R180). -/
def trainStart (s : State) (n : Nat) : State :=
  setPort (portSet (portSet s n 0 []) n 1 []) n { portS s n with tries := 0, best := [], started := s.now, synced := true }

/-- Lanes EP[n]_CTRL.MAX_WIDTH allows. -/
def maxLanes (s : State) (n : Nat) : Nat :=
  let w := rf s rEpCtrl n 3 2
  if w = 0 then 4 else if w = 1 then 2 else 1

/-- The lanes an attempt brings a port up on, given the lanes that pass and the width allowed (R179). -/
def widthOf (pass : List Nat) (allowed : Nat) : List Nat :=
  if allowed ≥ 4 ∧ [0, 1, 2, 3].all pass.contains then [0, 1, 2, 3]
  else if allowed ≥ 2 ∧ pass.contains 0 ∧ pass.contains 1 then [0, 1]
  else if allowed ≥ 2 ∧ pass.contains 2 ∧ pass.contains 3 then [2, 3]
  else ([0, 1, 2, 3].filter pass.contains).take 1

/-- PORT_TRAIN_DONE: one attempt of a training port ends with some lanes passing. -/
def trainDone (s : State) (n : Nat) (pass : List Nat) : State :=
  if n ≥ 24 ∨ rf s rEpStatus n 1 0 ≠ 1 ∨ rbit s rEpCtrl n 0 = false then s
  else
    let p := portS s n
    let got := widthOf pass (maxLanes s n)
    let best := if p.tries = 0 ∨ got.length > (widthOf p.best (maxLanes s n)).length then pass else p.best
    let s := setPort s n { p with tries := p.tries + 1, best := best }
    if got.length < maxLanes s n ∧ p.tries + 1 < rf s rEpLinkCtrl n 19 16 then s
    else
      let lanes := widthOf best (maxLanes s n)
      let s := wf s rEpTrain n 15 0 (sat 16 ((s.now - p.started) / 1000000))
      let fail := ([0, 1, 2, 3].filter fun l => !best.contains l).foldl (fun m l => m + 2 ^ l) 0
      let s := wf s rEpTrain n 35 32 fail
      let s := portSet s n (if lanes.isEmpty then 3 else 2) lanes
      if lanes.isEmpty ∨ lanes.length ≥ 4 then s
      else
        let s := penalise_ s (24 + n) 8192
        raiseDev s evPredictive 0 (24 + n) (healthOf s (24 + n) + rf s rHlScore (24 + n) 17 16 * 2 ^ 16 + fail * 2 ^ 32)

/-- A port that is up retrains (R180). -/
def retrainUp (s : State) (n : Nat) : State :=
  if n < 24 ∧ portUp s n then trainStart (penalise_ (bump s rEpTrain n 31 16 1) (24 + n) 512) n else s

/-- RETRAIN: the write takes an enabled port DOWN and trains it, whatever its state. -/
def retrainWrite (s : State) (n : Nat) : State :=
  if n ≥ 24 ∨ rbit s rEpCtrl n 0 = false then s
  else if portUp s n then retrainUp s n else trainStart s n

/-- EP[n]_CTRL.ENABLE (R203): a port trains when it is enabled, and is held DOWN while it is not. -/
def portEnable (s : State) (n : Nat) (on : Bool) : State :=
  let was := rbit s rEpCtrl n 0
  if was = on then s
  else if on then trainStart (wf s rEpCtrl n 0 0 1) n
  else wf (portSet s n 0 []) rEpCtrl n 0 0 0

/-- UNCORRECTABLE_BURST: the codewords a port could not correct, and the symbols it corrected, within 1 ms (R180, R302). -/
def fecInterval (s : State) (n uncorr corr : Nat) : State :=
  if n ≥ 24 ∨ portUp s n = false then s
  else
    let s := bump (bump s rEpFecCnt n 63 32 uncorr) rEpFecCnt n 31 0 corr
    let s := if corr > 1024 then penalise_ s (24 + n) 16 else s
    if uncorr > rf s rEpLinkCtrl n 15 0 then retrainUp s n else s

/-- BLOCK_LOCK_LOSS: a lane in use has lost block lock for 1 µs. -/
def blockLockLoss (s : State) (n lane : Nat) : State :=
  if n < 24 ∧ lane < 4 ∧ rbit s rEpStatus n (4 + lane) then retrainUp s n else s

/-- STREAM_PLACE_LOST (R181): frames inside the codeword are CRC drops; the receiver hunts for a frame start word. -/
def streamLost (s : State) (n frames : Nat) : State :=
  if n ≥ 24 ∨ portUp s n = false then s
  else
    let s := bump (bump s rEpFecCnt n 63 32 1) rEpRxDrop0 n 15 0 frames
    setPort s n { portS s n with synced := false }

/-- EREFCLK_LOSS (R465): the six ports of an IO die go DOWN. -/
def erefLoss (s : State) (io : Nat) : State :=
  if io ≥ 4 then s else (List.range 6).foldl (fun s i => portSet s (6 * io + i) 0 []) s

/-- DEST_STATE_IDLE (R192). -/
def destIdle (s : State) (d : Nat) : State :=
  match tget s.fab.dests d with
  | none => s
  | some x => if s.now < x.lastUsed + 100000000 ∨ (x.paths.any fun p => p.2.inflight != 0) then s
    else flushNew (modFab s fun f => { f with dests := tdel f.dests d })

/-- PATH_REROLL (R194). -/
def pathReroll (s : State) (d p : Nat) : State :=
  match tget s.fab.dests d with
  | none => s
  | some x => match tget x.paths p with
    | none => s
    | some q =>
      if q.weight ≠ 1 ∨ s.now < q.oneSince + rf s rEpCcPath 0 31 16 * 1000 then s
      else
        let q := { q with rerolls := q.rerolls + 1, weight := 16, wnd := rf s rEpCcWnd 0 23 0 }
        flushDest (bump (setDest s d { x with paths := tput x.paths p q }) rEpCcCnt 0 63 48 1) d

/-- EGRESS_NEXT_FRAME (R326): resent packets count toward the port's health (R302). -/
def egressRun (s : State) (n : Nat) : State :=
  let before := s.fab.wire.length
  let s := egressNext s n
  match s.fab.wire with
  | w :: _ =>
    if s.fab.wire.length = before ∨ w.port ≥ 24 ∨ w.pkt.retx = false then s
    else
      let p := portS s n
      if p.resent + 1 < 1024 then setPort s n { p with resent := p.resent + 1 }
      else penalise_ (setPort s n { p with resent := 0 }) (24 + n) 1
  | [] => s

/-! ### Device time -/

def modTime (s : State) (f : TimeS → TimeS) : State := modFab s fun x => { x with time := f x.time }
def timeState (s : State) : Nat := rf s rEpTimeStatus 0 1 0

/-- EP_TIME_STATUS.STATE changes (R198): source 0x230, TIME_UNLOCKED and TIME_LOCKED. The first lock after a reset lets
traffic go (R189). -/
def timeSet (s : State) (st : Nat) : State :=
  let was := timeState s
  if was = st then s
  else
    let s := raiseEdge (wf s rEpTimeStatus 0 1 0 st) irqTime
    let s := if was = 2 then raiseDev s evTimeUnlocked 0 (mgrEp s) 0 else s
    if st = 2 then raiseDev (modTime s fun t => { t with locked := true }) evTimeLocked 0 (mgrEp s) 0
    else modTime s fun t => { t with good := 0, holdAt := s.now }

/-- The cell manager is the time master, LOCKED at all times but between a reset and the moment of R201. -/
def masterLock (s : State) : State :=
  let t := s.fab.time
  if isMgr s = false ∨ timeState s = 2 ∨ s.gl.phase ≠ 2 then s
  else if t.locked then timeSet s 2
  else if s.gl.warm ∧ t.refLoss = false then (if (List.range 24).any fun n => portUp s n then timeSet s 2 else s)
  else if rbit s rEpTimeCtrl 0 16 then s else timeSet s 2

/-- A packet of the time types on the lowest-numbered port that is up, with entropy 0 (R197). -/
def timeSend (s : State) (type dst op : Nat) : State :=
  match (List.range 24).find? fun n => portUp s n with
  | none => s
  | some n =>
    let p := mkPkt s type 7 dst 0 0 0 0 0 0 op []
    toEgress s n 0 { p with entropy := 0 } none

/-- TIME_EXCHANGE_TIMER, once every INTERVAL_US: a member opens an exchange, which the master's TIME_SYNC starts; the master sends
one to each member of its cell. -/
def timeTimer (s : State) : State :=
  if (s.fab.time.exchAt.map fun a => decide (s.now < a + rf s rEpTimeCtrl 0 15 0 * 1000)) = some true then s
  else
    let s := modTime s fun t => { t with exchAt := some s.now }
    if isMgr s then
    (if timeState s ≠ 2 then s
    else ((tkeys s.ce.members fun _ => true).filter (· != self s)).foldl (fun s d => timeSend s ptTimeSync d s.now) s)
  else modTime s fun t => { t with waiting := true }

/-- TIME_SYNC at a member. -/
def timeSync (s : State) (p : Pkt) : State :=
  if isMgr s ∨ p.src ≠ mgrEp s then s
  else
    let s := modTime s fun t => { t with t1 := p.opWord, t2 := s.now, t3 := s.now, waiting := true }
    timeSend s ptTimeReq p.src s.now

/-- TIME_DELAY_REQ at the master. -/
def timeReq (s : State) (p : Pkt) : State :=
  if isMgr s ∧ timeState s = 2 then timeSend s ptTimeResp p.src s.now else s

/-- Steer the clock against an offset in ns (R199, R200): the rate changes by at most 200 ppm, slower when the device is ahead. The
amount is left open (log entry 103). -/
def steer (s : State) (off : Int) : State :=
  let (w, s) := fresh s
  let ppm : Int := (w.toNat % 201 : Nat)
  modTime s fun t => { t with rate := if off > 0 then -ppm else if off < 0 then ppm else 0 }

/-- An accepted sample of an offset in ns (R198, R199): before the first lock a member in ACQUIRING steps its time; at every other
time it changes its clock rate. -/
def timeSample (s : State) (off : Int) : State :=
  let mag := off.natAbs
  let s := wf (wf s rEpTimeStatus 0 33 2 (unsigned 32 off)) rEpTimeStatus 0 53 34 (mgrEp s)
  let s := modTime s fun t => { t with lastSample := s.now }
  let s := if timeState s = 0 then timeSet s 1 else s
  let st := timeState s
  if st = 1 then
    let good := if mag ≤ 50 then s.fab.time.good + 1 else 0
    let s := modTime s fun t => { t with good := good }
    let s := if s.fab.time.locked then steer s off else { s with now := ((s.now : Int) - off).toNat }
    let s := modTime s fun t => { t with lastSample := s.now }
    if good ≥ 8 then timeSet s 2 else s
  else
  let s := steer s off
  if st = 2 then (if mag > 1000 then timeSet s 1 else s)
  else if mag ≤ 50 then timeSet s 2
  else if mag > 1000 then timeSet s 1
  else s

/-- TIME_DELAY_RESP at a member: a sample whose delay exceeds the lowest of its last 16 by more than 200 ns is discarded. Which way
a half nanosecond of offset goes is left open (log entry 5). -/
def timeResp (s : State) (p : Pkt) : State :=
  let t := s.fab.time
  if isMgr s ∨ p.src ≠ mgrEp s ∨ t.waiting = false then s
  else
    let fwd : Int := (t.t2 : Int) - t.t1
    let back : Int := (p.opWord : Int) - t.t3
    let delay := (fwd + back) / 2
    let (w, s) := fresh s
    let off := (fwd - back + (w.toNat % 2 : Nat)) / 2
    let low := t.delays.foldl min delay
    let s := modTime s fun t => { t with waiting := false, delays := (delay :: t.delays).take 16 }
    if delay > low + 200 then s else timeSample s off

/-- HOLDOVER_ENTRY: no accepted sample for 16 intervals. -/
def holdoverEntry (s : State) : State :=
  if isMgr s ∨ timeState s ≠ 2 ∨ s.now < s.fab.time.lastSample + 16 * rf s rEpTimeCtrl 0 15 0 * 1000 then s else timeSet s 3

/-- HOLDOVER_LIMIT: 10 s in HOLDOVER. -/
def holdoverLimit (s : State) : State :=
  if timeState s ≠ 3 ∨ s.now < s.fab.time.holdAt + 10000000000 then s else timeSet s 1

/-- PPS_IN_EDGE (R201, R462): a master that waits for it steps to the nearest whole second and is LOCKED; one that is LOCKED steers
its whole seconds to the edges (R200). Of two seconds equally near, which is left open (log entry 5). -/
def ppsEdge (s : State) : State :=
  let s := raiseEdge s irqPps
  if isMgr s = false ∨ s.gl.phase ≠ 2 ∨ rbit s rEpTimeCtrl 0 16 = false then s
  else
    let (w, s) := fresh s
    let sec := 1000000000
    let up := s.now % sec > sec / 2 || (s.now % sec == sec / 2 && w.toNat % 2 == 1)
    if s.fab.time.locked ∨ timeState s = 2 ∨ (s.gl.warm ∧ s.fab.time.refLoss = false) then
      steer s ((s.now % sec : Nat) - (b2n up * sec : Nat))
    else timeSet { s with now := (s.now / sec + b2n up) * sec } 2

/-- EP_SELF.LOCK (R204): set once, until a cold reset. -/
def epSelfLock (s : State) : State := flushAll (wf s rEpSelf 0 20 20 1)

/-- EP_TIME_SET (R204). -/
def epTimeSet (s : State) (ns : Nat) : State :=
  if rbit s rEpSelf 0 20 then rsvdWrite s else { s with now := ns % 2 ^ 64 }

end Sys2Proof.Machine
end

