-- ==== Sys2Proof/Machine/Shutter.lean ====
section
/-! DEFINITION. The Shutter (R432–R439): opening, and closing as the steps of R434. shutterSettle takes every step of a close
that is due; it runs at the end of each command. -/
namespace Sys2Proof.Machine

def modClose (s : State) (f : CloseS → CloseS) : State := modGl s fun g => { g with close := f g.close }

/-- Range check of SHUTTER_CLOSE. -/
def closeCheck (c : Cmd) : Bool := decide (fld c.w1 31 0 ≤ 600000)

/-- Start a close, or join the one that runs: the earlier deadline applies (R437). -/
def shutterClose (s : State) (drainMs : Nat) (cmd : Option Nat) : State :=
  let at_ := s.now + drainMs * 1000000
  let ids := match cmd with | some id => [id] | none => []
  if shutter s = 0 then ids.foldl (fun s id => finishOk s id) s
  else
    let s := ids.foldl (fun s id => pend s id .shutter) s
    if shutter s = 1 then modClose s fun x => { x with drainAt := Nat.min x.drainAt at_, cmds := x.cmds ++ ids }
    else
      let s := wf (wf (wf s rGlStatus 0 2 1 1) rGlShutter 0 39 21 0) rGlShutter 0 58 40 0
      modClose s fun _ => ⟨2, at_, false, ids, 0, 0, [], [], [], 0, 0⟩

def opShutterClose (id : Nat) (c : Cmd) (s : State) : State :=
  if closeCheck c then shutterClose s (fld c.w1 31 0) (some id) else fail s id sInvalidParam 0

/-- The checks of R438, in order: the detail of the first that fails. -/
def openCheck (s : State) : Option Nat :=
  if (List.range 21).any (fun n => rf s rGlD2dStatus n 7 5 == 4) then some 1
  else if lcState s = 4 then some 2
  else if lcState s ≤ 1 ∧ mode s ≠ 2 then some 3
  else if rbit s rEpSelf 0 20 = false then some 4
  else if (List.range 24).all (fun n => stackDead s n) then some 5
  else none

/-- The Shutter opens: JOINED to the cell manager, the reply of the command, then SHUTTER_CHANGED 1 (R343). -/
def shutterOpened (s : State) (id : Nat) : State :=
  let s := wf s rGlStatus 0 2 1 2
  let s := (askC s (mgrEp s) mJoined 0 (role s) 0 0 .joined).2
  raiseDev (finishOk s id) evShutterChanged 0 1 0

def opShutterOpen (id : Nat) (_ : Cmd) (s : State) : State :=
  if shutter s = 1 then fail s id sInvalidParam 0
  else if shutter s = 2 then finishOk s id
  else
    let s := pend s id .shutter
    match openCheck s with
    | some d => fail s id sShutterClosed d
    | none => shutterOpened s id

/-! ### Closing -/

/-- Sequences this controller owns and the objects of R434 step 3: sequences in ascending SEQ_ID, then regions. -/
def ownedObjs (s : State) : List Obj :=
  (tkeys s.pg.seqs fun x => decide (x.st ≠ .admitting)).map (fun q => ⟨false, q⟩) ++ (tkeys s.ce.regs fun _ => true).map fun a => ⟨true, a⟩

/-- A pause of step 2 (R435): PAUSE_CAUSE HOST and the context's default TTL; OPEN pages are sealed, every tail page is
striped and every member FLUSHed, nothing is spilled here; the holders spill as usual. -/
def closePause (s : State) (q : Nat) : State :=
  match seqOf s q with
  | none => s
  | some x =>
    if x.st = .paused then (if x.unstriped.isEmpty then s else flushAsk (stripeForm s q true) q)
    else if !(x.st == .runnable || x.st == .starved) then s
    else
      let s := flushAsk (stripeForm (sealOpen s q) q true) q
      let s := freeReserve s (((seqOf s q).map (·.reserve)).getD [])
      let kept := (((seqOf s q).map fun y => (ownPages s q y).length)).getD 0
      let s := changeSeq s q fun y => { y with
        st := .pausing, pauseCause := 0, ttl := defaultTtl s x.ctx, reserve := [], pauseAsk := false }
      let (_, s) := jrStart s jrMigrate q 0 (migrateOf q 0)
      let (ids, s) := askHolders s q mSpillReq x.ctx (.spill q)
      modPg s fun p => { p with reports := tput p.reports q ⟨0, ids, 0, kept, s.now, true⟩ }

/-- Release a Latch to the cell manager (R436). -/
def releaseLatch (s : State) (o : Obj) : State :=
  let at_ := if o.region then (tget s.ce.regs o.id).map fun r => (o.id / 2 ^ 44, r.epoch)
    else (seqOf s o.id).map fun x => (x.home, x.epoch)
  match at_ with
  | none => s
  | some (home, epoch) => askL s home { lmsg mLatchRelease o epoch with owner := self s } (.release o)

def ownsObj (s : State) (o : Obj) : Bool := if o.region then thas s.ce.regs o.id else (seqOf s o.id).isSome

/-- Step 3 for the Latches left: at most 1,024 offers pend; one that ends without a transfer is released. -/
def closeOffers (s : State) : State :=
  let ended := s.gl.close.offers.filter fun o => (hingeOf s o).isNone
  let s := ended.foldl (fun s o =>
    let s := modClose s fun x => { x with offers := x.offers.filter (· != o), handed := x.handed + b2n (!ownsObj s o) }
    if ownsObj s o then releaseLatch s o else s) s
  let n := 1024 - s.gl.close.offers.length
  let now := if rbit s rGlShutter 0 20 then s.gl.close.todo.take n else s.gl.close.todo
  let s := modClose s fun x => { x with todo := x.todo.drop now.length }
  now.foldl (fun s o =>
    if ownsObj s o = false then s
    else if (hingeOf s o).isSome then modClose s fun x => { x with offers := x.offers ++ [o] }
    else if rbit s rGlShutter 0 20 then
      let s := hingeStart s o (rf s rGlShutter 0 19 0) none
      if (hingeOf s o).isSome then modClose s fun x => { x with offers := x.offers ++ [o] } else releaseLatch s o
    else releaseLatch s o) s

/-- Requests to release a Latch not yet answered. -/
def releasing (s : State) : Bool := s.ce.reqs.any fun kv => match kv.2.use with | .release _ => true | _ => false

/-- Take the step of a close that is due, when one is. -/
def closeStep (s : State) : State :=
  let c := s.gl.close
  match c.step with
  | 2 =>
    if c.drained = false ∨ s.st.steps ≠ [] then s
    else
      let s := (tkeys s.pg.seqs fun _ => true).foldl closePause s
      if s.pg.reports ≠ [] ∨ (s.ce.stripes.any fun kv => kv.2.st < 2) then s
      else closeOffers (modClose s fun x => { x with step := 3, todo := ownedObjs s })
  | 3 =>
    let s := closeOffers s
    if s.gl.close.todo ≠ [] ∨ s.gl.close.offers ≠ [] ∨ releasing s then s
    else
      let hs := tkeys s.ce.homes fun _ => true
      let s := if hs.isEmpty then s else (askC s (mgrEp s) mHomeUnreachable 0 (self s) 0 0 .closing).2
      modClose s fun x => { x with step := 4, promoting := hs }
  | 4 =>
    if c.promoting.any (fun q => thas s.ce.homes q) then s
    else
      let s := (tkeys s.fab.qps fun q => q.ctx != 0 && q.st == 1).foldl (fun s n => qpDrain s n) s
      modClose s fun x => { x with step := 5, step5At := s.now }
  | 5 =>
    if s.fab.qps.any (fun kv => kv.2.ctx != 0 && kv.2.st == 2) then s
    else
      let s := (askC s (mgrEp s) mLeaving 0 (role s) 0 0 .leaving).2
      modClose s fun x => { x with step := 7, step7At := s.now }
  | _ => s

/-- Take every step of a close that is due. -/
def shutterSettle (s : State) : State :=
  if shutter s ≠ 1 then s
  else closeStep (closeStep (closeStep (closeStep s)))

/-- SHUTTER_DRAIN_EXPIRY: DRAIN_MS has passed. -/
def drainExpiry (s : State) : State :=
  if shutter s = 1 ∧ s.gl.close.drained = false ∧ s.gl.close.drainAt ≤ s.now then modClose s fun x => { x with drained := true } else s

/-- SHUTTER_QP_DRAIN_TIMEOUT: 10 ms into step 5. -/
def qpDrainTimeout (s : State) : State :=
  if shutter s = 1 ∧ s.gl.close.step = 5 ∧ s.gl.close.step5At + 10000000 ≤ s.now then
    (tkeys s.fab.qps fun q => q.ctx != 0 && q.st == 2).foldl (fun s n => qpError s n 0) s
  else s

/-- Whether egress is empty and every windowed packet acknowledged. -/
def egressEmpty (s : State) : Bool := s.fab.txs.isEmpty && s.mt.drr.all fun kv => kv.2.queue.isEmpty

/-- SHUTTER_EGRESS_DRAINED: step 8. What is left is discarded (R434). -/
def egressDrained (s : State) : State :=
  let c := s.gl.close
  if shutter s = 1 ∧ c.step = 7 ∧ (egressEmpty s ∨ c.step7At + 8000000 ≤ s.now) then
    let s := modMt s fun m => { m with drr := m.drr.map fun kv => (kv.1, { kv.2 with queue := [] }) }
    let s := s.fab.txs.foldl (fun s t => dropTx s t.id) s
    let s := wf (wf (wf s rGlStatus 0 2 1 0) rGlShutter 0 39 21 c.handed) rGlShutter 0 58 40 c.released
    let s := modClose s fun x => { x with step := 8, cmds := [] }
    let s := c.cmds.foldl (fun s id => finish s id sOk 0 c.handed c.released) s
    raiseDev s evShutterChanged 0 0 0
  else s

end Sys2Proof.Machine
end

