-- ==== Sys2Proof/Machine/Links.lean ====
section
/-! DEFINITION. The host port, the auxiliary ports and the CXL ports (R155, R157, R442, R450–R456). -/
namespace Sys2Proof.Machine

/-- GL_PORT_STATUS[i].STATE changes: source 0x235 + i, and departures from UP are counted (R467). -/
def linkSet (s : State) (i st : Nat) : State :=
  let was := rf s rGlPortStatus i 1 0
  if was = st then s
  else
    let s := raiseEdge (wf s rGlPortStatus i 1 0 st) (irqLink i)
    if was = 2 then bump s rGlPortStatus i 63 48 1 else s

/-- A link comes UP at a rate and width; 64 GT/s uses FLIT mode, and so do CXL's 256 B flits (R450, R455). -/
def linkUp (s : State) (i rate width : Nat) : State :=
  let s := wf (wf s rGlPortStatus i 3 2 rate) rGlPortStatus i 8 4 width
  linkSet (wf s rGlPortStatus i 11 11 (b2n (rate == 2))) i 2

/-- A link is DOWN: no rate, width or FLIT mode is in use. -/
def linkDown (s : State) (i : Nat) : State :=
  linkSet (wf (wf (wf s rGlPortStatus i 3 2 0) rGlPortStatus i 8 4 0) rGlPortStatus i 11 11 0) i 0

/-! ### HP -/

def modGlobal (s : State) (f : GlobalS → GlobalS) : State := modGl s f

/-- Every command ring and event queue stops (R452): RING_ACCESS is set; replies and events that have no place are discarded, and
the events are counted (R363). A stopped event queue takes no event until it is enabled again. -/
def hostStop (s : State) : State :=
  let s := (List.range 256).foldl (fun s q =>
    if rbit s rCqCtrl q 0 then
      let s := stopRing (wf s rCqErr q 1 1 1) q
      setRing s q { ring s q with access := true, gen := (ring s q).gen + 1 }
    else s) s
  (List.range 64).foldl (fun s e =>
    if rbit s rEqCtrl e 0 then
      let q := evq s e
      wf (setEvq s e { q with held := [], lost := sat 16 (q.lost + q.held.length) }) rEqCtrl e 0 0 0
    else s) s

/-- HP_HOT_RESET (R452): a hot reset or a link disable returns HP's configuration space to its defaults, which disables the BARs
and MSI-X. kind: 0 hot reset, 1 link disable, 2 HP leaves L0 without either (R442). -/
def hpReset (s : State) (kind : Nat) : State :=
  let s := linkDown s 0
  let s := modGlobal s fun g => { g with
    hp := if kind = 1 then .disabled else .down, hpOutAt := some (g.hpOutAt.getD s.now), hpWiped := g.hpWiped || decide (kind < 2) }
  if kind ≥ 2 then s else modIntr s fun i => { i with unmasked := [], pba := [] }

/-- HP_RETURN (R452, R442): HP is in L0 again. After a reset of its configuration space, or a host loss, the rings and queues
stop; else nothing has changed (R444). -/
def hpReturn (s : State) (rate width : Nat) : State :=
  if s.gl.hp = .l0 then s
  else
    let stop := s.gl.hpWiped || rbit s rGlStatus 0 6
    let s := linkUp s 0 rate width
    let s := modGlobal s fun g => { g with hp := .l0, hpOutAt := none, hpWiped := false }
    let s := wf s rGlStatus 0 6 6 0
    if stop then hostStop s else s

/-- D3HOT_ENTRY (R452). -/
def d3hot (s : State) : State := if s.gl.hp = .l0 then hostStop (modGlobal s fun g => { g with hp := .d3hot }) else s

/-- HP_PERST_DEASSERT (R430): HP starts link training when its rails are good. -/
def perstOff (s : State) (railsGood : Bool) : State :=
  let s := modGlobal s fun g => { g with perst := false }
  if railsGood then linkSet (modGlobal s fun g => { g with hp := .training }) 0 1 else s

/-- HOST_LOSS (R442): HP has been out of L0 for HOST_LOSS_MS without PERST#. Replies are discarded from now on. -/
def hostLoss (s : State) : State :=
  match s.gl.hpOutAt with
  | none => s
  | some at_ =>
    if s.gl.perst ∨ rbit s rGlStatus 0 6 ∨ s.now < at_ + rf s rGlHotplug 0 15 0 * 1000000 then s
    else
      let s := hostStop (wf s rGlStatus 0 6 6 1)
      if rbit s rGlHotplug 0 16 ∧ shutter s = 2 then shutterClose s 0 none else s

/-! ### CXL ports: 0 T2P, 1 AUX0, 2 AUX1 -/

def cxlOf (s : State) (i : Nat) : CxlS := s.gl.cxl.getD i ⟨none, [], []⟩
def setCxl (s : State) (i : Nat) (x : CxlS) : State := modGlobal s fun g => { g with cxl := g.cxl.set i x }

/-- Whether a port runs CXL: T2P always, AUXn by its strap (R454). -/
def cxlMode (s : State) (i : Nat) : Bool := i == 0 || (decide (i < 3) && !rbit s rGlStrap 0 (i - 1))

/-- Map the attached capacity (R155): T2P, AUX0, AUX1 in whole GiB, up to 4 TiB; the excess is reported. -/
def tierMap (s : State) : State :=
  let got := (List.range 3).map fun i => if cxlMode s i then ((cxlOf s i).devices.foldl (· + ·) 0) / 1024 else 0
  let step := fun (a : List Nat × Nat) (g : Nat) => let n := Nat.min g (4096 - a.2); (a.1 ++ [n], a.2 + n)
  let (maps, used) := got.foldl step ([], 0)
  let s := wf (wf (wf s rMcTierPorts 0 12 0 (maps.getD 0 0)) rMcTierPorts 0 25 13 (maps.getD 1 0)) rMcTierPorts 0 38 26 (maps.getD 2 0)
  let s := wf s rMcTierPorts 0 51 39 (sat 13 (got.foldl (· + ·) 0 - used))
  wf s rMcTierStatus 0 25 0 (slotsTotal s)

/-- Slots are lost (R157, R456): their pages are poisoned sealed pages, and an image or adapter loses its tier-2 copy. -/
def slotsLost (s : State) (lost : Nat → Bool) : State :=
  let s := (s.pg.spills.filter fun x => lost x.slot).foldl spillFail s
  let s := (s.pg.prefetches.filter fun x => lost x.slot).foldl prefetchStop s
  let s := modPg s fun p => { p with slots := p.slots.map fun kv => if lost kv.1 then (kv.1, { kv.2 with state := 3 }) else kv }
  let imgs := s.st.images.foldl (fun s kv =>
    if kv.2.slots.any lost then
      modSt (kv.2.slots.foldl releaseSlot s) fun t => { t with images := tmod t.images kv.1 fun x => { x with slots := [] } }
    else s) s
  s.st.adapters.foldl (fun s kv =>
    if kv.2.slots.any lost then
      modSt (kv.2.slots.foldl releaseSlot s) fun t => { t with adapters := tmod t.adapters kv.1 fun x => { x with slots := [] } }
    else s) imgs

/-- Write a new 64 B marker at the base of a port's range (R157): its value is open (log entry 3). -/
def markerWrite (s : State) (i : Nat) : State :=
  let r := (List.range 8).foldl (fun (a : List Byte × State) _ => let (w, s) := fresh a.2; (a.1 ++ toLE 8 w.toNat, s)) ([], s)
  let s := wrMem r.2 (slotAddr 0 + portBase r.2 i) r.1
  setCxl s i { cxlOf s i with marker := some (ofLE r.1) }

/-- Ports that have not come back by the end of a warm reset lose their slots (R157). -/
def portsGone (s : State) : State :=
  (List.range 3).foldl (fun s i =>
    if (cxlOf s i).marker.isSome ∧ rbit s rMcTierPorts 0 (52 + i) = false then
      setCxl (slotsLost s fun n => slotPort s n == some i) i { cxlOf s i with marker := none }
    else s) s

/-- CXL_LINK_UP: a port comes up with its devices, in MiB, and what is read at the marker's place. A marker that matches keeps the
port's slots; else they are lost and a new marker is written. -/
def cxlUp (s : State) (i : Nat) (devices : List Nat) (marker : Option Nat) (rate width : Nat) : State :=
  if cxlMode s i = false then s
  else
    let x := cxlOf s i
    let keep := x.marker.isSome && marker == x.marker && devices == x.devices
    let s := if keep ∨ x.marker.isNone then s else slotsLost s fun n => slotPort s n == some i
    let s := setCxl s i { x with devices := devices, gone := [] }
    let s := tierMap (linkUp s (i + 1) rate width)
    let s := wf (wf s rMcTierPorts 0 (52 + i) (52 + i) 1) rGlPortStatus (i + 1) 15 12 (Nat.min 8 devices.length)
    if keep then s else markerWrite s i

/-- CXL_LINK_DOWN: spills under way at the port fail, and prefetches are reads in error that stop with their pages still spilled
(R162, R174; log entry 104); its slots wait for the marker. -/
def cxlDown (s : State) (i : Nat) : State :=
  if cxlMode s i = false ∨ rbit s rMcTierPorts 0 (52 + i) = false then s
  else
    let here := fun n => slotPort s n == some i
    let s := (s.pg.spills.filter fun x => here x.slot).foldl spillFail s
    let s := (s.pg.prefetches.filter fun x => here x.slot).foldl (fun s x => prefetchStop (prefetchDone s x false) x) s
    wf (linkDown (wf s rMcTierPorts 0 (52 + i) (52 + i) 0) (i + 1)) rGlPortStatus (i + 1) 15 12 0

/-- Devices of a port that are mapped. -/
def cxlCount (s : State) (i : Nat) : State :=
  let x := cxlOf s i
  wf s rGlPortStatus (i + 1) 15 12 (Nat.min 8 (x.devices.length - x.gone.length))

/-- CXL_DEVICE_REMOVED (R456): every slot on a device that is removed or silent is lost. -/
def cxlRemoved (s : State) (i d : Nat) : State :=
  let x := cxlOf s i
  if cxlMode s i = false ∨ d ≥ x.devices.length ∨ x.gone.contains d then s
  else cxlCount (setCxl (slotsLost s fun n => slotPort s n == some i && slotOnDevice s i d n) i { x with gone := d :: x.gone }) i

/-- CXL_DEVICE_RETURN (R456): a device returns, or one is added behind the last; its range is mapped after a new marker. -/
def cxlReturn (s : State) (i d mib : Nat) : State :=
  let x := cxlOf s i
  if cxlMode s i = false ∨ rbit s rMcTierPorts 0 (52 + i) = false then s
  else if x.gone.contains d then cxlCount (markerWrite (setCxl s i { x with gone := x.gone.filter (· != d) }) i) i
  else if d = x.devices.length ∧ d < 8 then
    cxlCount (markerWrite (tierMap (setCxl s i { x with devices := x.devices ++ [mib] })) i) i
  else s

/-- More than 1,024 corrected errors of a device behind a CXL port in a second are a predictive event of that port (R456). -/
def cxlCorrected (s : State) (port : Option Nat) (corr : Nat) : State :=
  match port with
  | some i => if corr > 1024 then
      raiseDev s evPredictive 0 (57 + i) (healthOf s (57 + i) + rf s rHlScore (57 + i) 17 16 * 2 ^ 16 + (i + 1) * 2 ^ 32) else s
  | none => s

/-- CXL_READ_TIMEOUT (R162, R456): a read of a slot with no completion after 2 ms is in error: a prefetch's, or one of a slot of
a step or of a holder's job. corr is how many corrected errors the slot's device has reported within 1 s. -/
def cxlTimeout (s : State) (n : Nat) (reader : Option (Nat × Nat × Option Nat)) (corr : Nat) (solved : Bool) : State :=
  let s := match s.pg.prefetches.find? (·.slot == n) with
    | some x => prefetchDone s x false
    | none => s
  let s := match reader with
    | some (id, i, job) => tierReadLate s id i job 1 true solved
    | none => s
  cxlCorrected s (slotPort s n) corr

/-- AUX_PERST (R454): in endpoint mode the assertion resets only that port. -/
def auxPerst (s : State) (n : Nat) : State :=
  if n > 1 ∨ cxlMode s (n + 1) then s else linkDown s (n + 2)

end Sys2Proof.Machine
end

