-- ==== Sys2Proof/Machine/Reset.lean ====
section
/-! DEFINITION. Resets, cold bring-up and READY (R18–R20, R148, R154, R299, R300, R387–R389, R400, R420–R431, R439, R471). A
reset is taken in two steps: its trigger, which ends what the reset ends, and READY, where bring-up is over and what it finds
takes effect. -/
namespace Sys2Proof.Machine

/-- Keep only the stored registers that satisfy a test: the others return to their reset values. -/
def keepRegs (s : State) (p : Nat → Bool) : State := { s with regs := s.regs.filter fun kv => p kv.1 }

/-- Whether an address is an instance of one of some registers. -/
def isReg (ds : List RegDesc) (a : Nat) : Bool := ds.any fun d => (regMatch d a).isSome

/-! ### The trigger of a warm reset (R423 steps 1 to 4) -/

/-- Rings and event queues lose ENABLE and their indexes (R421); replies of commands taken earlier are never written. -/
def warmHost (s : State) : State :=
  let rings := s.host.rings.map fun kv => (kv.1, { kv.2 with gen := kv.2.gen + 1, sqHead := 0, sqTail := 0, cqHead := 0, cqTail := 0 })
  let eqs := s.host.eqs.map fun kv => (kv.1, { kv.2 with head := 0, tail := 0, held := [], lostReport := 0 })
  let keep (x : Deferred) : Bool := match x.act with
    | .setMode _ | .setShare _ | .setTierPolicy _ | .setPowerCap _ | .cancelSeq _ | .endSeq _ _ | .adapterSwitch _ | .tailSwitch _ => true
    | _ => false
  let s := modHost s fun h => { h with
    rings := rings, eqs := eqs, opens := [], txns := [], txnEnds := [], deferred := h.deferred.filter keep }
  { s with regs := s.regs.map fun kv => if isReg [rCqCtrl, rEqCtrl] kv.1 then (kv.1, setFld kv.2 0 0 0) else kv }

/-- Steps end: what their units did counts for nothing, the frames they took go back, and holders drop the panes they were
computing (R424). -/
def warmSteps (s : State) : State :=
  let s := s.st.jobs.foldl jobDrop s
  let s := s.st.steps.foldl (fun s kv => kv.2.slots.foldl (fun s r => r.frames.foldl toPending s) s) s
  let s := (tkeys s.st.adapters fun a => a.loaded == false).foldl adapterFree s
  modMt (modSt s fun t => { t with
    steps := [], panes := [], jobs := [], accs := [], passes := [], teImage := [], counted := [] }) fun m => { m with work := [], vt := [], faults := [], teLive := [], teSaved := [], runs := [] }

/-- Transfers end: a spill leaves its page where it is, a prefetch its page in its slot (R299). -/
def warmTransfers (s : State) : State :=
  let s := s.pg.spills.foldl spillFail s
  let s := s.pg.prefetches.foldl (fun s x => toPending s x.frame) s
  let s := [0, 1, 2].foldl cxlDown (modPg s fun p => { p with prefetches := [], holdJobs := [] })
  modPg s fun p => { p with seqs := p.seqs.map fun kv => (kv.1, { kv.2 with pauseAsk := false, hintAsk := false, cancelAsk := [] }) }

/-- The fabric is reset: ports are DOWN, and queue pairs, windows, tracking, access sequences and directories are gone. A window
keeps its generation's history (R421, R250), a region its record. -/
def warmFabric (s : State) : State :=
  let s := (List.range 24).foldl (fun s n => portSet s n 0 []) s
  let s := modFab s fun f => { f with
    ports := f.ports.map (fun kv => (kv.1, { kv.2 with tries := 0, best := [], synced := false })), dests := [], txs := [], qps := [], msgs := [],
    wins := f.wins.map (fun kv => (kv.1, { kv.2 with live := false, bound := none, ctr := none, sink := none, pend := [] })), tracks := [],
    fw := [], fwFail := [], inbox := [], recalled := [], accs := [], accWins := [], atomics := [],
    regions := f.regions.map (fun kv => (kv.1, { kv.2 with recallOp := none })), dir := [], lines := [], probes := [], dead := [],
    time := { f.time with waiting := false, delays := [], locked := false } }
  modMt (wf s rEpTimeStatus 0 1 0 0) fun m => { m with shape := [], ctxBucket := [], polC := [], polP := [], drr := [] }

/-- Messages outstanding are lost; an offer still being prepared is resolved by asking the home. -/
def warmCell (s : State) : State :=
  let s := s.ce.admits.foldl (fun s kv =>
    let x := kv.2.seqRec
    let s := freeReserve s kv.2.frames
    if x.hasAdapter then unpinAdapter s x.ctx x.adapterId x.adapterVer else s) s
  modCe s fun c => { c with
    reqs := [], gates := [], logJobs := [], admits := [], jrWaits := []
    hinges := c.hinges.map (fun h => { h with cmd := none, phase := if h.phase = 0 then 1 else h.phase })
    own := c.own.map (fun kv => (kv.1, { kv.2 with sent := [] }))
    stripes := c.stripes.map (fun kv => (kv.1, if kv.2.st = 3 then kv.2 else { kv.2 with st := 2, waiting := [] })) }

/-- Interrupts, sprint, sleep and apertures (R375, R386, R414, R423 step 4); staging SRAM but the Deadbolt and the Sill is zeroed
(R387), which clears the poison marks of its words and leaves every bank awake. -/
def warmDevice (s : State) : State :=
  let s := (List.range 64).foldl aptOff s
  let s := modIntr s fun i => { i with hostPend := [], corePend := [], asserted := [], active := [], wfi := [], vecs := [], pba := [] }
  let s := wf (if inSprint s then ratePoint s false else wearAccrue s) rPmStatus 0 3 1 0
  let s := modPower s fun x => { x with
    target := nomMv s, asks := [], maxMs := 0, cause := none, expired := 0, thermLimit := none, stopTiles := false }
  let s := limitNote (wf (wf s rPmPace 0 8 0 256) rPmPace 0 17 9 256)
  let s := modSleep s fun _ => ⟨[], unitKeys, [], [(0, s.now), (1, s.now)], [], [], []⟩
  let s := modGlobal s fun g => { g with close := ⟨0, 0, false, [], 0, 0, [], [], [], 0, 0⟩ }
  let low := sramBase 0 + 0x900000
  let high := sramBase 1 + sramBytes
  let s := { s with mem := s.mem.filter fun c => decide (c.1 < low ∨ high ≤ c.1) }
  let s := modPg s fun p => { p with poison := p.poison.filter fun a => decide (a < low ∨ high ≤ a) }
  let s := { s with regs := s.regs.map fun kv => if isReg [rIcVec] kv.1 then (kv.1, setFld kv.2 20 19 0) else kv }
  keepRegs s fun a => !isReg [rTeContext, rXeContext, rTuContext, rCuContext, rHpIdleHint, rSpBankState] a

/-- Reset storm (R422): whether an unrequested warm reset now is the third within 600 s. -/
def stormNow (s : State) : Bool := decide (3 ≤ (s.gl.fatals.filter fun t => decide (s.now < t + 600000000000)).length)

/-- A line on UART_TX (R461; log entry 101). -/
def uartSend (s : State) (l : UartLine) : State := modGlobal s fun g => { g with uart := { g.uart with tx := l :: g.uart.tx } }

/-- Boot lines of a reset (R461): its cause and that it begins. -/
def uartReset (s : State) : State := uartSend (uartSend s (.resetCause (rdReg s rGlResetCause 0 0))) (.progress 0)

/-- The console at the end of bring-up (R461): a progress line; in BLANK and MANUFACTURING also firmware's output, and the input
that arrived, which later states ignore. -/
def uartReady (s : State) (step : Nat) (rx : List Byte) : State :=
  let s := uartSend s (.progress step)
  if 2 ≤ lcState s then s
  else
    let (w, s) := fresh s
    modGlobal (uartSend s (.console w)) fun g => { g with uart := { g.uart with rx := g.uart.rx ++ rx } }

/-- A warm reset is triggered for a cause of GL_RESET_CAUSE.LAST with a code of R422: requested by WARM_RESET (3), or not. A
cold bring-up in progress stands (R420). While GL_STATUS.RESET_STORM is set a fatal error stops the fast domains, and no other
unrequested warm reset happens (R422). -/
def warmBegin (s : State) (last code : Nat) : State :=
  let fromRef := last == 5 && rbit s rGlStatus 0 3
  if s.gl.phase = 3 ∧ (fromRef = false ∨ s.gl.pins.contains 0 = true) then s
  else if s.gl.phase = 1 ∧ s.gl.warm = false ∧ fromRef = false then s
  else if rbit s rGlStatus 0 5 ∧ last ≠ 3 then (if last = 4 then modGlobal (wf s rGlStatus 0 0 0 0) fun g => { g with phase := 3 } else s)
  else
    let s := if shutter s = 1 then raiseDev (wf s rGlStatus 0 2 1 0) evShutterChanged 0 0 0 else s
    let s := timeSet s 0
    let s := warmDevice (warmCell (warmFabric (warmTransfers (warmSteps (warmHost s)))))
    let s := wf (wf s rGlStatus 0 0 0 0) rGlStatus 0 3 3 0
    let s := bump (wf (wf s rGlResetCause 0 3 0 last) rGlResetCause 0 11 4 code) rGlResetCause 0 27 12 1
    let s := modGlobal s fun g => { g with
      phase := 1, warm := true, resetAt := s.now, fatals := if last = 3 then g.fatals else s.now :: g.fatals
      sleep := { g.sleep with gated := unitKeys, waking := [], pllIdle := [(0, s.now), (1, s.now)], plls := [], pllWake := [] } }
    let s := uartReset (modTime s fun t => { t with refLoss := last == 5 })
    (List.range 24).foldl (fun s n => if rbit s rEpCtrl n 0 then trainStart s n else s) s

/-! ### Cold and power-on reset (R420, R421, R429) -/

/-- Whether a write is the trip record, which the always-on domain makes without firmware (R32). -/
def isTrip : FlashItem → Bool
  | .trip _ _ _ => true
  | _ => false

/-- A cold or power-on reset: everything returns to its reset value but fuses and configuration flash. A flash write in progress
ends, for its energy was checked, and a trip record that waited behind it is written. What was sent to the outside is the model's
record and stays. -/
def coldBegin (s : State) (last : Nat) : State :=
  let f := (modFlash s fun f => { f with queue := f.queue.filter isTrip })
  let f := (flashDone (flashDone f).2).2
  let f := match s.gl.flash.busy with
    | some (.lifecycle t o) => lcFuses f t o
    | _ => f
  let r := State.reset
  let fl := f.gl.flash
  let s : State := { r with
    regs := r.regs, freeCtr := s.freeCtr, pending := s.pending
    host := { r.host with out := s.host.out, cmdCtr := s.host.cmdCtr }
    fab := { r.fab with wire := s.fab.wire }
    gl := { r.gl with
      flash := { r.gl.flash with boot := fl.boot, jr := fl.jr, txns := fl.txns, wear := fl.wear, repairs := fl.repairs, trip := fl.trip, holdup := fl.holdup }
      sec := { r.gl.sec with conditions := s.gl.sec.conditions, deadbolt := false, out := s.gl.sec.out, ownerHash := f.gl.sec.ownerHash }
      mbOut := s.gl.mbOut, perst := s.gl.perst, uart := ⟨s.gl.uart.tx, []⟩ } }
  let s := wrReg s rScLc 0 0 (rdReg f rScLc 0 0)
  let s := tamperActive (newNonce s)
  let s := uartReset (wf s rGlResetCause 0 3 0 last)
  (List.range 24).foldl (fun s n => if rbit s rEpCtrl n 0 then trainStart s n else s) s

/-! ### READY -/

/-- HL index of the die a die-to-die link is reported under: the memory-hub or I/O die, SE0 for link 20. -/
def d2dDie (n : Nat) : Nat := if n < 12 then 50 + n / 2 else if n < 20 then 56 + (n - 12) / 2 else 48
def d2dModules (n : Nat) : Nat := if n < 12 then 10 else if n < 20 then 4 else 16

/-- A die-to-die link has trained on a number of its modules (R18): it leaves TRAINING, which raises its source. -/
def d2dTrained (s : State) (n up : Nat) : State :=
  let up := Nat.min up (d2dModules n)
  let st := if up = 0 then 4 else if up < d2dModules n then 3 else 2
  let s := raiseEdge (wf (wf s rGlD2dStatus n 4 0 up) rGlD2dStatus n 7 5 st) (irqD2d n)
  if st = 3 then
    let d := d2dDie n
    let s := penalise_ s d 8192
    raiseDev s evPredictive 0 d (healthOf s d + rf s rHlScore d 17 16 * 2 ^ 16 + n * 2 ^ 32)
  else if st = 4 then wf s rGlStatus 0 4 4 1
  else s

/-- A stack has trained, or its stored training was checked (R148, R154). A stack that fails is out of service, and every page it
held is poisoned. -/
def stackTrained (s : State) (k : Nat) (x : StackTrain) : State :=
  let lanes := x.lanes - rf s rMcTrain k 39 32
  let s := wf (wf (wf s rMcTrain k 39 32 x.lanes) rMcTrain k 15 0 x.nomUs) rMcTrain k 31 16 x.sprUs
  let s := wf (wf s rMcStatus k 4 4 (b2n (x.result == 0))) rMcStatus k 3 3 0
  let s := if lanes = 0 then s else penalise_ s k (2048 * lanes)
  if x.result = 2 then
    let was := stackDead s k
    let s := wf s rMcStatus k 2 0 4
    let s := if was then s else raiseDev s evPredictive 0 k (healthOf s k + rf s rHlScore k 17 16 * 2 ^ 16)
    let held := (s.pg.frames.filter fun kv => frameStack kv.1 == k && kv.2.st != .free).map fun kv => frameAddr kv.1
    healthNote (modPg s fun p => { p with poison := held.foldl (fun l a => addSorted a l) p.poison }) k 0
  else wf s rMcStatus k 2 0 2

/-- Phase of a resolution: a pause or resume in progress at a warm reset is rolled back (R299): a pause with every page counted
as kept, a resume back to PAUSED with the EXPIRY in AUX. -/
def warmSequence (s : State) (q : Nat) : State :=
  match seqOf s q with
  | none => s
  | some x =>
    let s := commitTo s q x.kvLength
    match tget s.pg.reports q with
    | none => s
    | some r =>
      let aux := (jrFind s (migrateOf q 1)).bind fun op => (tget s.ce.jr op).map (·.aux)
      let s := migrateEnd (modPg s fun p => { p with reports := tdel p.reports q }) q sRolledBack
      if r.kind = 0 then
        let s := changeSeq (updSeq s q fun y => { y with expiry := s.now + y.ttl * 1000000000 }) q fun y => { y with st := .paused, pauseCause := 0 }
        raiseSeq s x.ctx evPauseDone 0 q ((r.done + r.kept + (x.pages.length - (r.done + r.kept))) * 2 ^ 32)
      else if x.st = .resuming then
        let s := changeSeq (updSeq s q fun y => { y with expiry := aux.getD y.expiry }) q fun y => { y with st := .paused }
        let s := freeReserve s (((seqOf s q).map (·.reserve)).getD [])
        raiseSeq (updSeq s q fun y => { y with reserve := [] }) x.ctx evResumeReady 0 q (leftHere s q)
      else s

/-- Step 9 of R423: journaled operations under R299, Latch records and regions under R284. -/
def warmResolve (s : State) : State :=
  let live := tcount s.ce.jr (·.live)
  let s := (tkeys s.pg.seqs fun _ => true).foldl warmSequence s
  let s := (tkeys s.st.images fun i => decide (i.st < 2)).foldl (fun s i => imageFail s i sRolledBack 0) s
  let s := (s.ce.jrOps.filterMap fun kv => match kv.2 with
    | .migrate _ _ => some kv.1
    | _ => none).foldl (fun s op => jrEnd s op 6 sRolledBack) s
  let s := if (s.ce.rebuilds.head?.bind (·.pend)).isSome then rebuildAgain s else s
  let s := wf s rJrStatus 0 29 14 live
  let s := (homedObjs s fun v => v.st == 1).foldl (fun s o => match lvOf s o with
    | some v =>
      if o.region then s else if offerEnd s v ≤ s.now then endOffer s o v else s
    | none => s) s
  modFab s fun f => { f with regions := f.regions.map fun kv => (kv.1, { kv.2 with
    epoch := kv.2.epoch + 1, latch := if kv.2.latch = 1 then 0 else kv.2.latch, offeredTo := 0, assigning := false, pendAcc := none }) }

/-- After a warm reset whose Sill header does not check, the journal is as after a cold reset (R387, R300). -/
def sillLost (s : State) : State := modCe s fun c => { c with jr := [], jrOps := [], rebuilds := [] }

/-- READY after a warm reset (R423 steps 5 to 10, R439, R422): the Shutter stays open while R438 passes. -/
def warmReady (s : State) (b : BringUp) : State :=
  let s := if b.sillOk then s else sillLost s
  let s := wf s rJrStatus 0 46 46 (b2n b.sillOk)
  let s := warmResolve (portsGone s)
  if stormNow s then
    let s := wf (wf s rGlStatus 0 5 5 1) rGlMode 0 1 0 3
    if shutter s = 2 then wf s rGlStatus 0 2 1 0 else s
  else if shutter s = 2 ∧ (openCheck s).isSome then wf s rGlStatus 0 2 1 0
  else s

/-- Words of grants a policy loads (R388): slices of the upper 6 MiB, those of different contexts apart. -/
def grantsOk (ws : List Nat) : Bool :=
  let slice (w : Nat) : Nat × Nat := (bits w 14 8, bits w 14 8 + bits w 22 15)
  decide (ws.length ≤ 16) &&
  ws.all (fun w => decide (32 ≤ (slice w).1 ∧ (slice w).1 < (slice w).2 ∧ (slice w).2 ≤ 128)) &&
  (List.range ws.length).all fun i => (List.range i).all fun j =>
    let a := ws.getD i 0
    let c := ws.getD j 0
    bits a 7 0 == bits c 7 0 || decide ((slice a).2 ≤ (slice c).1 ∨ (slice c).2 ≤ (slice a).1)

/-- The secure-access policy (R388): loaded in PROVISIONED and DEPLOYED when its signature and its grants hold. -/
def policyLoad (s : State) (b : BringUp) : State :=
  if !(lcState s == 2 || lcState s == 3) then s
  else if b.policyBad then wf s rScBoot 0 4 4 1
  else match b.policy with
    | none => s
    | some ws =>
      if grantsOk ws then
        let s := (List.range ws.length).foldl (fun s g => wrReg s rScDbGrant g 0 (word (ws.getD g 0 % 2 ^ 25 + 2 ^ 25))) s
        modSec s fun x => { x with policy := true }
      else wf s rScBoot 0 4 4 1

/-- Recorded row repairs are applied while spare rows remain (R153). -/
def repairsApply (s : State) (k : Nat) (spares : Nat) : State :=
  let mine := s.gl.flash.repairs.filter (·.1 == k)
  let n := Nat.min mine.length spares
  let left := mine.drop n
  let s := modFlash s fun f => { f with repairs := (f.repairs.filter (·.1 != k)) ++ left }
  wf (wf s rMcRepair k 15 0 left.length) rMcRepair k 31 16 (spares - n)

/-- Whether the boot ROM accepts an image slot (R394): the vendor's signature, the version floor of DEPLOYED, and in BLANK a
manufacturing image only (R391). -/
def bootAccepts (s : State) (x : BootSlot) : Bool :=
  x.signed && (rf s rScLc 0 2 0 != 3 || decide (rf s rScLc 0 15 8 ≤ x.version)) && (rf s rScLc 0 2 0 != 0 || x.manufacturing)

/-- The image the boot ROM takes, as (slot, security version, bump flag): of two accepted ones the higher version, slot A on a
tie (R394). -/
def bootChoice (s : State) (b : BringUp) : Option (Nat × Nat × Bool) :=
  let found := ([(0, b.imageA), (1, b.imageB)].filterMap fun p => p.2.map fun x => (p.1, x)).filter fun p => bootAccepts s p.2
  found.foldl (fun r p => if (match r with | none => true | some (_, v, _) => decide (v < p.2.version)) then some (p.1, p.2.version, p.2.bumps) else r) none

/-- READY after a cold or power-on reset (R429): secure boot, repairs, the frame table, what configuration flash holds, the journal
(R300). No rule says when the stored trip record ends: it stays, and every later boot reports it (assumption log, entry 100). Without an acceptable image nothing starts (R394). -/
def coldReady (s : State) (b : BringUp) : State :=
  match bootChoice s b with
  | none => modGlobal (wf s rScBoot 0 3 1 1) fun g => { g with phase := 3 }
  | some (slot_, ver, bumpSvn) =>
    let s := wf (wf s rScBoot 0 0 0 slot_) rScBoot 0 15 8 ver
    let s := modCe s fun c => { c with boot := (s.gl.flash.boot + 1) % 2 ^ 16, coldAt := s.now }
    let s := (List.range 24).foldl (fun s k => repairsApply s k ((b.trained.getD k ⟨0, 0, 0, 0, 0⟩).spares)) s
    let s := modPg s fun p => { p with tableBuilt := true, firmware := b.firmware }
    let s := wrReg s rMtPool 0 0 (word (numFrames - (b.firmware.map (·.2)).foldl (· + ·) 0 + 221184 * 2 ^ 25))
    let s := wf s rPgDescBase 0 43 0 b.descBase
    let s := (List.range 16).foldl (fun s i => wrReg s rPmVr0 i 0 (word (b.vr.getD i 0 % 2 ^ 32))) s
    let s := wf s rPmElec 0 11 0 b.seRated
    let s := match s.gl.flash.holdup with
      | some (r, c) => wrReg (wrReg s rPmHoldupReq 0 0 r) rPmHoldupCfg 0 0 c
      | none => s
    let s := policyLoad s b
    let s := if s.gl.flash.trip.isSome then wf s rGlResetCause 0 28 28 1 else s
    let s := wf (wf s rPmVse 0 9 0 (clampMv (nomMv s))) rPmVse 0 19 10 (clampMv (sprMv s))
    let s := wf s rPmVse 0 29 20 (nomMv s)
    let wear := s.gl.flash.wear
    let s := modPower s fun x => { x with slots := wear.1, slot := wear.2, slotAt := s.now, resAt := s.now, target := nomMv s }
    let old := s.gl.flash.jr.filter fun kv => kv.1 / 2 ^ 32 == s.gl.flash.boot
    let s := wf s rJrStatus 0 29 14 old.length
    let s := s.gl.flash.txns.foldl (fun s t => bump (t.2.foldl (fun s c => txnApply s c.1 c.2) s) rJrCkptCnt 0 47 32 1) s
    let s := flashDue s (.boot s.ce.boot)
    if bumpSvn ∧ rf s rScLc 0 15 8 < ver then flashDue s (.svn ver) else s

/-- Whether a port holds READY back: enabled, training, and its first attempt not over. -/
def portWaits (s : State) (n : Nat) : Bool := rbit s rEpCtrl n 0 && rf s rEpStatus n 1 0 == 1 && (portS s n).tries == 0

/-- READY (R423, R429): what bring-up finds takes effect, once every port is UP or its first attempt is over. -/
def ready (s : State) (b : BringUp) : State :=
  if s.gl.phase ≠ 1 ∨ (List.range 24).any (fun n => portWaits s n) = true then s
  else
    let s := wf s rGlStatus 0 4 4 0
    let s := (List.range 21).foldl (fun s n => d2dTrained s n (b.d2d.getD n 0)) s
    let s := (List.range 24).foldl (fun s k => stackTrained s k (b.trained.getD k ⟨2, 0, 0, 0, 0⟩)) s
    let s := if s.gl.warm then warmReady s b else coldReady s b
    if s.gl.phase = 3 then s
    else
      let us := (s.now - s.gl.resetAt) / 1000
      let s := wf (wf s rGlReadyTime 0 31 0 (sat 32 us)) rGlStatus 0 0 0 1
      let s := uartReady (modGlobal s fun g => { g with phase := 2 }) (if s.gl.warm then 1 else 2) b.uartRx
      (List.range 24).foldl (fun s n => if rbit s rEpCtrl n 0 ∧ rf s rEpStatus n 1 0 = 0 then trainStart s n else s) s

/-- GL_STATUS.PHASE: the step of R423 or R429 in progress, by the time since its trigger; 0 outside a reset. -/
def resetPhase (s : State) : Nat :=
  if s.gl.phase ≠ 1 then 0
  else
    let us := (s.now - s.gl.resetAt) / 1000
    if s.gl.warm then (if us < 5 then 2 else if us < 100 then 3 else if us < 200 then 4 else if us < 5000 then 5 else if us < 9000 then 6
      else if us < 12000 then 8 else if us < 20000 then 9 else 10)
    else (if us < 60000 then 2 else if us < 61000 then 3 else if us < 66000 then 4 else if us < 156000 then 6 else if us < 196000 then 8 else 9)

/-- GL_D2D_STATUS[n] as read (R18, R21): until READY ends a reset no module passes flits, and the link is DOWN, then TRAINING
from the step of R423 or R429 that trains it. -/
def viewD2d (s : State) (n : Nat) : Nat :=
  let w := (rdReg s rGlD2dStatus n 0).toNat
  if s.gl.phase ≠ 1 then w else setBits (setBits w 4 0 0) 7 5 (b2n (decide ((if s.gl.warm then 200000 else 61000000) ≤ s.now - s.gl.resetAt)))

/-! ### Other events of power and clocks -/

/-- A tamper trip with RESET_ON set (R390, R444): during a cold bring-up before firmware runs it is a new step 1. -/
def tamperReset (s : State) : State :=
  if s.gl.phase = 1 ∧ s.gl.warm = false then
    (if s.now < s.gl.resetAt + 60000000 then modGlobal s fun g => { g with resetAt := s.now }
    else warmBegin (modGlobal s fun g => { g with warm := true }) 6 0)
  else warmBegin s 6 0

/-- D2D_LINK_STALL (R20): a link that is ACTIVE or DEGRADED passes no flits for a time in ns, or has retried flits within it; the retried flits count, and
every 1,024 of them toward the die's health (R302). -/
def d2dStall (s : State) (n ns retried : Nat) : State :=
  if rf s rGlD2dStatus n 7 5 ≠ 2 ∧ rf s rGlD2dStatus n 7 5 ≠ 3 then s
  else
  let was := rf s rGlD2dStatus n 47 16
  let s := bump s rGlD2dStatus n 47 16 retried
  let k := (was + retried) / 1024 - was / 1024
  let s := if k = 0 then s else penalise_ s (d2dDie n) k
  if 100000 ≤ ns then warmBegin s 4 1 else s

/-- REF_CLOCK_LOSS (R400): every fast PLL stops. -/
def refLoss (s : State) : State :=
  modGlobal (wf (wf s rGlStatus 0 3 3 1) rGlStatus 0 0 0 0) fun g => { g with phase := 3 }

/-- REF_CLOCK_RETURN: a warm reset; a controller that had not come up starts its cold bring-up again. -/
def refReturn (s : State) : State :=
  if rbit s rGlStatus 0 3 = false then s
  else if s.gl.pins.contains 0 then wf s rGlStatus 0 3 3 0
  else if s.pg.tableBuilt then warmBegin s 5 0
  else coldBegin s (rf s rGlResetCause 0 3 0)

/-- RAIL_FAULT (R428): the rail is recorded, and the fast domains take a power-on reset. -/
def railFault (s : State) (rail : Nat) : State :=
  if rail < 8 then wf (coldBegin s 0) rGlStatus 0 (16 + rail) (16 + rail) 1 else s

/-- THERMAL_TRIP (R32): a die sensor at 115 °C drives THERM_TRIP_N and stops every fast PLL; the trip and its sensor are recorded.
Sprint ends without SPRINT_END (R414), and the contents of stacks and SRAM are lost. -/
def thermalTrip (s : State) (die sensor temp : Nat) : State :=
  if temp < 115 ∨ s.gl.pins.contains 0 = true then s
  else
    let s := if inSprint s then ratePoint s false else s
    let s := flashDue s (.trip die sensor temp)
    let s := { s with mem := [] }
    modGlobal (wf s rGlStatus 0 0 0 0) fun g => { g with phase := 3, pins := addSorted 0 g.pins }

/-! ### Admin commands -/

/-- WARM_RESET: the reply is written first. -/
def opWarmReset (id : Nat) (_ : Cmd) (s : State) : State := warmBegin (finishOk s id) 3 0
/-- COLD_RESET. -/
def opColdReset (id : Nat) (_ : Cmd) (s : State) : State := coldBegin (finishOk s id) 2

end Sys2Proof.Machine
end

