-- ==== Sys2Proof/Machine/Settle.lean ====
section
/-! DEFINITION. The end of a command: what the command has made due happens before the next one (what a step holds is file 95's
subject). -/
namespace Sys2Proof.Machine

/-- Undelivered firmware messages (R263): a pane request's pane is missing, a request is unanswered. -/
def undelivered (s : State) : State :=
  let ps := s.fab.fwFail.filterMap fun x => match x.1.use with
    | .paneRequest n => some n
    | _ => none
  ps.foldl (fun s n => if ((tget s.st.panes n).map (·.st)) = some 0 then paneMissing s n else s) (fwFailed s)

/-- Panes whose messages have completed. -/
def inboxRun (s : State) : State :=
  let l := s.fab.inbox
  l.foldl (fun s x => paneArrived s x.1 x.2) (modFab s fun f => { f with inbox := [] })

/-- Endpoints just declared dead (R111, R231). -/
def deadRun (s : State) : State :=
  let l := s.fab.dead
  if l.isEmpty then s else linesFreed (l.foldl holderDead (modFab s fun f => { f with dead := [] }))

/-- Context faults found (R313): one charged to context 0 is a fatal internal error (R422), whose code a memory error names. -/
def faultsRun (s : State) : State :=
  let l := s.mt.faults
  l.foldl (fun s f =>
    if f.ctx = 0 then warmBegin s 4 (if 0x100 < f.cause then f.cause - 0x100 else 2) else ctxFaulted s f) (modMt s fun m => { m with faults := [] })

/-- An operation that waited for a journal slot starts (R297). -/
def jrResume (s : State) : State :=
  match s.ce.jrWaits with
  | [] => s
  | w :: _ =>
    if jrRoom s = false then s
    else
      let s := modCe s fun c => { c with jrWaits := c.jrWaits.filter (· != w) }
      match w with
      | .migrate q resume =>
        let kind := b2n resume
        if s.pg.holdJobs.any fun j => j.seq == q && j.kind == kind then
          holdRun (jrStart s jrMigrate (q + kind * 2 ^ 32) 0 w).2 q kind
        else migrateRun s q resume
      | .image i => (jrStart s jrImage i 0 w).2
      | .txn n => defer s .device (.commit n)
      | .rebuild => rebuildStart s

/-- Pane jobs that wait for leases or for a port (R43, R165). -/
def jobsTry (s : State) : State := ((s.st.jobs.filter (!·.queued)).map (·.id)).foldl jobTry s

/-- Entries of the holding index take 16 B each in system frames (R102), 4,096 to a frame, charged to context 0 (log entry 117). -/
def indexNeed (s : State) : Nat := cdiv s.pg.index.length 4096

/-- Take the frames a table needs, and give back those it no longer needs. -/
def tableFit (s : State) (u : SysUse) (need : Nat) : State :=
  let have_ := tableFrames s u
  if have_.length < need then (takeFrames s .system 0 u 0 (need - have_.length)).elim s (·.2)
  else (have_.drop need).foldl dropSystem s

/-- The holding index, and the directory of R228: 2 B for each 64 B line of a COHERENT region, one frame a region (log entry
124). -/
def tablesFit (s : State) : State := tableFit (tableFit s .index (indexNeed s)) .quadDir (coherentCount s)

/-- The level sources whose conditions registers hold (R365). -/
def levelSources : List Nat := (List.range 0xC0).map (· + 0x140) ++ [0x22D, 0x22E, 0x22F]

/-- Whether a level source is to be sampled: its condition has changed. -/
def levelDue (s : State) (n : Nat) : Bool := levelHolds s n != s.intr.asserted.contains n

/-- Whether a master of its cell that is not LOCKED may lock now (R201). -/
def lockDue (s : State) : Bool := isMgr s && timeState s != 2

/-- Nothing is due: a command that leaves such a state has no further effect. -/
def quiet (s : State) : Bool :=
  (cutOff s).isEmpty && ((lateOrphans s).all fun o => !((lvOf s o).any (mayAdvance s o))) && (cutAccs s).isEmpty && s.fab.fwFail.isEmpty && s.fab.inbox.isEmpty && s.fab.dead.isEmpty && s.mt.faults.isEmpty && s.fab.recalled.isEmpty &&
  !(s.host.opens.any fun o => match o.wait with | .teardown _ => true | _ => false) &&
  s.st.jobs.all (·.queued) && s.pg.spills.all (·.leased) && (tableFrames s .index).length == indexNeed s &&
  (tableFrames s .quadDir).length == coherentCount s &&
  s.pg.holdJobs.isEmpty && s.pg.reports.isEmpty && s.ce.hinges.isEmpty &&
  !(s.fab.regions.any fun kv => kv.2.pendAcc.isSome) && s.host.deferred.isEmpty && s.ce.jrWaits.isEmpty &&
  !(s.st.plans.any fun kv => kv.2.unloading) && s.gl.close.step == 0 && s.gl.sec.deadbolt && !lockDue s &&
  rf s rPmCap 0 26 16 == limitNow s && !(levelSources.any fun n => levelDue s n)

/-- One round of what is due, in a fixed order. -/
def settleOnce (s : State) : State :=
  let s := faultsRun (deadRun (inboxRun (undelivered (cutRun s))))
  let s := ctxLeft (recallsEnd (tablesFit (jobsTry (spillsLeased s))))
  let s := orphansRun (pendingAccepts (hingeReady (reportsEnd (holdReports s))))
  let s := planIdle (jrResume (deferredSettle s))
  let s := limitNote (masterLock (tamperSettle (deadboltShut (shutterSettle s))))
  levelSources.foldl sampleLevel s

/-- Rounds until nothing is due, at most as many as given. -/
def settleN : Nat → State → State
  | 0, s => s
  | n + 1, s => if quiet s then s else settleN n (settleOnce s)

/-- The end of a command. Outside operation (GL_STATUS.READY clear) nothing is due. -/
def settle (s : State) : State := if s.gl.phase = 2 then settleN 4 s else s

/-- The outcome of a command that leaves s in state r: a command has no effect on the queue, whose rest s holds. -/
def done (s r : State) : Out := .next { r with pending := s.pending }

/-- A command of a running controller at device time t; during a reset, and while stopped, it has no effect. -/
def running (s : State) (t : Nat) (f : State → State) : Out :=
  done s (if (tick s t).gl.phase = 2 then settle (f (tick s t)) else tick s t)

/-- A command that acts unless the fast domains are stopped. -/
def powered (s : State) (t : Nat) (f : State → State) : Out :=
  done s (if (tick s t).gl.phase = 3 then tick s t else settle (f (tick s t)))

/-- A command the always-on domain serves at all times. -/
def always (s : State) (t : Nat) (f : State → State) : Out := done s (settle (f (tick s t)))

end Sys2Proof.Machine
end

