-- ==== Sys2Proof/Machine/CellRows.lean ====
section
/-! DEFINITION. Latch messages, cell messages, and the timers of a cell (R272–R287, R478). A message's row carries its sender and
its bytes; a bad one is dropped and counted. -/
namespace Sys2Proof.Machine

/-- HINGE_OFFER_MSG (R277). -/
def execHingeOfferMsg (t src : Nat) (b : List Byte) (s : State) : Out := running s t fun s =>
  latchIn s src mHingeOffer b fun s m => homeOffer s src m

/-- HINGE_FORWARD (R13). ctx is the context of a region, which the message does not carry; r what the receiver of an assignment reads
(R283). -/
def execHingeForward (t src : Nat) (b : List Byte) (ctx : Nat) (r : Recovery) (s : State) : Out := running s t fun s =>
  latchIn s src mHingeForward b fun s m => hingeForwardIn s src m ctx r

/-- HINGE_ACCEPT (R279). -/
def execHingeAccept (t src : Nat) (b : List Byte) (s : State) : Out := running s t fun s =>
  latchIn s src mHingeAccept b fun s m => homeAccept s src m

/-- HINGE_DONE (R281). x is what a new owner reads of the tables (R281). -/
def execHingeDone (t src : Nat) (b : List Byte) (x : Option TableRead) (s : State) : Out := running s t fun s =>
  latchIn s src mHingeDone b fun s m => hingeDone s m x

/-- HINGE_REVERTED (R281). -/
def execHingeReverted (t src : Nat) (b : List Byte) (s : State) : Out := running s t fun s =>
  latchIn s src mHingeReverted b fun s m => hingeReverted s m

/-- HINGE_DECLINE (R283). -/
def execHingeDecline (t src : Nat) (b : List Byte) (s : State) : Out := running s t fun s =>
  latchIn s src mHingeDecline b fun s m => homeDecline s src m

/-- EPOCH_NOTICE (R272). -/
def execEpochNotice (t src : Nat) (b : List Byte) (s : State) : Out := running s t fun s =>
  latchIn s src mEpochNotice b fun s m => epochNotice s src m

/-- EPOCH_ACK (R272). -/
def execEpochAck (t src : Nat) (b : List Byte) (s : State) : Out := running s t fun s =>
  latchIn s src mEpochAck b fun s m => epochAck s src m

/-- LEASE_RENEW (R273). -/
def execLeaseRenew (t src : Nat) (b : List Byte) (s : State) : Out := running s t fun s =>
  latchIn s src mLeaseRenew b fun s _ => leaseRenew s src

/-- LEASE_ACK (R274). -/
def execLeaseAck (t src : Nat) (b : List Byte) (s : State) : Out := running s t fun s =>
  latchIn s src mLeaseAck b fun s m => leaseAck s src m

/-- LATCH_QUERY_MSG (R275). -/
def execLatchQueryMsg (t src : Nat) (b : List Byte) (s : State) : Out := running s t fun s =>
  latchIn s src mLatchQuery b fun s m => latchQueryIn s src m

/-- LATCH_REPLY (R281). x is what a new owner reads of the tables (R281). -/
def execLatchReply (t src : Nat) (b : List Byte) (x : Option TableRead) (s : State) : Out := running s t fun s =>
  latchIn s src mLatchReply b fun s m => latchReply s src m x

/-- ORPHAN_NOTICE (R273). -/
def execOrphanNotice (t src : Nat) (b : List Byte) (s : State) : Out := running s t fun s =>
  latchIn s src mOrphanNotice b fun s m => orphanIn s m

/-- LATCH_ASSIGN_MSG (R282). -/
def execLatchAssignMsg (t src : Nat) (b : List Byte) (s : State) : Out := running s t fun s =>
  latchIn s src mLatchAssign b fun s m => homeAssign s src m

/-- HOME_MOVED (R285). -/
def execHomeMoved (t src : Nat) (b : List Byte) (s : State) : Out := running s t fun s =>
  latchIn s src mHomeMoved b fun s m => homeMovedAny s src m

/-- LATCH_RELEASE (R436). -/
def execLatchRelease (t src : Nat) (b : List Byte) (s : State) : Out := running s t fun s =>
  latchIn s src mLatchRelease b fun s m => homeRelease s src m

/-- ADMIT_REQ (R276). -/
def execAdmitReq (t src : Nat) (b : List Byte) (s : State) : Out := running s t fun s =>
  cellIn s mAdmitReq b fun s m => mgrOnly s src m fun s => admitReq s src m

/-- ADMIT_REPLY (R276). -/
def execAdmitReply (t src : Nat) (b : List Byte) (s : State) : Out := running s t fun s =>
  cellIn s mAdmitReply b fun s m => cellReply s src m

/-- SEQ_RETIRE (R276). -/
def execSeqRetire (t src : Nat) (b : List Byte) (s : State) : Out := running s t fun s =>
  cellIn s mSeqRetire b fun s m => mgrOnly s src m fun s => seqRetire s src m

/-- JOINED (R276). -/
def execJoined (t src : Nat) (b : List Byte) (s : State) : Out := running s t fun s =>
  cellIn s mJoined b fun s m => mgrOnly s src m fun s => joined s src m

/-- LEAVING (R478). -/
def execLeaving (t src : Nat) (b : List Byte) (s : State) : Out := running s t fun s =>
  cellIn s mLeaving b fun s m => mgrOnly s src m fun s => leaving s src m

/-- HOME_UNREACHABLE (R285). -/
def execHomeUnreachable (t src : Nat) (b : List Byte) (s : State) : Out := running s t fun s =>
  cellIn s mHomeUnreachable b fun s m => mgrOnly s src m fun s => homeUnreachable s src m

/-- MGR_ACK (R276). -/
def execMgrAck (t src : Nat) (b : List Byte) (s : State) : Out := running s t fun s =>
  cellIn s mMgrAck b fun s m => cellReply s src m

/-- PROMOTE (R285). -/
def execPromote (t _src : Nat) (b : List Byte) (s : State) : Out := running s t fun s =>
  cellIn s mPromote b fun s m => promote s m.a

/-- LOG_REPLICA_REQ (R276). -/
def execLogReplicaReq (t src : Nat) (b : List Byte) (s : State) : Out := running s t fun s =>
  cellIn s mLogReplicaReq b fun s m => mgrOnly s src m fun s => logReplicaReq s src m

/-- LOG_REPLICA_REPLY (R15). -/
def execLogReplicaReply (t src : Nat) (b : List Byte) (s : State) : Out := running s t fun s =>
  cellIn s mLogReplicaReply b fun s m => cellReply s src m

/-- MIRROR_REQ (R295). -/
def execMirrorReq (t src : Nat) (b : List Byte) (s : State) : Out := running s t fun s =>
  cellIn s mMirrorReq b fun s m => homeMirror s src m

/-- MIRROR_REPLY (R295). -/
def execMirrorReply (t src : Nat) (b : List Byte) (s : State) : Out := running s t fun s =>
  cellIn s mMirrorReply b fun s m => cellReply s src m

/-- HOME_LOOKUP (R276). -/
def execHomeLookup (t src : Nat) (b : List Byte) (s : State) : Out := running s t fun s =>
  cellIn s mHomeLookup b fun s m => mgrOnly s src m fun s => homeLookup s src m

/-- HOME_LOOKUP_REPLY (R354). -/
def execHomeLookupReply (t src : Nat) (b : List Byte) (s : State) : Out := running s t fun s =>
  cellIn s mHomeLookupReply b fun s m => cellReply s src m

/-- PROBE (R478). -/
def execProbe (t src : Nat) (b : List Byte) (s : State) : Out := running s t fun s =>
  cellIn s mProbe b fun s m => sendC s src ⟨mProbeAck, sOk, m.req, 0, 0, 0, 0⟩

/-- PROBE_ACK (R478). -/
def execProbeAck (t src : Nat) (b : List Byte) (s : State) : Out := running s t fun s =>
  cellIn s mProbeAck b fun s m => probeAck s src m

/-- SPILL_REQ (R166). -/
def execSpillReq (t src : Nat) (b : List Byte) (s : State) : Out := running s t fun s =>
  cellIn s mSpillReq b fun s m => spillReq s src m

/-- SPILL_REPORT (R170). -/
def execSpillReport (t src : Nat) (b : List Byte) (s : State) : Out := running s t fun s =>
  cellIn s mSpillReport b fun s m => cellReply s src m

/-- PREFETCH_REQ (R168). -/
def execPrefetchReq (t src : Nat) (b : List Byte) (s : State) : Out := running s t fun s =>
  cellIn s mPrefetchReq b fun s m => prefetchReq s src m

/-- PREFETCH_REPORT (R170). rs is what the owner reads of restored stripes (R173). -/
def execPrefetchReport (t src : Nat) (b : List Byte) (rs : List StripeRead) (s : State) : Out := running s t fun s =>
  cellIn s mPrefetchReport b fun s m => cellAnswer s src m rs

/-- REF_INC (R61). -/
def execRefInc (t src : Nat) (b : List Byte) (s : State) : Out := running s t fun s =>
  cellIn s mRefInc b fun s m => refInc s src m

/-- REF_DEC (R276). -/
def execRefDec (t src : Nat) (b : List Byte) (s : State) : Out := running s t fun s =>
  cellIn s mRefDec b fun s m => refDec s src m

/-- REF_ACK (R61). -/
def execRefAck (t src : Nat) (b : List Byte) (s : State) : Out := running s t fun s =>
  cellIn s mRefAck b fun s m => cellReply s src m

/-- REF_DROP (R63). -/
def execRefDrop (t src : Nat) (b : List Byte) (s : State) : Out := running s t fun s =>
  cellIn s mRefDrop b fun s m => refDrop s src m

/-- STRIPE_REPLACE (R294). -/
def execStripeReplace (t src : Nat) (b : List Byte) (s : State) : Out := running s t fun s =>
  cellIn s mStripeReplace b fun s m => homeReplace s src m

/-- STRIPE_REPLY (R294). -/
def execStripeReply (t src : Nat) (b : List Byte) (s : State) : Out := running s t fun s =>
  cellIn s mStripeReply b fun s m => stripeReply s src m

/-! ### Timers -/

/-- OFFER_TIMEOUT (R280). -/
def execOfferTimeout (t : Nat) (o : Obj) (s : State) : Out := running s t fun s => offerTimeout s o

/-- HOME_LEASE_EXPIRY (R273). -/
def execHomeLeaseExpiry (t : Nat) (owner : Nat) (s : State) : Out := running s t fun s => leaseExpire s owner

/-- OWNER_LEASE_EXPIRY (R274). -/
def execOwnerLeaseExpiry (t : Nat) (home : Nat) (s : State) : Out := running s t fun s => ownerExpiry s home

/-- LEASE_RENEW_TIMER (R273). -/
def execLeaseRenewTimer (t : Nat) (s : State) : Out := running s t fun s => leaseTimer s

/-- HINGE_QUERY_TIMER (R281). -/
def execHingeQueryTimer (t : Nat) (o : Obj) (x : Option TableRead) (s : State) : Out := running s t fun s => hingeTimer s o x

/-- EPOCH_NOTICE_RESEND (R272). -/
def execEpochNoticeResend (t : Nat) (q : Nat) (s : State) : Out := running s t fun s => noticeResend s q

/-- REQUEST_UNANSWERED (R276). -/
def execRequestUnanswered (t : Nat) (req : Nat) (s : State) : Out := running s t fun s => requestTimeout s req

/-- PROBE_TIMER (R478). -/
def execProbeTimer (t : Nat) (s : State) : Out := running s t fun s => probeTimer s

/-- MEMBER_SILENT (R478). -/
def execMemberSilent (t : Nat) (ep : Nat) (s : State) : Out := running s t fun s => memberSilent s ep

/-- HOME_OUTAGE_TIMEOUT (R285). -/
def execHomeOutageTimeout (t : Nat) (home : Nat) (s : State) : Out := running s t fun s => homeOutage s home

/-- REGION_RENEW_TIMEOUT (R274). -/
def execRegionRenewTimeout (t : Nat) (a : Nat) (s : State) : Out := running s t fun s => regionRenewTimeout s a

end Sys2Proof.Machine
end

