-- ==== Sys2Proof/Machine/Interrupts.lean ====
section
/-! DEFINITION. The interrupt controller: pending sources, claims and ends of interrupt, MSI-X messages and their moderation
(R365–R377). -/
namespace Sys2Proof.Machine

/-! ### Core routes -/

/-- Group of a core priority under GROUP_BITS (R367). -/
def priGroup (s : State) (p : Nat) : Nat := p >>> (8 - rf s rIcPrigroup 0 3 0)

def coreStack (s : State) (k : Nat) : List (Nat × Nat) := tgetD s.intr.active k []

/-- Whether core k may take source n now (R368). -/
def takeable (s : State) (k n : Nat) : Bool :=
  let g := priGroup s (rf s rIcSrc n 15 8)
  let st := coreStack s k
  rf s rIcSrc n 30 28 == k && rbit s rIcSrc n 31 && s.intr.corePend.contains n && !rbit s rIcCoreMask k 0 &&
  decide (g < priGroup s (rf s rIcCoreMask k 15 8)) && decide (st.length < 8) &&
  (match st with | [] => true | (r, _) :: _ => decide (g < r))

/-- The order in which takeable sources are taken (R368): group and sub-priority together are the priority, then the number. -/
def claimBefore (s : State) (a b : Nat) : Bool :=
  let pa := rf s rIcSrc a 15 8
  let pb := rf s rIcSrc b 15 8
  decide (pa < pb ∨ (pa = pb ∧ a ≤ b))

/-- The source a read of IC_CORE[k]_CLAIM returns; none reads 0xFFFF. -/
def claimOf (s : State) (k : Nat) : Option Nat := (sortBy (claimBefore s) (s.intr.corePend.filter (takeable s k))).head?

/-- A core reads CLAIM: the source's group is pushed and its core pending bit cleared. -/
def coreClaim (s : State) (k : Nat) : State :=
  match claimOf s k with
  | none => s
  | some n => modIntr s fun i => { i with
    active := tput i.active k ((priGroup s (rf s rIcSrc n 15 8), n) :: coreStack s k), corePend := i.corePend.filter (· != n) }

/-- Core k executes WFI (R370): it waits unless an enabled source routed to it is pending already. -/
def coreWfi (s : State) (k : Nat) : State :=
  if (s.intr.corePend.any fun n => rbit s rIcSrc n 31 && rf s rIcSrc n 30 28 == k) then s
  else modIntr s fun i => { i with wfi := addSorted k i.wfi }

/-- A core writes EOI (R369): the top of its stack is popped, and a level source is sampled again. -/
def coreEoi (s : State) (k n : Nat) : State :=
  match coreStack s k with
  | (_, m) :: rest =>
    if m = n then
      let s := modIntr s fun i => { i with active := tput i.active k rest }
      if isLevel s n ∧ levelHolds s n = true then modIntr s fun i => { i with corePend := addSorted n i.corePend } else s
    else wf s rIcErr 0 1 1 1
  | [] => wf s rIcErr 0 1 1 1

/-! ### Host routes -/

/-- Sources requested on vector v (R371). -/
def vecSources (s : State) (v : Nat) : List Nat :=
  ((s.intr.hostPend ++ s.intr.asserted).filter fun n => (hostRoute s n).1 == v && requested s n).eraseDups

def vecS (s : State) (v : Nat) : VecS := tgetD s.intr.vecs v ⟨0, 0, false⟩

/-- Whether moderation permits a message of a requested vector (R372). A vector whose request was counted for another one has at
least the request it makes. -/
def vecPermits (s : State) (v : Nat) : Bool :=
  let x := vecS s v
  decide (Nat.max 1 (rf s rIcVec v 7 0) ≤ Nat.max 1 x.count) || (x.timedOut && rf s rIcVec v 17 8 != 0) ||
  rbit s rHpIdleHint (v / 64) (v % 64)

/-- Whether a message of v may be sent now. A masked vector whose pending bit is set waits to be unmasked (R374). -/
def vecSendable (s : State) (v : Nat) : Bool :=
  !(vecSources s v).isEmpty && !rbit s rIcVec v 19 && vecPermits s v && (s.intr.unmasked.contains v || !s.intr.pba.contains v)

/-- Send the message of v (R371). -/
def vecSend (s : State) (v : Nat) : State :=
  let l := vecSources s v
  let s := l.foldl (fun s n => wrReg s rIcHostCause (n / 64) 0 (word ((rdReg s rIcHostCause (n / 64) 0).toNat ||| 2 ^ (n % 64)))) s
  let s := modIntr s fun i => { i with
    hostPend := i.hostPend.filter (fun n => !((hostRoute s n).1 == v && !isLevel s n)), vecs := tdel i.vecs v, pba := i.pba.filter (· != v) }
  let s := if rbit s rIcVec v 18 then s else wf s rIcVec v 19 19 1
  let s := if rbit s rHpIdleHint (v / 64) (v % 64) then wf s rHpIdleHint (v / 64) (v % 64) (v % 64) 0 else s
  toHost (bump s rIcVec v 47 32 1) (.msix v)

/-- The order among vectors that can be sent at once: the lowest HOST_PRI of a requested source, then the number. -/
def vecBefore (s : State) (a b : Nat) : Bool :=
  let best (v : Nat) : Nat := (vecSources s v).foldl (fun m n => Nat.min m (rf s rIcSrc n 7 0)) 256
  decide (best a < best b ∨ (best a = best b ∧ a ≤ b))

/-- MSIX_SEND: the first of the vectors that may be sent; a masked one sets its bit in the pending-bit array (R374). -/
def msixSend (s : State) : State :=
  let vs := ((s.intr.hostPend ++ s.intr.asserted).map fun n => (hostRoute s n).1).eraseDups
  match (sortBy (vecBefore s) (vs.filter (vecSendable s))).head? with
  | none => s
  | some v => if s.intr.unmasked.contains v then vecSend s v else modIntr s fun i => { i with pba := addSorted v i.pba }

/-- MSIX_UNMASK: a vector whose pending bit is set sends its message. -/
def msixUnmask (s : State) (v : Nat) (mask : Bool) : State :=
  if mask then modIntr s fun i => { i with unmasked := i.unmasked.filter (· != v) } else
  let s := modIntr s fun i => { i with unmasked := addSorted v i.unmasked }
  if s.intr.pba.contains v then vecSend s v else s

/-- MODERATION_TIMER: MOD_TIME_US after a vector's first counted request. -/
def modTimer (s : State) (v : Nat) : State :=
  let x := vecS s v
  let t := rf s rIcVec v 17 8
  if x.count = 0 ∨ t = 0 ∨ s.now < x.firstAt + t * 1000 then s
  else modIntr s fun i => { i with vecs := tput i.vecs v { x with timedOut := true } }

/-- HOST_EOI (R373): IN_SERVICE is cleared, and each level source of the vector that still holds counts as one request. -/
def hostEoi (s : State) (v : Nat) : State :=
  if rbit s rIcVec v 19 then
    let s := wf s rIcVec v 19 19 0
    (s.intr.asserted.filter fun n => (hostRoute s n).1 == v && (hostRoute s n).2 && levelHolds s n).foldl (fun s _ => countRequest s v) s
  else wf s rIcErr 0 0 0 1

/-- HP_IDLE_HINT: the host says which handlers of 64 vectors are idle. -/
def idleHint (s : State) (g : Nat) (w : Word) : State := if g < 32 then wrReg s rHpIdleHint g 0 w else s

/-- SOURCE_PENDING: the condition of a source occurs, or a level condition that no register holds is asserted or withdrawn. -/
def sourcePending (s : State) (n : Nat) (on : Bool) : State :=
  if 1024 ≤ n ∨ (n < 0x300 ∧ srcType n = 2) then s
  else if isLevel s n then (if n < 0x200 ∨ (0x22D ≤ n ∧ n < 0x230) then sampleLevel s n else setLevel s n on)
  else if on then raiseEdge s n else s

/-- A host route that a write has just enabled with its bit pending counts as a request (R366, R371). -/
def routeEnabled (s : State) (n : Nat) (was : Bool) : State :=
  if !was && requested s n then countRequest s (hostRoute s n).1 else s

/-- Write of IC_SRC[n] by the host, or by a management core, which owns the core route (R373, R377). -/
def icSrcWrite (s : State) (n : Nat) (w : Word) (core : Bool) : State :=
  let old := rdReg s rIcSrc n 0
  let pend := wbit w 33 && !isLevel s n
  let s1 := if pend then modIntr s fun i => { i with hostPend := i.hostPend.filter (· != n) } else s
  if core then
    if 5 < fld w 30 28 then rsvdWrite s
    else wrReg s1 rIcSrc n 0 (setFld (setFld old 15 8 (fld w 15 8)) 31 28 (fld w 31 28))
  else if fld w 15 8 ≠ fld old 15 8 ∨ fld w 31 28 ≠ fld old 31 28 then rsvdWrite s
  else if n < 0x140 then wrReg s1 rIcSrc n 0 (setFld old 7 0 (fld w 7 0))
  else if isLevel s n ∧ wbit w 27 = true ∧ rbit s rIcVec (fld w 26 16) 18 = true then wf s rIcErr 0 2 2 1
  else if 0x300 ≤ n then wrReg s1 rIcSrc n 0 (setFld old 7 0 (fld w 7 0))
  else
    let was := (hostRoute s n).2
    routeEnabled (wrReg s1 rIcSrc n 0 (setFld (setFld old 7 0 (fld w 7 0)) 27 16 (fld w 27 16))) n was

/-- Whether an enabled level source targets a vector. -/
def levelTargets (s : State) (v : Nat) : Bool :=
  (List.range 0x300).any fun n => decide (0x140 ≤ n) && isLevel s n && rbit s rIcSrc n 27 && rf s rIcSrc n 26 16 == v

/-- Write of IC_VEC[v] (R372, R373, R377). -/
def icVecWrite (s : State) (v : Nat) (w : Word) : State :=
  if 1000 < fld w 17 8 ∨ (1 < fld w 7 0 ∧ fld w 17 8 = 0) then rsvdWrite s
  else if wbit w 18 ∧ levelTargets s v = true then wf s rIcErr 0 2 2 1
  else wrReg s rIcVec v 0 (setFld (rdReg s rIcVec v 0) 18 0 (fld w 18 0))

/-! ### What reads show -/

def viewIcSrc (s : State) (n : Nat) : Nat :=
  let w := (rdReg s rIcSrc n 0).toNat
  let w := if n < 0x140 then setBits (setBits w 26 16 (hostRoute s n).1) 27 27 (b2n (hostRoute s n).2) else w
  let host := if isLevel s n then s.intr.asserted.contains n else s.intr.hostPend.contains n
  let busy := s.intr.active.any fun kv => kv.2.any (·.2 == n)
  setBits (setBits (setBits (setBits w 33 33 (b2n host)) 34 34 (b2n (s.intr.corePend.contains n)))
    35 35 (b2n (s.intr.asserted.contains n))) 36 36 (b2n busy)

def viewIcVec (s : State) (v : Nat) : Nat := setBits (rdReg s rIcVec v 0).toNat 20 20 (b2n (!(vecSources s v).isEmpty))

def viewCoreStack (s : State) (k : Nat) : Nat :=
  let l := coreStack s k
  l.length + (match l with | [] => 0xFF | (g, _) :: _ => g) * 16

end Sys2Proof.Machine
end

