-- ==== Sys2Proof/Machine/RegAccess.lean ====
section
/-! DEFINITION. Reads and writes of BAR0 (R8, R9, R451, R469–R474): what a read shows of the state, what a write does by access
code and range, and the registers whose writes do more. -/
namespace Sys2Proof.Machine

/-! ### Reads -/

/-- STATUS of an engine: POWER, BUSY, OFFLINE, SPRINT_CLK, and the operation code of what runs (R89, R145, R266). -/
def viewUnitStatus (s : State) (cls n : Nat) : Nat :=
  let key := unitKey cls n
  let w := (rdReg s (statusReg cls) n 0).toNat
  let run := (tget s.mt.runs key).filter fun r => decide (s.now < r.ends)
  let power := if run.isSome then 2 else if s.gl.sleep.gated.contains key ∨ thas s.gl.sleep.waking key = true then 0 else 1
  setBits (setBits (setBits (setBits w 1 0 power) 2 2 (b2n run.isSome)) 4 4 (b2n (inSprint s && decide (cls < 3)))) 15 8 ((run.map (·.op)).getD 0)

/-- MT_COMP_HELD_NS and MT_COMP_ENGINE_NS of the tag MT_COMP_SEL names; 0 when no context carries it (R331). -/
def viewComp (s : State) (engine : Bool) : Nat :=
  let tag := rf s rMtCompSel 0 23 0
  let x := tgetD s.mt.comps tag ⟨0, 0⟩
  if ((List.range 256).any fun c => ctxState s c != 0 && rf s rMtCtx c 55 32 == tag) = false then 0
  else if engine then x.engineNs else x.heldNs

/-- GL_PORT_STATUS[i]: MODE is the strap's (R454). -/
def viewPortStatus (s : State) (i : Nat) : Nat :=
  setBits (rdReg s rGlPortStatus i 0).toNat 10 9 (if i = 0 then 0 else b2n (cxlMode s (i - 1)))

/-- EP[n]_STATUS: ENC_TX and KEY_PHASE (R195). -/
def viewEpStatus (s : State) (n : Nat) : Nat :=
  setBits (setBits (rdReg s rEpStatus n 0).toNat 8 8 (b2n (rbit s rEpCrypt n 0 && thas s.fab.keys.keys (rf s rScKeyStatus 0 18 18)))) 9 9
    (rf s rScKeyStatus 0 18 18)

/-- What a read of a register shows: a value the state gives it, or the stored one. -/
def readReg (s : State) (d : RegDesc) (i k : Nat) : Word :=
  let b := d.base
  let is (x : RegDesc) : Bool := b == x.base
  if is rGlStatus then setFld (rdReg s d i k) 15 8 (resetPhase s)
  else if is rMcStatus then word (viewMcStatus s i)
  else if is rGlD2dStatus then word (viewD2d s i)
  else if is rGlPortStatus then word (viewPortStatus s i)
  else if is rPgStatus then word (viewPgStatus s)
  else if is rPgSeqStatus then word (viewPgSeqStatus s)
  else if is rPgFrameUse then word (viewPgFrameUse s)
  else if is rPgFrameInfo then word (viewPgFrameInfo s)
  else if is rTeStatus then word (viewUnitStatus s 0 i)
  else if is rXeStatus then word (viewUnitStatus s 1 i)
  else if is rTuStatus then word (viewUnitStatus s 2 i)
  else if is rCuStatus then word (viewUnitStatus s 3 i)
  else if is rXeLoad then word (viewXeLoad s i)
  else if is rXeTrack then word (viewXeTrack s)
  else if is rXeQpInfo then word (viewQpInfo s)
  else if is rXeQpInfo2 then word (viewQpInfo2 s)
  else if is rXeWinStatus then word (viewWinStatus s)
  else if is rFlRegions then word (viewRegions s)
  else if is rFlAtomicCache then word (viewAtomicCache s)
  else if is rFlQuadStatus then word (viewQuad s)
  else if is rEpStatus then word (viewEpStatus s i)
  else if is rEpTimeNow then word s.now
  else if is rEpCcPath then setFld (rdReg s d i k) 45 32 s.fab.dests.length
  else if is rTuImgStatus then word (viewImgStatus s)
  else if is rTuAdpStatus then word (viewAdpStatus s)
  else if is rTuGrammarMap then word (viewGrammarMap s)
  else if is rMcTierStatus then word (viewTierStatus s)
  else if is rMcTierUse then word (if ctxState s i = 1 then viewTierUse s i else 0)
  else if is rHlScore then word (viewHlScore s i)
  else if is rHlProgress then word (viewProgress s)
  else if is rHlUsefulNs then word (viewUseful s)
  else if is rHlWallNs then word (viewWall s)
  else if is rLtCount then word (viewLtCount s)
  else if is rLtRebuildStatus then word (viewRebuild s)
  else if is rJrStatus then word (viewJrStatus s)
  else if is rJrQuery then word (viewJrQuery s)
  else if is rMtUse then word (viewMtUse s i)
  else if is rMtCompHeldNs then word (viewComp s false)
  else if is rMtCompEngineNs then word (viewComp s true)
  else if is rCqStatus then word (viewCqStatus s i)
  else if is rCqErr then word (viewCqErr s i)
  else if is rEqStatus then word (viewEqStatus s i)
  else if is rCqTxnStatus then word (viewTxnStatus s)
  else if is rCqPlanStatus then word s.st.plans.length
  else if is rIcSrc then word (viewIcSrc s i)
  else if is rIcVec then word (viewIcVec s i)
  else if is rIcCoreClaim then word ((claimOf s i).getD 0xFFFF)
  else if is rIcCoreStack then word (viewCoreStack s i)
  else if is rIcCoreStatus then word (b2n (s.intr.wfi.contains i))
  else if is rPmWear then word (viewPmWear s)
  else rdReg s d i k

/-- Whether a BAR0 address lies in the blocks served at all times: GL and SC (R425, R394). -/
def alwaysServed (a : Nat) : Bool := decide (a < 0x100000 ∨ (0xA00000 ≤ a ∧ a < 0xA80000))

/-- The register a read of an address reaches: none for a reserved one (R451), and for one that is not served now (R425). -/
def readable (s : State) (a : Nat) : Option (RegDesc × Nat × Nat) :=
  if s.gl.phase ≠ 2 ∧ alwaysServed a = false then none else findReg a allRegs

/-- Whether a field lies wholly in the half or halves of its register that were read. -/
def fieldRead (f : RegField) (lo hi : Bool) : Bool := (lo || decide (32 ≤ f.lo)) && (hi || decide (f.hi < 32))

/-- A value once its RC fields that a read reached are cleared (R8, R451). -/
def rcCleared (d : RegDesc) (lo hi : Bool) (w : Word) : Word :=
  d.fields.foldl (fun w f => if f.acc == .rc && fieldRead f lo hi then setFld w f.hi f.lo 0 else w) w

/-- What a read of a register does beside answering: RC fields clear (R8), EQ_STATUS's among them, and a read of IC_CORE[k]_CLAIM takes the
source (R368). -/
def readEffect (s : State) (d : RegDesc) (i k : Nat) (lo hi : Bool) : State :=
  if d.base = rIcCoreClaim.base then (if lo then coreClaim s i else s)
  else if d.base = rEqStatus.base then (if hi then setEvq s i { evq s i with lost := 0 } else s)
  else if d.fields.any (fun f => f.acc == .rc) then wrReg s d i k (rcCleared d lo hi (rdReg s d i k)) else s

/-- A read of n bytes of BAR0 (R451): the completion, Unsupported Request for another size or a misaligned one, and the read's effect. A
management core's read completes on no host link. -/
def busRead (s : State) (a n : Nat) (core : Bool) : State :=
  let answer (s : State) (b : Option (List Byte)) : State := if core then s else toHost s (.completion b)
  if !(n == 4 || n == 8) || a % n != 0 || decide (0x4000000 ≤ a) then answer s none
  else match readable s (a - a % 8) with
    | none => answer s (some (List.replicate n 0))
    | some (d, i, k) =>
      answer (readEffect s d i k (decide (a % 8 = 0)) (decide (n = 8 ∨ a % 8 = 4))) (some (toLE n ((readReg s d i k).toNat / 2 ^ (8 * (a % 8)))))

/-! ### Writes by access code -/

/-- Bits of a register whose fields have some access codes. -/
def accMask (d : RegDesc) (p : Access → Bool) : Nat :=
  d.fields.foldl (fun m f => if p f.acc then m ||| fieldMask f else m) 0

/-- Whether RWL fields of a register are locked (R8, R204, R234, R399). -/
def regLocked (s : State) (d : RegDesc) : Bool :=
  if d.base = rEpSelf.base then rbit s rEpSelf 0 20
  else if d.base = rFlDomain.base ∨ d.base = rFlQuad.base then rbit s rFlCtrl 0 2
  else if d.base = rScTamperCtrl.base then rbit s rScTamperCtrl 0 9
  else false

/-- Whether the writable fields of a value are within their ranges. -/
def rangesOk (d : RegDesc) (w : Word) : Bool :=
  d.fields.all fun f => match f.acc with
    | .rw | .rwl => decide (f.min ≤ fld w f.hi f.lo ∧ fld w f.hi f.lo ≤ f.max)
    | _ => true

/-- The value a write leaves, field by field (R8). -/
def fieldsWritten (s : State) (d : RegDesc) (old w : Word) : Word :=
  d.fields.foldl (fun v f => match f.acc with
    | .rw => setFld v f.hi f.lo (fld w f.hi f.lo)
    | .rwl => if regLocked s d then v else setFld v f.hi f.lo (fld w f.hi f.lo)
    | .w1s => setFld v f.hi f.lo (fld old f.hi f.lo ||| fld w f.hi f.lo)
    | .w1c => setFld v f.hi f.lo (fld old f.hi f.lo &&& (2 ^ (f.hi + 1 - f.lo) - 1 - fld w f.hi f.lo))
    | .ro | .wo | .rc => v) old

/-- A write by access codes alone. -/
def plainWrite (s : State) (d : RegDesc) (i k : Nat) (w : Word) : State :=
  if rangesOk d w then wrReg s d i k (fieldsWritten s d (rdReg s d i k) w) else rsvdWrite s

/-! ### Registers whose writes do more -/

/-- UNIT_RESET (R89, R145, R266): the running context's state is saved first, which takes time (R86, R320), a tile engine's accumulators to
its save area; what was saved is restored when the context runs again, so nothing of it is lost. -/
def unitReset (s : State) (cls n : Nat) : State :=
  let w := rdReg s (contextReg cls) n 0
  if n ≥ unitCount cls ∨ wbit w 8 = false then s
  else
    let c := fld w 7 0
    let s := chargeUnit s cls n c (if cls = 0 then engineNs s (accCycles (tget s.mt.teLive n)) else if cls = 3 then 8 else engineNs s 8)
    if cls = 0 then accSave s n c else s

/-- OFFLINE_CLR: the unit returns to service. -/
def offlineClr (s : State) (cls n : Nat) : State := if n < unitCount cls then wf s (statusReg cls) n 3 3 0 else s

/-- A unit's ENABLE: without it the unit takes no new work, which goes to the others of its die; an XE's queue pairs move (R266). -/
def unitEnable (s : State) (cls n : Nat) (on : Bool) : State :=
  if n ≥ unitCount cls then s
  else
    let was := rbit s (ctrlReg cls) n 0
    let s := wf s (ctrlReg cls) n 0 0 (b2n on)
    if cls = 1 ∧ was = true ∧ on = false then moveQps s n else s

def unitCtrlWrite (s : State) (cls n : Nat) (w : Word) : State :=
  let s := if wbit w 1 then unitReset s cls n else s
  let s := if wbit w 2 then offlineClr s cls n else s
  unitEnable s cls n (wbit w 0)

/-- A FAULT register: writing 1 to VALID clears the record and its address (R89). -/
def faultWrite (s : State) (cls n : Nat) (w : Word) : State :=
  if wbit w 16 then wrReg (wrReg s (faultReg cls) n 0 0) (faultAddrReg cls) n 0 0 else s

/-- EP[n]_CTRL (R203). -/
def epCtrlWrite (s : State) (n : Nat) (w : Word) : State :=
  if 2 < fld w 3 2 then rsvdWrite s
  else
    let s := portEnable (wf s rEpCtrl n 3 2 (fld w 3 2)) n (wbit w 0)
    if wbit w 1 then retrainWrite s n else s

/-- EP_SELF (R204). -/
def epSelfWrite (s : State) (w : Word) : State :=
  if rbit s rEpSelf 0 20 then s
  else
    let s := wf s rEpSelf 0 19 0 (fld w 19 0)
    if wbit w 20 then epSelfLock s else s

/-- PM_HOLDUP_REQ and PM_HOLDUP_CFG (R419): firmware stores the new values in flash, under the check the values just written give. -/
def holdupWrite (s : State) (d : RegDesc) (w : Word) : State :=
  if rangesOk d w then
    let s := wrReg s d 0 0 (fieldsWritten s d (rdReg s d 0 0) w)
    flashDue s (.holdup (rdReg s rPmHoldupReq 0 0) (rdReg s rPmHoldupCfg 0 0))
  else rsvdWrite s

/-- CQ[q]_ERR (R364). -/
def cqErrWrite (s : State) (q : Nat) (w : Word) : State :=
  let r := ring s q
  setRing s q { r with doorbell := r.doorbell && !wbit w 0, access := r.access && !wbit w 1 }

/-- A register that an error bit reports when a field is outside its range, in place of GL_ERR. -/
def rangeWrite (s : State) (d : RegDesc) (w : Word) (ok : Bool) (bad : State → State) : State :=
  if ok && rangesOk d w then wrReg s d 0 0 (fieldsWritten s d (rdReg s d 0 0) w) else bad s

/-- Whether a register instance belongs to firmware, so that the host may not write it (R84, R234, R267, R377, R399). -/
def firmwareOwned (d : RegDesc) (i : Nat) : Bool :=
  let is (x : RegDesc) : Bool := d.base == x.base
  (is rTeNumctl && i == 0) || (is rTeSrseed && i == 0) || (is rFlCtx && i == 0) || (is rXeArmCtr && decide (i < 16)) ||
  ((is rQpDbSqPi || is rQpDbCqCi || is rQpDbRxCi) && decide (i < 512)) || is rIcPrigroup ||
  isReg [rIcCoreClaim, rIcCoreEoi, rIcCoreMask, rIcCoreStack, rIcCoreStatus, rIcCoreMod] (ra1 d i) ||
  (decide (0xA00000 ≤ d.base ∧ d.base < 0xA80000) && !(is rScLcToken || is rScLcCtrl || is rScTamper || is rScTamperCtrl))

/-- Write a register: w is the whole 64-bit value, lo whether its low half is written, core that a management core writes. -/
def writeReg (s : State) (d : RegDesc) (i k : Nat) (w : Word) (lo core : Bool) : State :=
  let is (x : RegDesc) : Bool := d.base == x.base
  if is rIcSrc && decide (i < 0x300) && srcType i == 2 then (if w = 0 then s else rsvdWrite s)
  else if (w.toNat &&& definedMask d) ≠ w.toNat then rsvdWrite s
  else if firmwareOwned d i && !core then rsvdWrite s
  else if is rCqDbSqTail then (if lo then sqTailWrite s i (fld w 31 0) else s)
  else if is rCqDbCqHead then (if lo then cqHeadWrite s i (fld w 31 0) else s)
  else if is rEqHead then (if lo then eqHeadWrite s i (fld w 31 0) else s)
  else if is rQpDbCqCi then (if lo then cqCi s i (fld w 31 0) else s)
  else if is rQpDbRxCi then (if lo then rxCi s i (fld w 31 0) else s)
  else if is rQpDbSqPi then s
  else if is rCqCtrl then
    let was := (hostRoute s (irqReply i)).2
    routeEnabled (cqCtrlWrite s i w) (irqReply i) was
  else if is rEqCtrl then
    let was := (hostRoute s (irqEvent i)).2
    routeEnabled (eqCtrlWrite s i w) (irqEvent i) was
  else if is rCqErr then cqErrWrite s i w
  else if is rCqSqBase || is rCqCqBase || is rEqBase then (if fld w 5 0 = 0 then plainWrite s d i k w else rsvdWrite s)
  else if is rTeCtrl then unitCtrlWrite s 0 i w
  else if is rXeCtrl then unitCtrlWrite s 1 i w
  else if is rTuCtrl then unitCtrlWrite s 2 i w
  else if is rCuCtrl then unitCtrlWrite s 3 i w
  else if is rTeFault then faultWrite s 0 i w
  else if is rXeFault then faultWrite s 1 i w
  else if is rTuFault then faultWrite s 2 i w
  else if is rCuFault then faultWrite s 3 i w
  else if is rMcEccAddr || is rSpEccAddr then (if wbit w 63 then wrReg s d i k 0 else s)
  else if is rEpCtrl then epCtrlWrite s i w
  else if is rEpSelf then epSelfWrite s w
  else if is rEpTimeSet then epTimeSet s w.toNat
  else if is rEpRoute then flushAll (plainWrite s d i k w)
  else if is rEpCcWnd then rangeWrite s d w (decide (fld w 63 48 ≤ fld w 23 0 ∧ fld w 23 0 ≤ fld w 47 24)) rsvdWrite
  else if is rFlLoadTimeout then rangeWrite s d w (decide (fld w 24 16 < fld w 10 0)) rsvdWrite
  else if is rHlThresh then rangeWrite s d w (decide (fld w 31 16 < fld w 15 0)) rsvdWrite
  else if is rLtLease then rangeWrite s d w (decide (3 * fld w 15 0 ≤ fld w 31 16)) rsvdWrite
  else if is rPgFreeWm then rangeWrite s d w (decide (fld w 24 0 < fld w 49 25)) (fun s => pgErr s 5)
  else if is rPgTailCtrl then rangeWrite s d w true (fun s => pgErr s 6)
  else if is rPgReclaim then rangeWrite s d w true (fun s => pgErr s 7)
  else if is rTeAttnCtrl then rangeWrite s d w true (fun s => setErr s rTeAttnErr irqAttnErr 3)
  else if is rGlShutter then (if shutter s = 1 then rsvdWrite s else plainWrite s d i k w)
  else if is rGlMeterMode then
    let on := wbit w 0 && !rbit s rGlMeterMode 0 0
    let s := plainWrite s d i k w
    if on then modMt s fun m => { m with comps := [] } else s
  else if is rPmHoldupReq || is rPmHoldupCfg then holdupWrite s d w
  else if is rIcSrc then icSrcWrite s i w core
  else if is rIcVec then icVecWrite s i w
  else if is rHpIdleHint then idleHint s i w
  else if is rIcHostEoi then (if lo then hostEoi s (fld w 10 0) else s)
  else if is rIcCoreEoi then (if lo then coreEoi s i (fld w 9 0) else s)
  else if is rSpApt2 then aptWrite s i w.toNat
  else if is rSpApt0 || is rSpApt1 then aptField s d i w
  else if is rScTamper then tamperWrite s w.toNat
  else if is rScLcCtrl then (if wbit w 0 then lcGo s else s)
  else plainWrite s d i k w

/-- A write of 4 B or 8 B to BAR0 (R451): a 4 B write changes only its half. Any other size or alignment is an Unsupported
Request and changes nothing; a reserved address sets GL_ERR.RSVD_WRITE. During a reset, and without an image, only the GL and SC
blocks take writes (R425, R394). -/
def busWrite (s : State) (a n v : Nat) (core : Bool) : State :=
  if !(n == 4 || n == 8) || a % n != 0 || decide (0x4000000 ≤ a) then s
  else if s.gl.phase ≠ 2 ∧ alwaysServed a = false then s
  else match findReg (a - a % 8) allRegs with
    | none => rsvdWrite s
    | some (d, i, k) =>
      let keep := word ((rdReg s d i k).toNat &&& accMask d fun x => x == .rw || x == .rwl)
      let w := if n = 8 then word v else if a % 8 = 0 then setFld keep 31 0 v else setFld keep 63 32 v
      writeReg s d i k w (n == 8 || a % 8 == 0) core

/-! ### The management bus (R457) -/

/-- MB_SET_OFFSET: command 0x20. -/
def mbSetOffset (s : State) (off : Nat) : State := modGlobal s fun g => { g with mbOffset := some (off % 2 ^ 32) }

/-- Whether the management bus serves an offset, aligned to 8 B: the GL, PM, HL and SC blocks. -/
def mbServed (a : Nat) : Bool :=
  a % 8 == 0 && decide (a < 0x100000 ∨ (0x300000 ≤ a ∧ a < 0x400000) ∨ (0xA00000 ≤ a ∧ a < 0xB00000))

/-- MB_READ_REGISTER: command 0x21 answers a status and the register. A read of the HL block takes notice of the last PREDICTIVE
event. -/
def mbRead (s : State) : State :=
  let (st, w) : Nat × Word := match s.gl.mbOffset with
    | none => (3, 0)
    | some a =>
      if mbServed a = false then (2, 0)
      else if rbit s rGlStatus 0 0 = false ∧ a ≠ ra0 rGlId ∧ a ≠ ra0 rGlStatus ∧ a ≠ ra0 rGlResetCause then (1, 0)
      else (0, match findReg a allRegs with | some (d, i, k) => readReg s d i k | none => 0)
  modGlobal s fun g => { g with
    mbOut := (st, w) :: g.mbOut,
    predictAt := if st = 0 ∧ 0xA80000 ≤ g.mbOffset.getD 0 ∧ g.mbOffset.getD 0 < 0xAA0000 then none else g.predictAt }

/-- MB_ALERT_N is asserted while a PREDICTIVE event of the last 10 s is unread through the management bus. -/
def mbAlert (s : State) : Bool := match s.gl.predictAt with
  | none => false
  | some t => decide (s.now < t + 10000000000)

end Sys2Proof.Machine
end

