-- ==== Sys2Proof/Machine/HostRows.lean ====
section
/-! DEFINITION. The opcodes of R354 as commands that have been taken from a ring, the taking of a command (R339), and the doorbells
of rings and event queues (R338, R363, R364). -/
namespace Sys2Proof.Machine

/-- QP_MODIFY by its ACTION, W1 [17:16]. -/
def opQpModify (id : Nat) (c : Cmd) (s : State) : State :=
  match fld c.w1 17 16 with
  | 0 => opQpConnect id c s
  | 1 => opQpDrain id c s
  | 2 => opQpError id c s
  | _ => opQpReset id c s

/-- A taken command under an opcode: the checks of R341, then the opcode's own operation (R354). An opcode that is not listed fails
check 1. -/
def opRun (op : Nat) (c : Cmd) (s : State) : State :=
  match op with
  | 0x00 => runOp 0x00 noRange opIdentify c s
  | 0x01 => runOp 0x01 noRange opSetRole c s
  | 0x02 => runOp 0x02 noRange opSetMode c s
  | 0x08 => runOp 0x08 noRange opTxnBegin c s
  | 0x09 => runOp 0x09 noRange opTxnCommit c s
  | 0x0A => runOp 0x0A noRange opTxnAbort c s
  | 0x0C => runOp 0x0C noRange opShutterClose c s
  | 0x0D => runOp 0x0D noRange opShutterOpen c s
  | 0x0E => runOp 0x0E noRange opWarmReset c s
  | 0x0F => runOp 0x0F noRange opColdReset c s
  | 0x10 => runOp 0x10 noRange opSeqCreate c s
  | 0x11 => runOp 0x11 noRange opSeqAppend c s
  | 0x12 => runOp 0x12 noRange opSeqFork c s
  | 0x13 => runOp 0x13 pauseCheck opSeqPause c s
  | 0x14 => runOp 0x14 noRange opSeqResume c s
  | 0x15 => runOp 0x15 noRange opResumeHint c s
  | 0x16 => runOp 0x16 noRange opSeqCancel c s
  | 0x17 => runOp 0x17 noRange opSeqFree c s
  | 0x18 => runOp 0x18 noRange opSeqQuery c s
  | 0x30 => runOp 0x30 noRange opPlanLoad c s
  | 0x31 => runOp 0x31 noRange opPlanUnload c s
  | 0x32 => runOp 0x32 noRange opStepSubmit c s
  | 0x40 => runOp 0x40 noRange opImgLoad c s
  | 0x41 => runOp 0x41 noRange opImgUnload c s
  | 0x44 => runOp 0x44 noRange opAdpLoad c s
  | 0x45 => runOp 0x45 noRange opAdpReplace c s
  | 0x46 => runOp 0x46 noRange opAdpUnload c s
  | 0x48 => runOp 0x48 noRange opGrammarLoad c s
  | 0x50 => runOp 0x50 noRange opQpCreate c s
  | 0x51 => runOp 0x51 noRange opQpModify c s
  | 0x52 => runOp 0x52 noRange opQpDestroy c s
  | 0x54 => runOp 0x54 noRange opWindowCreate c s
  | 0x55 => runOp 0x55 noRange opWindowInvalidate c s
  | 0x56 => runOp 0x56 noRange opWindowDestroy c s
  | 0x58 => runOp 0x58 noRange opRegionCreate c s
  | 0x59 => runOp 0x59 noRange opRegionModify c s
  | 0x5A => runOp 0x5A noRange opLatchQuery c s
  | 0x5B => runOp 0x5B noRange opLatchAssign c s
  | 0x5C => runOp 0x5C noRange opHingeOffer c s
  | 0x70 => runOp 0x70 shaperCheck opSetShaper c s
  | 0x71 => runOp 0x71 policerCheck opSetPolicer c s
  | 0x72 => runOp 0x72 shareCheck opSetShare c s
  | 0x73 => runOp 0x73 tierCheck opSetTierPolicy c s
  | 0x74 => runOp 0x74 noRange opCtxCreate c s
  | 0x75 => runOp 0x75 noRange opCtxDestroy c s
  | 0x80 => runOp 0x80 noRange opSprintRequest c s
  | 0x81 => runOp 0x81 noRange opSprintRelease c s
  | 0x82 => runOp 0x82 capCheck opSetPowerCap c s
  | 0xE0 => runOp 0xE0 noRange opDiagEcho c s
  | 0xE1 => runOp 0xE1 noRange opDiagFrameRead c s
  | n => runOp n noRange (fun id _ s => finish s id sInvalidOpcode 0 0 0) c s

/-- The end of a taken command. Commands are taken only while the controller runs. -/
def hosted (op : Nat) (c : Cmd) (s : State) : Out := done s (if s.gl.phase = 2 then settle (opRun op c s) else s)

/-- A QP_MODIFY entry with an ACTION. -/
def withAction (c : Cmd) (a : Nat) : Cmd := { c with w1 := setFld c.w1 17 16 a }

/-- IDENTIFY (R355). -/
def execIdentify (c : Cmd) (s : State) : Out := hosted 0x00 c s

/-- SET_ROLE (R4). -/
def execSetRole (c : Cmd) (s : State) : Out := hosted 0x01 c s

/-- SET_MODE (R354). -/
def execSetMode (c : Cmd) (s : State) : Out := hosted 0x02 c s

/-- TXN_BEGIN (R356). -/
def execTxnBegin (c : Cmd) (s : State) : Out := hosted 0x08 c s

/-- TXN_COMMIT (R357). -/
def execTxnCommit (c : Cmd) (s : State) : Out := hosted 0x09 c s

/-- TXN_ABORT (R358). -/
def execTxnAbort (c : Cmd) (s : State) : Out := hosted 0x0A c s

/-- SHUTTER_CLOSE (R434). -/
def execShutterClose (c : Cmd) (s : State) : Out := hosted 0x0C c s

/-- SHUTTER_OPEN (R438). -/
def execShutterOpen (c : Cmd) (s : State) : Out := hosted 0x0D c s

/-- WARM_RESET (R423). -/
def execWarmReset (c : Cmd) (s : State) : Out := hosted 0x0E c s

/-- COLD_RESET (R429). -/
def execColdReset (c : Cmd) (s : State) : Out := hosted 0x0F c s

/-- SEQ_CREATE (R354). -/
def execSeqCreate (c : Cmd) (s : State) : Out := hosted 0x10 c s

/-- SEQ_APPEND (R47). -/
def execSeqAppend (c : Cmd) (s : State) : Out := hosted 0x11 c s

/-- SEQ_FORK (R61). -/
def execSeqFork (c : Cmd) (s : State) : Out := hosted 0x12 c s

/-- SEQ_PAUSE (R166). -/
def execSeqPause (c : Cmd) (s : State) : Out := hosted 0x13 c s

/-- SEQ_RESUME (R168). -/
def execSeqResume (c : Cmd) (s : State) : Out := hosted 0x14 c s

/-- RESUME_HINT (R169). -/
def execResumeHint (c : Cmd) (s : State) : Out := hosted 0x15 c s

/-- SEQ_CANCEL (R16). -/
def execSeqCancel (c : Cmd) (s : State) : Out := hosted 0x16 c s

/-- SEQ_FREE (R354). -/
def execSeqFree (c : Cmd) (s : State) : Out := hosted 0x17 c s

/-- SEQ_QUERY (R354). -/
def execSeqQuery (c : Cmd) (s : State) : Out := hosted 0x18 c s

/-- PLAN_LOAD (R351). -/
def execPlanLoad (c : Cmd) (s : State) : Out := hosted 0x30 c s

/-- PLAN_UNLOAD (R354). -/
def execPlanUnload (c : Cmd) (s : State) : Out := hosted 0x31 c s

/-- STEP_SUBMIT (R352). -/
def execStepSubmit (c : Cmd) (s : State) : Out := hosted 0x32 c s

/-- IMG_LOAD (R136). -/
def execImgLoad (c : Cmd) (s : State) : Out := hosted 0x40 c s

/-- IMG_UNLOAD (R139). -/
def execImgUnload (c : Cmd) (s : State) : Out := hosted 0x41 c s

/-- ADP_LOAD (R140). -/
def execAdpLoad (c : Cmd) (s : State) : Out := hosted 0x44 c s

/-- ADP_REPLACE (R141). -/
def execAdpReplace (c : Cmd) (s : State) : Out := hosted 0x45 c s

/-- ADP_UNLOAD (R142). -/
def execAdpUnload (c : Cmd) (s : State) : Out := hosted 0x46 c s

/-- GRAMMAR_LOAD (R125). -/
def execGrammarLoad (c : Cmd) (s : State) : Out := hosted 0x48 c s

/-- QP_CREATE (R235). -/
def execQpCreate (c : Cmd) (s : State) : Out := hosted 0x50 c s

/-- QP_CONNECT (R237): QP_MODIFY with ACTION 0. -/
def execQpConnect (c : Cmd) (s : State) : Out := hosted 0x51 (withAction c 0) s

/-- QP_DRAIN (R236): QP_MODIFY with ACTION 1. -/
def execQpDrain (c : Cmd) (s : State) : Out := hosted 0x51 (withAction c 1) s

/-- QP_MODIFY_ERROR (R238): QP_MODIFY with ACTION 2. -/
def execQpModifyError (c : Cmd) (s : State) : Out := hosted 0x51 (withAction c 2) s

/-- QP_MODIFY_RESET (R236): QP_MODIFY with ACTION 3. -/
def execQpModifyReset (c : Cmd) (s : State) : Out := hosted 0x51 (withAction c 3) s

/-- QP_DESTROY (R236). -/
def execQpDestroy (c : Cmd) (s : State) : Out := hosted 0x52 c s

/-- WINDOW_CREATE (R249). -/
def execWindowCreate (c : Cmd) (s : State) : Out := hosted 0x54 c s

/-- WINDOW_INVALIDATE (R250). -/
def execWindowInvalidate (c : Cmd) (s : State) : Out := hosted 0x55 c s

/-- WINDOW_DESTROY (R250). -/
def execWindowDestroy (c : Cmd) (s : State) : Out := hosted 0x56 c s

/-- REGION_CREATE (R207). -/
def execRegionCreate (c : Cmd) (s : State) : Out := hosted 0x58 c s

/-- REGION_MODIFY (R209). -/
def execRegionModify (c : Cmd) (s : State) : Out := hosted 0x59 c s

/-- REGION_DESTROY (R213): REGION_MODIFY with DESTROY set. -/
def execRegionDestroy (c : Cmd) (s : State) : Out := hosted 0x59 { c with w2 := setFld c.w2 0 0 1 } s

/-- LATCH_QUERY (R354). -/
def execLatchQuery (c : Cmd) (s : State) : Out := hosted 0x5A c s

/-- LATCH_ASSIGN (R282). -/
def execLatchAssign (c : Cmd) (s : State) : Out := hosted 0x5B c s

/-- HINGE_OFFER (R277). -/
def execHingeOffer (c : Cmd) (s : State) : Out := hosted 0x5C c s

/-- SET_SHAPER (R326). -/
def execSetShaper (c : Cmd) (s : State) : Out := hosted 0x70 c s

/-- SET_POLICER (R328). -/
def execSetPolicer (c : Cmd) (s : State) : Out := hosted 0x71 c s

/-- SET_SHARE (R319). -/
def execSetShare (c : Cmd) (s : State) : Out := hosted 0x72 c s

/-- SET_TIER_POLICY (R161). -/
def execSetTierPolicy (c : Cmd) (s : State) : Out := hosted 0x73 c s

/-- CTX_CREATE (R308). -/
def execCtxCreate (c : Cmd) (s : State) : Out := hosted 0x74 c s

/-- CTX_DESTROY (R313). -/
def execCtxDestroy (c : Cmd) (s : State) : Out := hosted 0x75 c s

/-- SPRINT_REQUEST (R410). -/
def execSprintRequest (c : Cmd) (s : State) : Out := hosted 0x80 c s

/-- SPRINT_RELEASE (R413). -/
def execSprintRelease (c : Cmd) (s : State) : Out := hosted 0x81 c s

/-- SET_POWER_CAP (R408). -/
def execSetPowerCap (c : Cmd) (s : State) : Out := hosted 0x82 c s

/-- DIAG_ECHO (R354). -/
def execDiagEcho (c : Cmd) (s : State) : Out := hosted 0xE0 c s

/-- DIAG_FRAME_READ (R354). -/
def execDiagFrameRead (c : Cmd) (s : State) : Out := hosted 0xE1 c s

/-! ### Doorbells and the taking of commands -/

/-- SQ_TAIL (R338). -/
def execSqTail (t q v : Nat) (s : State) : Out := running s t fun s => sqTailWrite s q v

/-- CQ_HEAD (R338, R339). -/
def execCqHead (t q v : Nat) (s : State) : Out := running s t fun s => cqHeadWrite s q v

/-- COMMAND_TAKE (R339): ring q's next entry, with what its reads of host or fabric buffers return; none when the read of the entry
itself failed (R364). -/
def execCommandTake (t q : Nat) (e : Option CmdEntry) (s : State) : Out := running s t fun s =>
  match e with
  | none => if ringLive s q then ringAccessFailed s q else s
  | some e =>
    let c := cmdOf q e
    if mayTakeCmd s q c then opRun (cOpcode c) c (advanceHead s q) else s

/-- CQ_ENABLE (R364). -/
def execCqEnable (t q : Nat) (w : Word) (s : State) : Out := running s t fun s => writeReg s rCqCtrl q 0 w true false

/-- EQ_ENABLE (R364). -/
def execEqEnable (t e : Nat) (w : Word) (s : State) : Out := running s t fun s => writeReg s rEqCtrl e 0 w true false

/-- EQ_HEAD (R363). -/
def execEqHead (t e v : Nat) (s : State) : Out := running s t fun s => eqHeadWrite s e v

end Sys2Proof.Machine
end

