-- ==== Sys2Proof/Machine/PacketRows.lean ====
section
/-! DEFINITION. Packets that arrive, by type: queue pairs (R251–R260), rack accesses (R220), coherence (R230), acknowledgements,
time (R197); relaying, egress and pane requests. -/
namespace Sys2Proof.Machine

/-- The context an arriving packet is charged to (R325): of its queue pair, of the pane window it names, of its rack access; for a
message to firmware that of what the message concerns, as given. -/
def rxCtx (s : State) (c : Nat) (p : Pkt) : Nat :=
  if plainType p.type then 0
  else if p.type = ptLoadReq ∨ p.type = ptStore ∨ (p.type = ptAtomicReq ∧ bit p.opWord 47 = true) then bits p.opWord 55 48
  else if p.type = ptLoadResp ∨ p.type = ptStoreResp ∨ (p.type = ptAtomicResp ∧ p.qp = 0) then
    match (accSeq s p.src).out.find? fun a => a.msn == p.msn with
    | some a => a.ctx
    | none => 0
  else if p.type = ptCoherence then
    match regionAt s (regionBase (bits p.opWord 43 0)) with
    | some r => r.ctx
    | none => 0
  else if p.qp < 512 then
    match (if namesWindow p.type then winOf s p.winIdx else none) with
    | some w => w.ctx
    | none => c
  else match qpOf s p.qp with
    | some q => q.ctx
    | none => 0

/-- A frame arrives at a port (R187) and its packet, when it is one of some types, reaches the transport. -/
def arrive (s : State) (port : Nat) (fr : List Byte) (c : Nat) (types : List Nat) (f : State → Pkt → State) : State :=
  match receive s port fr (rxCtx s c) with
  | (some p, s) => if types.contains p.type then f s p else s
  | (none, s) => s

/-- A packet of a queue pair in its turn, at a controller that may have closed its Shutter (R251, R433). -/
def qpArrive (s : State) (p : Pkt) : State := qpIn s p (serving s)

/-- RX_WRITE (R251, R187). -/
def execRxWrite (t port : Nat) (fr : List Byte) (s : State) : Out := running s t fun s => arrive s port fr 0 [ptWrite] qpArrive

/-- RX_WRITE_IMM (R251). -/
def execRxWriteImm (t port : Nat) (fr : List Byte) (s : State) : Out := running s t fun s => arrive s port fr 0 [ptWriteImm] qpArrive

/-- RX_SEND (R260), and the packets of PANE_REQUEST and CONTROL messages, which are received as a SEND's (R263). c is the context
such a message concerns. -/
def execRxSend (t port : Nat) (fr : List Byte) (c : Nat) (s : State) : Out := running s t fun s =>
  arrive s port fr c [ptSend, ptPaneReq, ptControl] qpArrive

/-- RX_READ_REQ (R257). -/
def execRxReadReq (t port : Nat) (fr : List Byte) (s : State) : Out := running s t fun s => arrive s port fr 0 [ptReadReq] qpArrive

/-- READ_RESP (R259). -/
def execReadResp (t port : Nat) (fr : List Byte) (s : State) : Out := running s t fun s => arrive s port fr 0 [ptReadResp] readRespIn

/-- ATOMIC_REQ (R225): of a queue pair, or a rack atomic. -/
def execAtomicReq (t port : Nat) (fr : List Byte) (s : State) : Out := running s t fun s => arrive s port fr 0 [ptAtomicReq] fun s p =>
  if bit p.opWord 47 then accessIn s p (serving s) ⟨0, false, false⟩ else qpArrive s p

/-- ATOMIC_RESP (R226): of a queue pair's atomic, or of a rack atomic. -/
def execAtomicResp (t port : Nat) (fr : List Byte) (s : State) : Out := running s t fun s => arrive s port fr 0 [ptAtomicResp] fun s p =>
  if p.qp = 0 then respIn s p else atomicRespQp s p

/-- FLUSH_REQ (R258). -/
def execFlushReq (t port : Nat) (fr : List Byte) (s : State) : Out := running s t fun s => arrive s port fr 0 [ptFlushReq] qpArrive

/-- FLUSH_RESP (R243). -/
def execFlushResp (t port : Nat) (fr : List Byte) (s : State) : Out := running s t fun s => arrive s port fr 0 [ptFlushResp] flushRespIn

/-- ACK (R193). -/
def execAck (t port : Nat) (fr : List Byte) (s : State) : Out := running s t fun s => arrive s port fr 0 [ptAck] fun s p =>
  cohAcked (ackIn s p) p

/-- NAK (R248). -/
def execNak (t port : Nat) (fr : List Byte) (s : State) : Out := running s t fun s => arrive s port fr 0 [ptNak] nakIn

/-- LOAD_REQ (R220). -/
def execLoadReq (t port : Nat) (fr : List Byte) (s : State) : Out := running s t fun s => arrive s port fr 0 [ptLoadReq] fun s p =>
  accessIn s p (serving s) ⟨0, false, false⟩

/-- LOAD_RESP (R216). -/
def execLoadResp (t port : Nat) (fr : List Byte) (s : State) : Out := running s t fun s => arrive s port fr 0 [ptLoadResp] respIn

/-- STORE (R220). -/
def execStore (t port : Nat) (fr : List Byte) (s : State) : Out := running s t fun s => arrive s port fr 0 [ptStore] fun s p =>
  accessIn s p (serving s) ⟨0, false, false⟩

/-- STORE_RESP (R218). -/
def execStoreResp (t port : Nat) (fr : List Byte) (s : State) : Out := running s t fun s => arrive s port fr 0 [ptStoreResp] respIn

/-- A coherence message arrives (R220, R230). -/
def cohArrive (s : State) (port : Nat) (fr : List Byte) (arg : CohArg) (msg : Nat) : State :=
  arrive s port fr 0 [ptCoherence] fun s p => if bits p.opWord 47 44 = msg then accessIn s p (serving s) arg else s

/-- GET_S (R230). -/
def execGetS (t port : Nat) (fr : List Byte) (arg : CohArg) (s : State) : Out := running s t fun s => cohArrive s port fr arg cGetS
/-- GET_M (R230). -/
def execGetM (t port : Nat) (fr : List Byte) (arg : CohArg) (s : State) : Out := running s t fun s => cohArrive s port fr arg cGetM
/-- PUT_M (R230). -/
def execPutM (t port : Nat) (fr : List Byte) (arg : CohArg) (s : State) : Out := running s t fun s => cohArrive s port fr arg cPutM
/-- PUT_CLEAN (R230). -/
def execPutClean (t port : Nat) (fr : List Byte) (arg : CohArg) (s : State) : Out := running s t fun s => cohArrive s port fr arg cPutClean
/-- INV (R230). -/
def execInv (t port : Nat) (fr : List Byte) (arg : CohArg) (s : State) : Out := running s t fun s => cohArrive s port fr arg cInv
/-- FWD_S (R230). -/
def execFwdS (t port : Nat) (fr : List Byte) (arg : CohArg) (s : State) : Out := running s t fun s => cohArrive s port fr arg cFwdS
/-- FWD_M (R230). -/
def execFwdM (t port : Nat) (fr : List Byte) (arg : CohArg) (s : State) : Out := running s t fun s => cohArrive s port fr arg cFwdM
/-- DATA (R230). -/
def execCoherenceData (t port : Nat) (fr : List Byte) (arg : CohArg) (s : State) : Out := running s t fun s => cohArrive s port fr arg cData
/-- ACK for INV or FWD (R230). -/
def execCoherenceAck (t port : Nat) (fr : List Byte) (arg : CohArg) (s : State) : Out := running s t fun s => cohArrive s port fr arg cAck

/-- PANE_REQUEST (R101): the message of an endpoint, with what this holder knows beside it. A closed Shutter answers it too (R115, R433). -/
def execPaneRequest (t src : Nat) (req : List Byte) (x : PaneArg) (s : State) : Out := running s t fun s => paneRequest s src req x

/-- PANE_COMPUTED (R104): the merge of R95 ran on the engine te (DESIGN CHOICE, log entry 123). -/
def execPaneComputed (t id te : Nat) (s : State) : Out := running s t fun s => paneComputed s id te

/-- RELAY_FORWARD (R190): a frame for another endpoint; one for this endpoint is the packet rows' and does nothing here. -/
def execRelayForward (t port : Nat) (fr : List Byte) (s : State) : Out := running s t fun s => arrive s port fr 0 [] fun s _ => s

/-- EGRESS_NEXT_FRAME (R326). -/
def execEgressNextFrame (t port : Nat) (s : State) : Out := running s t fun s => egressRun s port

/-! ### Device time -/

/-- TIME_SYNC (R197). -/
def execTimeSync (t port : Nat) (fr : List Byte) (s : State) : Out := running s t fun s => arrive s port fr 0 [ptTimeSync] timeSync
/-- TIME_DELAY_REQ (R197). -/
def execTimeDelayReq (t port : Nat) (fr : List Byte) (s : State) : Out := running s t fun s => arrive s port fr 0 [ptTimeReq] timeReq
/-- TIME_DELAY_RESP (R197). -/
def execTimeDelayResp (t port : Nat) (fr : List Byte) (s : State) : Out := running s t fun s => arrive s port fr 0 [ptTimeResp] timeResp
/-- TIME_EXCHANGE_TIMER (R197). -/
def execTimeExchangeTimer (t : Nat) (s : State) : Out := running s t timeTimer
/-- HOLDOVER_ENTRY (R198). -/
def execHoldoverEntry (t : Nat) (s : State) : Out := running s t holdoverEntry
/-- HOLDOVER_LIMIT (R198). -/
def execHoldoverLimit (t : Nat) (s : State) : Out := running s t holdoverLimit
/-- PPS_IN_EDGE (R462). -/
def execPpsInEdge (t : Nat) (s : State) : Out := running s t ppsEdge

end Sys2Proof.Machine
end

