-- ==== Sys2Proof/Machine/PortRows.lean ====
section
/-! DEFINITION. Ports of the fabric, destinations, keys, accesses outstanding, the quad, and the host and CXL links. -/
namespace Sys2Proof.Machine

/-- PORT_TRAIN_DONE (R179). -/
def execPortTrainDone (t n : Nat) (pass : List Nat) (s : State) : Out := powered s t fun s => trainDone s n pass

/-- UNCORRECTABLE_BURST (R180). -/
def execUncorrectableBurst (t n uncorr corr : Nat) (s : State) : Out := powered s t fun s => fecInterval s n uncorr corr

/-- BLOCK_LOCK_LOSS (R180). -/
def execBlockLockLoss (t n lane : Nat) (s : State) : Out := powered s t fun s => blockLockLoss s n lane

/-- STREAM_PLACE_LOST (R181). -/
def execStreamPlaceLost (t n frames : Nat) (s : State) : Out := powered s t fun s => streamLost s n frames

/-- EREFCLK_LOSS (R465). -/
def execErefclkLoss (t io : Nat) (s : State) : Out := powered s t fun s => erefLoss s io

/-- DEST_STATE_IDLE (R192). -/
def execDestStateIdle (t d : Nat) (s : State) : Out := running s t fun s => destIdle s d

/-- PATH_REROLL (R194). -/
def execPathReroll (t d p : Nat) (s : State) : Out := running s t fun s => pathReroll s d p

/-- KEY_PHASE_RETIRE (R196). -/
def execKeyPhaseRetire (t : Nat) (s : State) : Out := running s t keyRetire

/-- LOAD_STORE_RESEND (R221). -/
def execLoadStoreResend (t d msn : Nat) (s : State) : Out := running s t fun s => loadStoreTimer s d msn

/-- ATOMIC_RESEND (R221). -/
def execAtomicResend (t d msn : Nat) (s : State) : Out := running s t fun s => atomicTimer s d msn

/-- ATOMIC_PENDING_RESEND (R225). -/
def execAtomicPendingResend (t d msn : Nat) (s : State) : Out := running s t fun s => atomicPending s d msn

/-- DEST_DEAD (R222). -/
def execDestDead (t d : Nat) (s : State) : Out := running s t fun s => destDead s d

/-- DEAD_HOLD_END (R223). -/
def execDeadHoldEnd (t d : Nat) (s : State) : Out := running s t fun s =>
  let a := accSeq s d
  if a.deadTo ≠ 0 ∧ a.deadTo ≤ s.now then setAccSeq s d { a with deadTo := 0 } else s

/-- ATOMIC_CACHE_EVICT (R225). -/
def execAtomicCacheEvict (t : Nat) (s : State) : Out := running s t evictAtomics

/-- QUAD_PROBE (R227). -/
def execQuadProbe (t peer rtt : Nat) (hopSame : Bool) (s : State) : Out := running s t fun s => quadProbe s peer rtt hopSame

/-- HP_HOT_RESET (R452): kind 0 a hot reset, 1 a link disable, 2 HP leaves L0 otherwise. -/
def execHpHotReset (t kind : Nat) (s : State) : Out := powered s t fun s => hpReset s kind

/-- HP_RETURN (R452). -/
def execHpReturn (t rate width : Nat) (s : State) : Out := powered s t fun s => hpReturn s rate width

/-- D3HOT_ENTRY (R452). -/
def execD3hotEntry (t : Nat) (s : State) : Out := powered s t d3hot

/-- HOST_LOSS (R442). -/
def execHostLoss (t : Nat) (s : State) : Out := running s t hostLoss

/-- CXL_LINK_UP (R155). -/
def execCxlLinkUp (t i : Nat) (devices : List Nat) (marker : Option Nat) (rate width : Nat) (s : State) : Out := powered s t fun s => cxlUp s i devices marker rate width

/-- CXL_LINK_DOWN (R157). -/
def execCxlLinkDown (t i : Nat) (s : State) : Out := powered s t fun s => cxlDown s i

/-- CXL_DEVICE_REMOVED (R456). -/
def execCxlDeviceRemoved (t i d : Nat) (s : State) : Out := powered s t fun s => cxlRemoved s i d

/-- CXL_DEVICE_RETURN (R456). -/
def execCxlDeviceReturn (t i d mib : Nat) (s : State) : Out := powered s t fun s => cxlReturn s i d mib

/-- CXL_READ_TIMEOUT (R456). -/
def execCxlReadTimeout (t n : Nat) (reader : Option (Nat × Nat × Option Nat)) (x : ReadEnd) (s : State) : Out := running s t fun s => cxlTimeout s n reader x.corr x.solved

/-- AUX_PERST (R454). -/
def execAuxPerst (t n : Nat) (s : State) : Out := powered s t fun s => auxPerst s n

end Sys2Proof.Machine
end

