-- ==== Sys2Proof/Machine/PowerRows.lean ====
section
/-! DEFINITION. Gating, self-refresh and retention, telemetry, pacing, sprint voltage, wear and health. -/
namespace Sys2Proof.Machine

/-- UNIT_IDLE_GATE (R402). -/
def execUnitIdleGate (t cls n : Nat) (s : State) : Out := running s t fun s => unitGate s cls n

/-- UNIT_WAKE_DONE (R403). -/
def execUnitWakeDone (t cls n : Nat) (s : State) : Out := running s t fun s => unitAwake s cls n

/-- PLL_STOP (R401). -/
def execPllStop (t die : Nat) (s : State) : Out := running s t fun s => pllStop s die

/-- PLL_RESTART_DONE (R401). -/
def execPllRestartDone (t die : Nat) (s : State) : Out := running s t fun s => pllDone s die

/-- STACK_SELF_REFRESH (R404). -/
def execStackSelfRefresh (t k : Nat) (s : State) : Out := running s t fun s => stackSleep s k

/-- SRAM_RETENTION (R382). -/
def execSramRetention (t b : Nat) (s : State) : Out := running s t fun s => sramRetain s b

/-- SRAM_BANK_WAKE (R382). -/
def execSramBankWake (t b : Nat) (s : State) : Out := running s t fun s => bankAwake s b

/-- PATROL_SCRUB (R152): corrected errors by row, and the uncorrectable ones. -/
def execPatrolScrub (t f : Nat) (corrected : NTable Nat) (hits : List EccHit) (s : State) : Out := running s t fun s => patrolScrub s f corrected hits

/-- STACK_CALIBRATION (R149): calibration runs in refresh windows, so nothing but time passes. -/
def execStackCalibration (t _k : Nat) (s : State) : Out := running s t fun s => s

/-- STACK_TEMP_REPORT (R31). -/
def execStackTempReport (t k temp : Nat) (s : State) : Out := running s t fun s => stackTemp s k temp

/-- PMB_ALERT (R458). -/
def execPmbAlert (t : Nat) (faults : List Nat) (s : State) : Out := running s t fun s => pmbAlert s faults

/-- PMBUS_POLL (R406). -/
def execPmbusPoll (t i : Nat) (r : Option Poll) (s : State) : Out := running s t fun s => pmbusPoll s i r

/-- POWER_ESTIMATE_TICK (R407). -/
def execPowerEstimateTick (t seA uj sense : Nat) (s : State) : Out := running s t fun s => estimateTick s seA uj sense

/-- PACING_TICK (R408). -/
def execPacingTick (t p now : Nat) (s : State) : Out := running s t fun s => pacingTick s p now

/-- THERMAL_EVAL (R412). -/
def execThermalEval (t : Nat) (x : Thermal) (s : State) : Out := running s t fun s => thermalEval s x

/-- SPRINT_VOLTAGE_STEP (R411). -/
def execSprintVoltageStep (x : VoltageArg) (s : State) : Out := running s x.at_ fun s => voltageStep s x.mon

/-- WEAR_SLOT_CHANGE (R415). -/
def execWearSlotChange (t : Nat) (s : State) : Out := running s t wearSlot

/-- HEALTH_DECAY (R303). -/
def execHealthDecay (t : Nat) (s : State) : Out := running s t healthDecay

/-- THERMAL_TRIP (R32). -/
def execThermalTrip (t die : Nat) (x : TripArg) (s : State) : Out := always s t fun s => thermalTrip s die x.sensor x.temp

end Sys2Proof.Machine
end

