-- ==== Sys2Proof/Machine/RegRows.lean ====
section
/-! DEFINITION. Writes of registers, interrupts, BAR2 and the management bus. -/
namespace Sys2Proof.Machine

/-- UNIT_RESET (R89). -/
def execUnitReset (t cls n : Nat) (s : State) : Out := running s t fun s => unitReset s cls n

/-- OFFLINE_CLR (R89). -/
def execOfflineClr (t cls n : Nat) (s : State) : Out := running s t fun s => offlineClr s cls n

/-- UNIT_ENABLE (R235). -/
def execUnitEnable (t cls n : Nat) (on : Bool) (s : State) : Out := running s t fun s => unitEnable s cls n on

/-- RETRAIN (R180). -/
def execRetrain (t n : Nat) (s : State) : Out := running s t fun s => retrainWrite s n

/-- EP_SELF_LOCK (R204). -/
def execEpSelfLock (t : Nat) (s : State) : Out := running s t epSelfLock

/-- EP_TIME_SET (R204). -/
def execEpTimeSet (t ns : Nat) (s : State) : Out := running s t fun s => epTimeSet s ns

/-- GO (R393). -/
def execGo (t : Nat) (s : State) : Out := always s t lcGo

/-- TAMPER_LATCH_CLEAR (R390). -/
def execTamperLatchClear (t w : Nat) (s : State) : Out := always s t fun s => writeReg s rScTamper 0 0 (word w) true false

/-- APERTURE_ENABLE (R383). -/
def execApertureEnable (t a w : Nat) (s : State) : Out := running s t fun s => writeReg s rSpApt2 a 0 (word w) true false

/-- HOLDUP_CONFIG_WRITE (R419). -/
def execHoldupConfigWrite (t : Nat) (cfg : Bool) (w : Word) (s : State) : Out := running s t fun s => writeReg s (if cfg then rPmHoldupCfg else rPmHoldupReq) 0 0 w true false

/-- ARM_COUNTER_WRITE (R261): counter j of context c is i = 16 c + j. -/
def execArmCounterWrite (t i : Nat) (w : Word) (s : State) : Out := running s t fun s => writeReg s rXeArmCtr i 0 w true false

/-- REGISTER_WRITE (R9): n bytes at an offset of BAR0; core when a management core writes. The row also carries BAR0's reads (R8, R451),
which the table gives no row of their own: v is none (log entry 85). -/
def execRegisterWrite (t a n : Nat) (v : Option Nat) (core : Bool) (s : State) : Out := always s t fun s =>
  match v with
  | some v => busWrite s a n v core
  | none => busRead s a n core

/-- SOURCE_PENDING (R366). -/
def execSourcePending (t n : Nat) (on : Bool) (s : State) : Out := running s t fun s => sourcePending s n on

/-- CLAIM (R368); wfi tells that the core, which found no source, executes WFI (R370, log entry 83). -/
def execClaim (t : Nat) (x : ClaimArg) (s : State) : Out := running s t fun s =>
  let found := (claimOf s x.core).isSome
  let s := coreClaim s x.core
  if x.wfi && !found then coreWfi s x.core else s

/-- CORE_EOI (R369). -/
def execCoreEoi (t k n : Nat) (s : State) : Out := running s t fun s => coreEoi s k n

/-- HOST_EOI (R373). -/
def execHostEoi (t v : Nat) (s : State) : Out := running s t fun s => hostEoi s v

/-- HP_IDLE_HINT (R372). -/
def execHpIdleHint (t g : Nat) (w : Word) (s : State) : Out := running s t fun s => idleHint s g w

/-- MSIX_SEND (R371). -/
def execMsixSend (t : Nat) (s : State) : Out := running s t msixSend

/-- MODERATION_TIMER (R372). -/
def execModerationTimer (t v : Nat) (s : State) : Out := running s t fun s => modTimer s v

/-- MSIX_UNMASK (R374): the host writes the mask bit of vector v. -/
def execMsixUnmask (t : Nat) (x : MaskArg) (s : State) : Out := running s t fun s => msixUnmask s x.vec x.mask

/-- BAR2_REQUEST (R384): a write of data, or a read of n bytes. -/
def execBar2Request (t off : Nat) (data : Option (List Byte)) (n : Nat) (poisoned : Bool) (s : State) : Out := running s t fun s => bar2 s off data n poisoned

/-- MB_SET_OFFSET (R457). -/
def execMbSetOffset (t off : Nat) (s : State) : Out := always s t fun s => mbSetOffset s off

/-- MB_READ_REGISTER (R457). -/
def execMbReadRegister (t : Nat) (s : State) : Out := always s t mbRead

end Sys2Proof.Machine
end

