-- ==== Sys2Proof/Machine/ResetRows.lean ====
section
/-! DEFINITION. Resets, faults, tampering, and the timers of a closing Shutter. -/
namespace Sys2Proof.Machine

/-- POWER_ON_RESET (R420). -/
def execPowerOnReset (t : Nat) (s : State) : Out := always s t fun s => coldBegin s 0

/-- PERST_ASSERT (R420). -/
def execPerstAssert (t : Nat) (s : State) : Out := always s t fun s => coldBegin (modGlobal s fun g => { g with perst := true, hp := .down }) 1

/-- HP_PERST_DEASSERT (R430). -/
def execHpPerstDeassert (t : Nat) (railsGood : Bool) (s : State) : Out := always s t fun s => perstOff s railsGood

/-- FATAL_INTERNAL_ERROR (R422). -/
def execFatalInternalError (t code : Nat) (s : State) : Out := always s t fun s => warmBegin s 4 code

/-- WATCHDOG_TIMEOUT (R422). -/
def execWatchdogTimeout (t : Nat) (s : State) : Out := always s t fun s => warmBegin s 4 4

/-- D2D_LINK_STALL (R20). -/
def execD2dLinkStall (t n ns retried : Nat) (s : State) : Out := running s t fun s => d2dStall s n ns retried

/-- REF_CLOCK_LOSS (R400). -/
def execRefClockLoss (t : Nat) (s : State) : Out := always s t refLoss

/-- REF_CLOCK_RETURN (R400). -/
def execRefClockReturn (t : Nat) (s : State) : Out := always s t refReturn

/-- RAIL_FAULT (R428). -/
def execRailFault (t rail : Nat) (s : State) : Out := always s t fun s => railFault s rail

/-- TAMPER_TRIP (R390). -/
def execTamperTrip (t d : Nat) (s : State) : Out := always s t fun s =>
  match tamperTrip s d with
  | (true, s) => tamperReset s
  | (false, s) => s

/-- TAMPER_CONDITION_CLEAR (R390). -/
def execTamperConditionClear (t d : Nat) (s : State) : Out := always s t fun s => tamperClear s d

/-- READY (R423). -/
def execReady (t : Nat) (b : BringUp) (s : State) : Out := always s t fun s => ready s b

/-- SHUTTER_DRAIN_EXPIRY (R434). -/
def execShutterDrainExpiry (t : Nat) (s : State) : Out := running s t drainExpiry

/-- SHUTTER_QP_DRAIN_TIMEOUT (R434). -/
def execShutterQpDrainTimeout (t : Nat) (s : State) : Out := running s t qpDrainTimeout

/-- SHUTTER_EGRESS_DRAINED (R434). -/
def execShutterEgressDrained (t : Nat) (s : State) : Out := running s t egressDrained

/-- TAP_INSTRUCTION_EXIT (R460). -/
def execTapInstructionExit (t : Nat) (s : State) : Out := always s t fun s => coldBegin s 2

end Sys2Proof.Machine
end

