-- ==== Sys2Proof/Machine/SpdmRows.lean ====
section
/-! DEFINITION. SPDM requests (R395) and the link-key requests inside a session (R396), on bus 0 (DOE) or 1 (MCTP). -/
namespace Sys2Proof.Machine

/-- GET_VERSION (R395). -/
def execGetVersion (t bus : Nat) (s : State) : Out := running s t fun s => spdmSay s bus .version

/-- GET_CAPABILITIES (R395). -/
def execGetCapabilities (t bus : Nat) (s : State) : Out := running s t fun s => spdmSay s bus .capabilities

/-- NEGOTIATE_ALGORITHMS (R395). -/
def execNegotiateAlgorithms (t bus : Nat) (s : State) : Out := running s t fun s => spdmSay s bus .algorithms

/-- GET_DIGESTS (R395). -/
def execGetDigests (t bus : Nat) (s : State) : Out := running s t fun s => spdmSay s bus (.digests (Config.sha384 (certChain s)))

/-- GET_CERTIFICATE (R395). -/
def execGetCertificate (t bus : Nat) (s : State) : Out := running s t fun s => spdmSay s bus (.certificate (certChain s))

/-- CHALLENGE (R395). -/
def execChallenge (t bus : Nat) (nonce : List Byte) (s : State) : Out := running s t fun s => spdmChallenge s bus nonce

/-- GET_MEASUREMENTS (R395). -/
def execGetMeasurements (t bus block : Nat) (nonce : List Byte) (s : State) : Out := running s t fun s => spdmMeasure s bus block nonce

/-- KEY_EXCHANGE (R395): owner says that the requester is mutually authenticated as the device owner. -/
def execKeyExchange (t bus : Nat) (owner : Bool) (share : List Byte) (s : State) : Out := running s t fun s => spdmKeyExchange s bus owner share

/-- FINISH (R395). -/
def execFinish (t bus id : Nat) (s : State) : Out := running s t fun s => spdmFinish s bus id

/-- KEY_UPDATE (R395). -/
def execKeyUpdate (t bus id : Nat) (s : State) : Out := running s t fun s => spdmKeyUpdate s bus id

/-- HEARTBEAT (R395). -/
def execHeartbeat (t bus id : Nat) (s : State) : Out := running s t fun s => spdmHeartbeat s bus id

/-- END_SESSION (R395). -/
def execEndSession (t bus id : Nat) (s : State) : Out := running s t fun s => spdmEnd s bus id

/-- LINK_KEY_STAGE (R396). -/
def execLinkKeyStage (t bus id group phase key : Nat) (s : State) : Out := running s t fun s => keyStage s bus id group phase key

/-- LINK_KEY_INSTALL (R396). -/
def execLinkKeyInstall (t bus id group : Nat) (s : State) : Out := running s t fun s => keyInstall s bus id group

end Sys2Proof.Machine
end

