-- ==== Sys2Proof/Machine/StepRows.lean ====
section
/-! DEFINITION. Steps and their stages, panes and tier-2 reads, upkeep of frames, holders' transfers, images and adapters. -/
namespace Sys2Proof.Machine

/-- STEP_DISPATCH (R344). -/
def execStepDispatch (t id : Nat) (x : StageArg) (s : State) : Out := running s t fun s => stepDispatch s id x

/-- STAGE_BOUNDARY (R322). -/
def execStageBoundary (t id : Nat) (x : StageArg) (s : State) : Out := running s t fun s => stageBoundary s id x

/-- WAIT_STAGE_RELEASE (R348). -/
def execWaitStageRelease (t id : Nat) (x : StageArg) (s : State) : Out := running s t fun s => waitRelease s id x

/-- STEP_BOUNDARY (R344). -/
def execStepBoundary (t id : Nat) (s : State) : Out := running s t fun s => stepBoundary s id

/-- STEP_BUDGET_EXPIRY (R321). -/
def execStepBudgetExpiry (t id : Nat) (s : State) : Out := running s t fun s => budgetExpiry s id

/-- PANE_DEADLINE (R110). -/
def execPaneDeadline (t n : Nat) (s : State) : Out := running s t fun s => paneDeadline s n

/-- TIER_READ_LATE (R162): n reads of slot i of a step, or of a holder's job, late or in error. -/
def execTierReadLate (t id i : Nat) (job : Option Nat) (n : Nat) (x : LateArg) (s : State) : Out := running s t fun s => tierReadLate s id i job n x.err x.solved

/-- TIER_DEADLINE (R163). -/
def execTierDeadline (t id i : Nat) (job : Option Nat) (s : State) : Out := running s t fun s => tierDeadline s id i job

/-- UNIT_DISPATCH (R317): class 0 TE, 1 XE, 2 TU, 3 CU. -/
def execUnitDispatch (t cls n : Nat) (q : Quantum) (s : State) : Out := running s t fun s => unitDispatch s cls n q

/-- RECLAMATION_TICK (R44). -/
def execReclamationTick (t : Nat) (s : State) : Out := running s t reclamationTick

/-- RESERVE_REFILL (R57). -/
def execReserveRefill (t : Nat) (s : State) : Out := running s t reserveRefill

/-- BACKGROUND_SPILL (R57). -/
def execBackgroundSpill (t : Nat) (s : State) : Out := running s t backgroundSpill

/-- SPACE_RESUME (R58). -/
def execSpaceResume (t : Nat) (s : State) : Out := running s t spaceResume

/-- TAIL_MIGRATION (R50). -/
def execTailMigration (t q layer : Nat) (s : State) : Out := running s t fun s => tailMigrate s q layer

/-- PAUSE_EXPIRY (R167). -/
def execPauseExpiry (t q : Nat) (s : State) : Out := running s t fun s => pauseExpiry s q

/-- SPILL_WRITE_DONE (R158). -/
def execSpillWriteDone (t slot : Nat) (ok : Bool) (s : State) : Out := running s t fun s => spillWriteDone s slot ok

/-- PREFETCH_READ_DONE (R159). -/
def execPrefetchReadDone (t slot : Nat) (ok : Bool) (s : State) : Out := running s t fun s =>
  match s.pg.prefetches.find? (·.slot == slot) with
  | some x => prefetchDone s x ok
  | none => s

/-- REPORT_TIMEOUT (R170). -/
def execReportTimeout (t q : Nat) (s : State) : Out := running s t fun s => reportTimeout s q

/-- REBUILD_STRIPE (R294). -/
def execRebuildStripe (t : Nat) (x : Option RebuildRead) (s : State) : Out := running s t fun s => rebuildStep s x

/-- IMG_COPY_DONE (R137). -/
def execImgCopyDone (t i : Nat) (body : Option (List Byte)) (s : State) : Out := running s t fun s => imgCopyDone s i body

/-- ADP_COPY_DONE (R140). -/
def execAdpCopyDone (t n : Nat) (body : Option (List Byte)) (s : State) : Out := running s t fun s => adpCopyDone s n body

/-- REPAIR_RECORD_RETRY (R417). -/
def execRepairRecordRetry (t : Nat) (s : State) : Out := running s t repairRetry

/-- JOURNAL_RECORD_REUSE (R297). -/
def execJournalRecordReuse (t : Nat) (s : State) : Out := running s t jrReuse

/-- FLASH_WRITE_DONE (R418): the burn of a lifecycle transition goes on as R393 says. -/
def execFlashWriteDone (t : Nat) (s : State) : Out := always s t fun s =>
  match flashDone s with
  | (some (.lifecycle target owner), s) => lcBurnt s target owner
  | (_, s) => s

/-- TXN_EXPIRED (R358). -/
def execTxnExpired (t n : Nat) (s : State) : Out := running s t fun s => txnExpire s n

end Sys2Proof.Machine
end

