-- ==== Sys2Proof/Machine/WorkRows.lean ====
section
/-! DEFINITION. Queue-pair doorbells, work requests, their timers, and messages that become visible (R239–R263). -/
namespace Sys2Proof.Machine

/-- SQ_PI (R239): reqs are the new work requests of a ring in host memory as the controller reads them. -/
def execSqPi (t n v : Nat) (reqs : List (List Byte)) (s : State) : Out := running s t fun s => sqPi s n v reqs

/-- CQ_CI (R239). -/
def execCqCi (t n v : Nat) (s : State) : Out := running s t fun s => cqCi s n v

/-- RX_CI (R260). -/
def execRxCi (t n v : Nat) (s : State) : Out := running s t fun s => rxCi s n v

/-- The head work request of a QP starts when its opcode satisfies a test and no counter holds it (R241). -/
def headRun (s : State) (n : Nat) (f : WorkReq → Bool) : State :=
  match (qpOf s n).bind sqHeadWr with
  | none => s
  | some (_, r) => if f r.wr && !r.held then startWr s n else s

/-- Opcodes of R240. -/
def wrListed (o : Nat) : Bool := [1, 2, 3, 5, 7, 9].contains o

/-- WRITE (R244). A work request whose opcode is not listed fails R241 in the same step. -/
def execWrite (t n : Nat) (s : State) : Out := running s t fun s => headRun s n fun w => w.opcode == 1 || !wrListed w.opcode

/-- WRITE_IMM (R244). -/
def execWriteImm (t n : Nat) (s : State) : Out := running s t fun s => headRun s n fun w => w.opcode == 2

/-- READ (R259). -/
def execRead (t n : Nat) (s : State) : Out := running s t fun s => headRun s n fun w => w.opcode == 3

/-- ATOMIC (R226). -/
def execAtomic (t n : Nat) (s : State) : Out := running s t fun s => headRun s n fun w => w.opcode == 5

/-- FLUSH (R258). -/
def execFlush (t n : Nat) (s : State) : Out := running s t fun s => headRun s n fun w => w.opcode == 7

/-- SEND (R260). -/
def execSend (t n : Nat) (s : State) : Out := running s t fun s => headRun s n fun w => w.opcode == 9

/-- ARMED_RELEASE (R262): a held work request whose counter has reached its threshold runs as an ordinary one. -/
def execArmedRelease (t n : Nat) (s : State) : Out := running s t fun s =>
  match qpOf s n with
  | none => s
  | some q => match sqHeadWr q with
    | none => s
    | some (_, r) => if r.held && armedReady s q.ctx r.wr then startWr s n else s

/-- WR_DEADLINE (R247): of work request k of a host queue pair, or of a message of the controller's own. -/
def execWrDeadline (t n k : Nat) (s : State) : Out := running s t fun s => if n < 512 then fwDeadline s n k else wrDeadline s n k

/-- RETX_TIMEOUT (R246): the packet at an offset of a message. -/
def execRetxTimeout (t n msn off : Nat) (s : State) : Out := running s t fun s => retxFire s n msn off

/-- MESSAGE_LIFE_EXPIRY (R246). -/
def execMessageLifeExpiry (t n msn : Nat) (s : State) : Out := running s t fun s => lifeExpiry s n msn

/-- NAK_PENDING_RESEND (R248). -/
def execNakPendingResend (t n msn off : Nat) (s : State) : Out := running s t fun s => nakResend s n msn off

/-- CONNECT_GUARD_EXPIRY (R237): a CONNECT that waited takes effect; a queue pair of the controller's own then takes the settings of
XE_QP_CFG and sends what waits for it (R263). -/
def execConnectGuardExpiry (t n : Nat) (s : State) : Out := running s t fun s =>
  match qpOf s n with
  | none => s
  | some q =>
    if q.connect.isNone || !guardOver s q then s
    else if n < 512 then fwFlush (setQp s n { q with st := 1, connect := none }) q.remoteEp
    else connectNow s n

/-- WINDOW_GUARD_EXPIRY (R250). -/
def execWindowGuardExpiry (t i : Nat) (s : State) : Out := running s t fun s =>
  match winOf s i with
  | some w => winRun s i w.pend.length
  | none => s

/-- MSN_ABANDON (R256). -/
def execMsnAbandon (t n msn : Nat) (s : State) : Out := running s t fun s => msnAbandon s n msn

/-- MESSAGE_COMPLETE (R253): a fully counted message becomes visible. A message between controllers' firmware goes to firmware: x
gives its sender and content when the message is the firmware's own (R263). -/
def execMessageComplete (t n msn : Nat) (x : Option (Nat × XMsg)) (s : State) : Out := running s t fun s =>
  let s := msgVisible s n msn
  match x with
  | some (src, m) => xMsgIn s src m
  | none => s

end Sys2Proof.Machine
end

