-- ==== Sys2Proof/Machine/Dispatch.lean ====
section
/-! DEFINITION. One arm per command: the meaning it calls. -/
namespace Sys2Proof.Machine

/-- The effect of a command on everything but the queue. -/
def exec (i : Instr) (s : State) : Host.Outcome State Fault Refusal :=
  match i with
  | .identify a => Sys2Proof.Machine.execIdentify a s
  | .setRole a => Sys2Proof.Machine.execSetRole a s
  | .setMode a => Sys2Proof.Machine.execSetMode a s
  | .txnBegin a => Sys2Proof.Machine.execTxnBegin a s
  | .txnCommit a => Sys2Proof.Machine.execTxnCommit a s
  | .txnAbort a => Sys2Proof.Machine.execTxnAbort a s
  | .shutterClose a => Sys2Proof.Machine.execShutterClose a s
  | .shutterOpen a => Sys2Proof.Machine.execShutterOpen a s
  | .warmReset a => Sys2Proof.Machine.execWarmReset a s
  | .coldReset a => Sys2Proof.Machine.execColdReset a s
  | .seqCreate a => Sys2Proof.Machine.execSeqCreate a s
  | .seqAppend a => Sys2Proof.Machine.execSeqAppend a s
  | .seqFork a => Sys2Proof.Machine.execSeqFork a s
  | .seqPause a => Sys2Proof.Machine.execSeqPause a s
  | .seqResume a => Sys2Proof.Machine.execSeqResume a s
  | .resumeHint a => Sys2Proof.Machine.execResumeHint a s
  | .seqCancel a => Sys2Proof.Machine.execSeqCancel a s
  | .seqFree a => Sys2Proof.Machine.execSeqFree a s
  | .seqQuery a => Sys2Proof.Machine.execSeqQuery a s
  | .planLoad a => Sys2Proof.Machine.execPlanLoad a s
  | .planUnload a => Sys2Proof.Machine.execPlanUnload a s
  | .stepSubmit a => Sys2Proof.Machine.execStepSubmit a s
  | .imgLoad a => Sys2Proof.Machine.execImgLoad a s
  | .imgUnload a => Sys2Proof.Machine.execImgUnload a s
  | .adpLoad a => Sys2Proof.Machine.execAdpLoad a s
  | .adpReplace a => Sys2Proof.Machine.execAdpReplace a s
  | .adpUnload a => Sys2Proof.Machine.execAdpUnload a s
  | .grammarLoad a => Sys2Proof.Machine.execGrammarLoad a s
  | .qpCreate a => Sys2Proof.Machine.execQpCreate a s
  | .qpConnect a => Sys2Proof.Machine.execQpConnect a s
  | .qpDrain a => Sys2Proof.Machine.execQpDrain a s
  | .qpModifyError a => Sys2Proof.Machine.execQpModifyError a s
  | .qpModifyReset a => Sys2Proof.Machine.execQpModifyReset a s
  | .qpDestroy a => Sys2Proof.Machine.execQpDestroy a s
  | .windowCreate a => Sys2Proof.Machine.execWindowCreate a s
  | .windowInvalidate a => Sys2Proof.Machine.execWindowInvalidate a s
  | .windowDestroy a => Sys2Proof.Machine.execWindowDestroy a s
  | .regionCreate a => Sys2Proof.Machine.execRegionCreate a s
  | .regionModify a => Sys2Proof.Machine.execRegionModify a s
  | .regionDestroy a => Sys2Proof.Machine.execRegionDestroy a s
  | .latchQuery a => Sys2Proof.Machine.execLatchQuery a s
  | .latchAssign a => Sys2Proof.Machine.execLatchAssign a s
  | .hingeOffer a => Sys2Proof.Machine.execHingeOffer a s
  | .setShaper a => Sys2Proof.Machine.execSetShaper a s
  | .setPolicer a => Sys2Proof.Machine.execSetPolicer a s
  | .setShare a => Sys2Proof.Machine.execSetShare a s
  | .setTierPolicy a => Sys2Proof.Machine.execSetTierPolicy a s
  | .ctxCreate a => Sys2Proof.Machine.execCtxCreate a s
  | .ctxDestroy a => Sys2Proof.Machine.execCtxDestroy a s
  | .sprintRequest a => Sys2Proof.Machine.execSprintRequest a s
  | .sprintRelease a => Sys2Proof.Machine.execSprintRelease a s
  | .setPowerCap a => Sys2Proof.Machine.execSetPowerCap a s
  | .diagEcho a => Sys2Proof.Machine.execDiagEcho a s
  | .diagFrameRead a => Sys2Proof.Machine.execDiagFrameRead a s
  | .sqTail a b c => Sys2Proof.Machine.execSqTail a b c s
  | .cqHead a b c => Sys2Proof.Machine.execCqHead a b c s
  | .commandTake a b c => Sys2Proof.Machine.execCommandTake a b c s
  | .cqEnable a b c => Sys2Proof.Machine.execCqEnable a b c s
  | .eqEnable a b c => Sys2Proof.Machine.execEqEnable a b c s
  | .eqHead a b c => Sys2Proof.Machine.execEqHead a b c s
  | .sqPi a b c d => Sys2Proof.Machine.execSqPi a b c d s
  | .cqCi a b c => Sys2Proof.Machine.execCqCi a b c s
  | .rxCi a b c => Sys2Proof.Machine.execRxCi a b c s
  | .write a b => Sys2Proof.Machine.execWrite a b s
  | .writeImm a b => Sys2Proof.Machine.execWriteImm a b s
  | .read a b => Sys2Proof.Machine.execRead a b s
  | .atomic a b => Sys2Proof.Machine.execAtomic a b s
  | .flush a b => Sys2Proof.Machine.execFlush a b s
  | .send a b => Sys2Proof.Machine.execSend a b s
  | .armedRelease a b => Sys2Proof.Machine.execArmedRelease a b s
  | .wrDeadline a b c => Sys2Proof.Machine.execWrDeadline a b c s
  | .retxTimeout a b c d => Sys2Proof.Machine.execRetxTimeout a b c d s
  | .messageLifeExpiry a b c => Sys2Proof.Machine.execMessageLifeExpiry a b c s
  | .nakPendingResend a b c d => Sys2Proof.Machine.execNakPendingResend a b c d s
  | .connectGuardExpiry a b => Sys2Proof.Machine.execConnectGuardExpiry a b s
  | .windowGuardExpiry a b => Sys2Proof.Machine.execWindowGuardExpiry a b s
  | .msnAbandon a b c => Sys2Proof.Machine.execMsnAbandon a b c s
  | .messageComplete a b c d => Sys2Proof.Machine.execMessageComplete a b c d s
  | .rxWrite a b c => Sys2Proof.Machine.execRxWrite a b c s
  | .rxWriteImm a b c => Sys2Proof.Machine.execRxWriteImm a b c s
  | .rxSend a b c d => Sys2Proof.Machine.execRxSend a b c d s
  | .rxReadReq a b c => Sys2Proof.Machine.execRxReadReq a b c s
  | .readResp a b c => Sys2Proof.Machine.execReadResp a b c s
  | .atomicReq a b c => Sys2Proof.Machine.execAtomicReq a b c s
  | .atomicResp a b c => Sys2Proof.Machine.execAtomicResp a b c s
  | .flushReq a b c => Sys2Proof.Machine.execFlushReq a b c s
  | .flushResp a b c => Sys2Proof.Machine.execFlushResp a b c s
  | .ack a b c => Sys2Proof.Machine.execAck a b c s
  | .nak a b c => Sys2Proof.Machine.execNak a b c s
  | .loadReq a b c => Sys2Proof.Machine.execLoadReq a b c s
  | .loadResp a b c => Sys2Proof.Machine.execLoadResp a b c s
  | .store a b c => Sys2Proof.Machine.execStore a b c s
  | .storeResp a b c => Sys2Proof.Machine.execStoreResp a b c s
  | .getS a b c d => Sys2Proof.Machine.execGetS a b c d s
  | .getM a b c d => Sys2Proof.Machine.execGetM a b c d s
  | .putM a b c d => Sys2Proof.Machine.execPutM a b c d s
  | .putClean a b c d => Sys2Proof.Machine.execPutClean a b c d s
  | .inv a b c d => Sys2Proof.Machine.execInv a b c d s
  | .fwdS a b c d => Sys2Proof.Machine.execFwdS a b c d s
  | .fwdM a b c d => Sys2Proof.Machine.execFwdM a b c d s
  | .coherenceData a b c d => Sys2Proof.Machine.execCoherenceData a b c d s
  | .coherenceAck a b c d => Sys2Proof.Machine.execCoherenceAck a b c d s
  | .paneRequest a b c d => Sys2Proof.Machine.execPaneRequest a b c d s
  | .paneComputed a b c => Sys2Proof.Machine.execPaneComputed a b c s
  | .relayForward a b c => Sys2Proof.Machine.execRelayForward a b c s
  | .egressNextFrame a b => Sys2Proof.Machine.execEgressNextFrame a b s
  | .timeSync a b c => Sys2Proof.Machine.execTimeSync a b c s
  | .timeDelayReq a b c => Sys2Proof.Machine.execTimeDelayReq a b c s
  | .timeDelayResp a b c => Sys2Proof.Machine.execTimeDelayResp a b c s
  | .timeExchangeTimer a => Sys2Proof.Machine.execTimeExchangeTimer a s
  | .holdoverEntry a => Sys2Proof.Machine.execHoldoverEntry a s
  | .holdoverLimit a => Sys2Proof.Machine.execHoldoverLimit a s
  | .ppsInEdge a => Sys2Proof.Machine.execPpsInEdge a s
  | .hingeOfferMsg a b c => Sys2Proof.Machine.execHingeOfferMsg a b c s
  | .hingeForward a b c d e => Sys2Proof.Machine.execHingeForward a b c d e s
  | .hingeAccept a b c => Sys2Proof.Machine.execHingeAccept a b c s
  | .hingeDone a b c d => Sys2Proof.Machine.execHingeDone a b c d s
  | .hingeReverted a b c => Sys2Proof.Machine.execHingeReverted a b c s
  | .hingeDecline a b c => Sys2Proof.Machine.execHingeDecline a b c s
  | .epochNotice a b c => Sys2Proof.Machine.execEpochNotice a b c s
  | .epochAck a b c => Sys2Proof.Machine.execEpochAck a b c s
  | .leaseRenew a b c => Sys2Proof.Machine.execLeaseRenew a b c s
  | .leaseAck a b c => Sys2Proof.Machine.execLeaseAck a b c s
  | .latchQueryMsg a b c => Sys2Proof.Machine.execLatchQueryMsg a b c s
  | .latchReply a b c d => Sys2Proof.Machine.execLatchReply a b c d s
  | .orphanNotice a b c => Sys2Proof.Machine.execOrphanNotice a b c s
  | .latchAssignMsg a b c => Sys2Proof.Machine.execLatchAssignMsg a b c s
  | .homeMoved a b c => Sys2Proof.Machine.execHomeMoved a b c s
  | .latchRelease a b c => Sys2Proof.Machine.execLatchRelease a b c s
  | .admitReq a b c => Sys2Proof.Machine.execAdmitReq a b c s
  | .admitReply a b c => Sys2Proof.Machine.execAdmitReply a b c s
  | .seqRetire a b c => Sys2Proof.Machine.execSeqRetire a b c s
  | .joined a b c => Sys2Proof.Machine.execJoined a b c s
  | .leaving a b c => Sys2Proof.Machine.execLeaving a b c s
  | .homeUnreachable a b c => Sys2Proof.Machine.execHomeUnreachable a b c s
  | .mgrAck a b c => Sys2Proof.Machine.execMgrAck a b c s
  | .promote a b c => Sys2Proof.Machine.execPromote a b c s
  | .logReplicaReq a b c => Sys2Proof.Machine.execLogReplicaReq a b c s
  | .logReplicaReply a b c => Sys2Proof.Machine.execLogReplicaReply a b c s
  | .mirrorReq a b c => Sys2Proof.Machine.execMirrorReq a b c s
  | .mirrorReply a b c => Sys2Proof.Machine.execMirrorReply a b c s
  | .homeLookup a b c => Sys2Proof.Machine.execHomeLookup a b c s
  | .homeLookupReply a b c => Sys2Proof.Machine.execHomeLookupReply a b c s
  | .probe a b c => Sys2Proof.Machine.execProbe a b c s
  | .probeAck a b c => Sys2Proof.Machine.execProbeAck a b c s
  | .spillReq a b c => Sys2Proof.Machine.execSpillReq a b c s
  | .spillReport a b c => Sys2Proof.Machine.execSpillReport a b c s
  | .prefetchReq a b c => Sys2Proof.Machine.execPrefetchReq a b c s
  | .prefetchReport a b c d => Sys2Proof.Machine.execPrefetchReport a b c d s
  | .refInc a b c => Sys2Proof.Machine.execRefInc a b c s
  | .refDec a b c => Sys2Proof.Machine.execRefDec a b c s
  | .refAck a b c => Sys2Proof.Machine.execRefAck a b c s
  | .refDrop a b c => Sys2Proof.Machine.execRefDrop a b c s
  | .stripeReplace a b c => Sys2Proof.Machine.execStripeReplace a b c s
  | .stripeReply a b c => Sys2Proof.Machine.execStripeReply a b c s
  | .offerTimeout a b => Sys2Proof.Machine.execOfferTimeout a b s
  | .homeLeaseExpiry a b => Sys2Proof.Machine.execHomeLeaseExpiry a b s
  | .ownerLeaseExpiry a b => Sys2Proof.Machine.execOwnerLeaseExpiry a b s
  | .leaseRenewTimer a => Sys2Proof.Machine.execLeaseRenewTimer a s
  | .hingeQueryTimer a b c => Sys2Proof.Machine.execHingeQueryTimer a b c s
  | .epochNoticeResend a b => Sys2Proof.Machine.execEpochNoticeResend a b s
  | .requestUnanswered a b => Sys2Proof.Machine.execRequestUnanswered a b s
  | .probeTimer a => Sys2Proof.Machine.execProbeTimer a s
  | .memberSilent a b => Sys2Proof.Machine.execMemberSilent a b s
  | .homeOutageTimeout a b => Sys2Proof.Machine.execHomeOutageTimeout a b s
  | .regionRenewTimeout a b => Sys2Proof.Machine.execRegionRenewTimeout a b s
  | .stepDispatch a b c => Sys2Proof.Machine.execStepDispatch a b c s
  | .stageBoundary a b c => Sys2Proof.Machine.execStageBoundary a b c s
  | .waitStageRelease a b c => Sys2Proof.Machine.execWaitStageRelease a b c s
  | .stepBoundary a b => Sys2Proof.Machine.execStepBoundary a b s
  | .stepBudgetExpiry a b => Sys2Proof.Machine.execStepBudgetExpiry a b s
  | .paneDeadline a b => Sys2Proof.Machine.execPaneDeadline a b s
  | .tierReadLate a b c d e f => Sys2Proof.Machine.execTierReadLate a b c d e f s
  | .tierDeadline a b c d => Sys2Proof.Machine.execTierDeadline a b c d s
  | .unitDispatch a b c d => Sys2Proof.Machine.execUnitDispatch a b c d s
  | .reclamationTick a => Sys2Proof.Machine.execReclamationTick a s
  | .reserveRefill a => Sys2Proof.Machine.execReserveRefill a s
  | .backgroundSpill a => Sys2Proof.Machine.execBackgroundSpill a s
  | .spaceResume a => Sys2Proof.Machine.execSpaceResume a s
  | .tailMigration a b c => Sys2Proof.Machine.execTailMigration a b c s
  | .pauseExpiry a b => Sys2Proof.Machine.execPauseExpiry a b s
  | .spillWriteDone a b c => Sys2Proof.Machine.execSpillWriteDone a b c s
  | .prefetchReadDone a b c => Sys2Proof.Machine.execPrefetchReadDone a b c s
  | .reportTimeout a b => Sys2Proof.Machine.execReportTimeout a b s
  | .rebuildStripe a b => Sys2Proof.Machine.execRebuildStripe a b s
  | .imgCopyDone a b c => Sys2Proof.Machine.execImgCopyDone a b c s
  | .unitIdleGate a b c => Sys2Proof.Machine.execUnitIdleGate a b c s
  | .unitWakeDone a b c => Sys2Proof.Machine.execUnitWakeDone a b c s
  | .pllStop a b => Sys2Proof.Machine.execPllStop a b s
  | .pllRestartDone a b => Sys2Proof.Machine.execPllRestartDone a b s
  | .stackSelfRefresh a b => Sys2Proof.Machine.execStackSelfRefresh a b s
  | .sramRetention a b => Sys2Proof.Machine.execSramRetention a b s
  | .sramBankWake a b => Sys2Proof.Machine.execSramBankWake a b s
  | .patrolScrub a b c d => Sys2Proof.Machine.execPatrolScrub a b c d s
  | .stackCalibration a b => Sys2Proof.Machine.execStackCalibration a b s
  | .stackTempReport a b c => Sys2Proof.Machine.execStackTempReport a b c s
  | .unitReset a b c => Sys2Proof.Machine.execUnitReset a b c s
  | .offlineClr a b c => Sys2Proof.Machine.execOfflineClr a b c s
  | .unitEnable a b c d => Sys2Proof.Machine.execUnitEnable a b c d s
  | .retrain a b => Sys2Proof.Machine.execRetrain a b s
  | .epSelfLock a => Sys2Proof.Machine.execEpSelfLock a s
  | .epTimeSet a b => Sys2Proof.Machine.execEpTimeSet a b s
  | .go a => Sys2Proof.Machine.execGo a s
  | .tamperLatchClear a b => Sys2Proof.Machine.execTamperLatchClear a b s
  | .apertureEnable a b c => Sys2Proof.Machine.execApertureEnable a b c s
  | .holdupConfigWrite a b c => Sys2Proof.Machine.execHoldupConfigWrite a b c s
  | .armCounterWrite a b c => Sys2Proof.Machine.execArmCounterWrite a b c s
  | .registerWrite a b c d e => Sys2Proof.Machine.execRegisterWrite a b c d e s
  | .sourcePending a b c => Sys2Proof.Machine.execSourcePending a b c s
  | .claim a b => Sys2Proof.Machine.execClaim a b s
  | .coreEoi a b c => Sys2Proof.Machine.execCoreEoi a b c s
  | .hostEoi a b => Sys2Proof.Machine.execHostEoi a b s
  | .hpIdleHint a b c => Sys2Proof.Machine.execHpIdleHint a b c s
  | .msixSend a => Sys2Proof.Machine.execMsixSend a s
  | .moderationTimer a b => Sys2Proof.Machine.execModerationTimer a b s
  | .msixUnmask a b => Sys2Proof.Machine.execMsixUnmask a b s
  | .bar2Request a b c d e => Sys2Proof.Machine.execBar2Request a b c d e s
  | .mbSetOffset a b => Sys2Proof.Machine.execMbSetOffset a b s
  | .mbReadRegister a => Sys2Proof.Machine.execMbReadRegister a s
  | .pmbAlert a b => Sys2Proof.Machine.execPmbAlert a b s
  | .pmbusPoll a b c => Sys2Proof.Machine.execPmbusPoll a b c s
  | .powerEstimateTick a b c d => Sys2Proof.Machine.execPowerEstimateTick a b c d s
  | .pacingTick a b c => Sys2Proof.Machine.execPacingTick a b c s
  | .thermalEval a b => Sys2Proof.Machine.execThermalEval a b s
  | .sprintVoltageStep a => Sys2Proof.Machine.execSprintVoltageStep a s
  | .wearSlotChange a => Sys2Proof.Machine.execWearSlotChange a s
  | .healthDecay a => Sys2Proof.Machine.execHealthDecay a s
  | .thermalTrip a b c => Sys2Proof.Machine.execThermalTrip a b c s
  | .portTrainDone a b c => Sys2Proof.Machine.execPortTrainDone a b c s
  | .uncorrectableBurst a b c d => Sys2Proof.Machine.execUncorrectableBurst a b c d s
  | .blockLockLoss a b c => Sys2Proof.Machine.execBlockLockLoss a b c s
  | .destStateIdle a b => Sys2Proof.Machine.execDestStateIdle a b s
  | .pathReroll a b c => Sys2Proof.Machine.execPathReroll a b c s
  | .keyPhaseRetire a => Sys2Proof.Machine.execKeyPhaseRetire a s
  | .loadStoreResend a b c => Sys2Proof.Machine.execLoadStoreResend a b c s
  | .atomicResend a b c => Sys2Proof.Machine.execAtomicResend a b c s
  | .atomicPendingResend a b c => Sys2Proof.Machine.execAtomicPendingResend a b c s
  | .destDead a b => Sys2Proof.Machine.execDestDead a b s
  | .deadHoldEnd a b => Sys2Proof.Machine.execDeadHoldEnd a b s
  | .atomicCacheEvict a => Sys2Proof.Machine.execAtomicCacheEvict a s
  | .quadProbe a b c d => Sys2Proof.Machine.execQuadProbe a b c d s
  | .powerOnReset a => Sys2Proof.Machine.execPowerOnReset a s
  | .perstAssert a => Sys2Proof.Machine.execPerstAssert a s
  | .fatalInternalError a b => Sys2Proof.Machine.execFatalInternalError a b s
  | .watchdogTimeout a => Sys2Proof.Machine.execWatchdogTimeout a s
  | .d2dLinkStall a b c d => Sys2Proof.Machine.execD2dLinkStall a b c d s
  | .refClockLoss a => Sys2Proof.Machine.execRefClockLoss a s
  | .refClockReturn a => Sys2Proof.Machine.execRefClockReturn a s
  | .railFault a b => Sys2Proof.Machine.execRailFault a b s
  | .tamperTrip a b => Sys2Proof.Machine.execTamperTrip a b s
  | .ready a b => Sys2Proof.Machine.execReady a b s
  | .hpHotReset a b => Sys2Proof.Machine.execHpHotReset a b s
  | .hpReturn a b c => Sys2Proof.Machine.execHpReturn a b c s
  | .hostLoss a => Sys2Proof.Machine.execHostLoss a s
  | .cxlLinkUp a b c d e f => Sys2Proof.Machine.execCxlLinkUp a b c d e f s
  | .cxlLinkDown a b => Sys2Proof.Machine.execCxlLinkDown a b s
  | .cxlDeviceRemoved a b c => Sys2Proof.Machine.execCxlDeviceRemoved a b c s
  | .cxlReadTimeout a b c d => Sys2Proof.Machine.execCxlReadTimeout a b c d s
  | .auxPerst a b => Sys2Proof.Machine.execAuxPerst a b s
  | .shutterDrainExpiry a => Sys2Proof.Machine.execShutterDrainExpiry a s
  | .shutterQpDrainTimeout a => Sys2Proof.Machine.execShutterQpDrainTimeout a s
  | .shutterEgressDrained a => Sys2Proof.Machine.execShutterEgressDrained a s
  | .txnExpired a b => Sys2Proof.Machine.execTxnExpired a b s
  | .tapInstructionExit a => Sys2Proof.Machine.execTapInstructionExit a s
  | .getVersion a b => Sys2Proof.Machine.execGetVersion a b s
  | .getCapabilities a b => Sys2Proof.Machine.execGetCapabilities a b s
  | .negotiateAlgorithms a b => Sys2Proof.Machine.execNegotiateAlgorithms a b s
  | .getDigests a b => Sys2Proof.Machine.execGetDigests a b s
  | .getCertificate a b => Sys2Proof.Machine.execGetCertificate a b s
  | .challenge a b c => Sys2Proof.Machine.execChallenge a b c s
  | .getMeasurements a b c d => Sys2Proof.Machine.execGetMeasurements a b c d s
  | .keyExchange a b c d => Sys2Proof.Machine.execKeyExchange a b c d s
  | .finish a b c => Sys2Proof.Machine.execFinish a b c s
  | .keyUpdate a b c => Sys2Proof.Machine.execKeyUpdate a b c s
  | .heartbeat a b c => Sys2Proof.Machine.execHeartbeat a b c s
  | .endSession a b c => Sys2Proof.Machine.execEndSession a b c s
  | .linkKeyStage a b c d e f => Sys2Proof.Machine.execLinkKeyStage a b c d e f s
  | .linkKeyInstall a b c d => Sys2Proof.Machine.execLinkKeyInstall a b c d s
  | .streamPlaceLost a b c => Sys2Proof.Machine.execStreamPlaceLost a b c s
  | .hpPerstDeassert a b => Sys2Proof.Machine.execHpPerstDeassert a b s
  | .d3hotEntry a => Sys2Proof.Machine.execD3hotEntry a s
  | .cxlDeviceReturn a b c d => Sys2Proof.Machine.execCxlDeviceReturn a b c d s
  | .erefclkLoss a b => Sys2Proof.Machine.execErefclkLoss a b s
  | .adpCopyDone a b c => Sys2Proof.Machine.execAdpCopyDone a b c s
  | .repairRecordRetry a => Sys2Proof.Machine.execRepairRecordRetry a s
  | .journalRecordReuse a => Sys2Proof.Machine.execJournalRecordReuse a s
  | .tamperConditionClear a b => Sys2Proof.Machine.execTamperConditionClear a b s
  | .flashWriteDone a => Sys2Proof.Machine.execFlashWriteDone a s

end Sys2Proof.Machine
end

