-- ==== Sys2Proof/WellFormed.lean ====
section
/-! DEFINITION. Which commands the hardware can produce: every index within the part's counts (rings, event queues, queue pairs,
ports, units, stacks, sources, vectors, endpoints) and every value within its field. -/
namespace Sys2Proof

/-- Command rings (R337), QPs by their 16-bit number (R235), Ebesh ports (R177), endpoints (R182). -/
def ringOk (q : Nat) : Bool := decide (q < 256)
def qpOk (n : Nat) : Bool := decide (n < 65536)
def portOk (n : Nat) : Bool := decide (n < 24)
def epOk (e : Nat) : Bool := decide (e < 2 ^ 20)
def u32 (v : Nat) : Bool := decide (v < 2 ^ 32)
/-- Units by class: 64 TE, 64 XE, 16 TU, 24 CU. -/
def unitOk (cls n : Nat) : Bool := decide (cls < 4) && decide (n < [64, 64, 16, 24].getD cls 0)
/-- A command entry names its ring. -/
def cmdOk (c : Cmd) : Bool := ringOk c.ring

/-- Whether a command is well formed. -/
def Instr.wf (i : Instr) : Bool :=
  match i with
  | .identify c => cmdOk c
  | .setRole c => cmdOk c
  | .setMode c => cmdOk c
  | .txnBegin c => cmdOk c
  | .txnCommit c => cmdOk c
  | .txnAbort c => cmdOk c
  | .shutterClose c => cmdOk c
  | .shutterOpen c => cmdOk c
  | .warmReset c => cmdOk c
  | .coldReset c => cmdOk c
  | .seqCreate c => cmdOk c
  | .seqAppend c => cmdOk c
  | .seqFork c => cmdOk c
  | .seqPause c => cmdOk c
  | .seqResume c => cmdOk c
  | .resumeHint c => cmdOk c
  | .seqCancel c => cmdOk c
  | .seqFree c => cmdOk c
  | .seqQuery c => cmdOk c
  | .planLoad c => cmdOk c
  | .planUnload c => cmdOk c
  | .stepSubmit c => cmdOk c
  | .imgLoad c => cmdOk c
  | .imgUnload c => cmdOk c
  | .adpLoad c => cmdOk c
  | .adpReplace c => cmdOk c
  | .adpUnload c => cmdOk c
  | .grammarLoad c => cmdOk c
  | .qpCreate c => cmdOk c
  | .qpConnect c => cmdOk c
  | .qpDrain c => cmdOk c
  | .qpModifyError c => cmdOk c
  | .qpModifyReset c => cmdOk c
  | .qpDestroy c => cmdOk c
  | .windowCreate c => cmdOk c
  | .windowInvalidate c => cmdOk c
  | .windowDestroy c => cmdOk c
  | .regionCreate c => cmdOk c
  | .regionModify c => cmdOk c
  | .regionDestroy c => cmdOk c
  | .latchQuery c => cmdOk c
  | .latchAssign c => cmdOk c
  | .hingeOffer c => cmdOk c
  | .setShaper c => cmdOk c
  | .setPolicer c => cmdOk c
  | .setShare c => cmdOk c
  | .setTierPolicy c => cmdOk c
  | .ctxCreate c => cmdOk c
  | .ctxDestroy c => cmdOk c
  | .sprintRequest c => cmdOk c
  | .sprintRelease c => cmdOk c
  | .setPowerCap c => cmdOk c
  | .diagEcho c => cmdOk c
  | .diagFrameRead c => cmdOk c
  | .sqTail _ q v => ringOk q && u32 v
  | .cqHead _ q v => ringOk q && u32 v
  | .commandTake _ q e => ringOk q && (match e with | some c => c.bytes.length == 64 | none => true)
  | .cqEnable _ q _ => ringOk q
  | .eqEnable _ e _ => decide (e < 64)
  | .eqHead _ e v => decide (e < 64) && u32 v
  | .sqPi _ n v _ => qpOk n && u32 v
  | .cqCi _ n v => qpOk n && u32 v
  | .rxCi _ n v => qpOk n && u32 v
  | .write _ n => qpOk n
  | .writeImm _ n => qpOk n
  | .read _ n => qpOk n
  | .atomic _ n => qpOk n
  | .flush _ n => qpOk n
  | .send _ n => qpOk n
  | .armedRelease _ n => qpOk n
  | .wrDeadline _ n _ => qpOk n
  | .retxTimeout _ n msn _ => qpOk n && decide (msn < 2 ^ 24)
  | .messageLifeExpiry _ n msn => qpOk n && decide (msn < 2 ^ 24)
  | .nakPendingResend _ n msn _ => qpOk n && decide (msn < 2 ^ 24)
  | .connectGuardExpiry _ n => qpOk n
  | .windowGuardExpiry _ i => decide (i < 2 ^ 24)
  | .msnAbandon _ n msn => qpOk n && decide (msn < 2 ^ 24)
  | .messageComplete _ n msn x => qpOk n && decide (msn < 2 ^ 24) && (match x with | some m => epOk m.1 | none => true)
  | .rxWrite _ port _ => decide (port ≤ 24)
  | .rxWriteImm _ port _ => decide (port ≤ 24)
  | .rxSend _ port _ _ => decide (port ≤ 24)
  | .rxReadReq _ port _ => decide (port ≤ 24)
  | .readResp _ port _ => decide (port ≤ 24)
  | .atomicReq _ port _ => decide (port ≤ 24)
  | .atomicResp _ port _ => decide (port ≤ 24)
  | .flushReq _ port _ => decide (port ≤ 24)
  | .flushResp _ port _ => decide (port ≤ 24)
  | .ack _ port _ => decide (port ≤ 24)
  | .nak _ port _ => decide (port ≤ 24)
  | .loadReq _ port _ => decide (port ≤ 24)
  | .loadResp _ port _ => decide (port ≤ 24)
  | .store _ port _ => decide (port ≤ 24)
  | .storeResp _ port _ => decide (port ≤ 24)
  | .getS _ port _ _ => decide (port ≤ 24)
  | .getM _ port _ _ => decide (port ≤ 24)
  | .putM _ port _ _ => decide (port ≤ 24)
  | .putClean _ port _ _ => decide (port ≤ 24)
  | .inv _ port _ _ => decide (port ≤ 24)
  | .fwdS _ port _ _ => decide (port ≤ 24)
  | .fwdM _ port _ _ => decide (port ≤ 24)
  | .coherenceData _ port _ _ => decide (port ≤ 24)
  | .coherenceAck _ port _ _ => decide (port ≤ 24)
  | .paneRequest _ src _ _ => epOk src
  | .paneComputed _ _ te => decide (te < 64)
  | .relayForward _ port _ => decide (port ≤ 24)
  | .egressNextFrame _ port => portOk port
  | .timeSync _ port _ => decide (port ≤ 24)
  | .timeDelayReq _ port _ => decide (port ≤ 24)
  | .timeDelayResp _ port _ => decide (port ≤ 24)
  | .timeExchangeTimer _ => true
  | .holdoverEntry _ => true
  | .holdoverLimit _ => true
  | .ppsInEdge _ => true
  | .hingeOfferMsg _ src _ => epOk src
  | .hingeForward _ src _ _ _ => epOk src
  | .hingeAccept _ src _ => epOk src
  | .hingeDone _ src _ _ => epOk src
  | .hingeReverted _ src _ => epOk src
  | .hingeDecline _ src _ => epOk src
  | .epochNotice _ src _ => epOk src
  | .epochAck _ src _ => epOk src
  | .leaseRenew _ src _ => epOk src
  | .leaseAck _ src _ => epOk src
  | .latchQueryMsg _ src _ => epOk src
  | .latchReply _ src _ _ => epOk src
  | .orphanNotice _ src _ => epOk src
  | .latchAssignMsg _ src _ => epOk src
  | .homeMoved _ src _ => epOk src
  | .latchRelease _ src _ => epOk src
  | .admitReq _ src _ => epOk src
  | .admitReply _ src _ => epOk src
  | .seqRetire _ src _ => epOk src
  | .joined _ src _ => epOk src
  | .leaving _ src _ => epOk src
  | .homeUnreachable _ src _ => epOk src
  | .mgrAck _ src _ => epOk src
  | .promote _ src _ => epOk src
  | .logReplicaReq _ src _ => epOk src
  | .logReplicaReply _ src _ => epOk src
  | .mirrorReq _ src _ => epOk src
  | .mirrorReply _ src _ => epOk src
  | .homeLookup _ src _ => epOk src
  | .homeLookupReply _ src _ => epOk src
  | .probe _ src _ => epOk src
  | .probeAck _ src _ => epOk src
  | .spillReq _ src _ => epOk src
  | .spillReport _ src _ => epOk src
  | .prefetchReq _ src _ => epOk src
  | .prefetchReport _ src _ _ => epOk src
  | .refInc _ src _ => epOk src
  | .refDec _ src _ => epOk src
  | .refAck _ src _ => epOk src
  | .refDrop _ src _ => epOk src
  | .stripeReplace _ src _ => epOk src
  | .stripeReply _ src _ => epOk src
  | .offerTimeout _ _ => true
  | .homeLeaseExpiry _ owner => epOk owner
  | .ownerLeaseExpiry _ home => epOk home
  | .leaseRenewTimer _ => true
  | .hingeQueryTimer _ _ _ => true
  | .epochNoticeResend _ q => u32 q
  | .requestUnanswered _ _ => true
  | .probeTimer _ => true
  | .memberSilent _ ep => epOk ep
  | .homeOutageTimeout _ home => epOk home
  | .regionRenewTimeout _ _ => true
  | .stepDispatch _ _ _ => true
  | .stageBoundary _ _ _ => true
  | .waitStageRelease _ _ _ => true
  | .stepBoundary _ _ => true
  | .stepBudgetExpiry _ _ => true
  | .paneDeadline _ _ => true
  | .tierReadLate _ _ _ _ _ _ => true
  | .tierDeadline _ _ _ _ => true
  | .unitDispatch _ cls n _ => unitOk cls n
  | .reclamationTick _ => true
  | .reserveRefill _ => true
  | .backgroundSpill _ => true
  | .spaceResume _ => true
  | .tailMigration _ q _ => u32 q
  | .pauseExpiry _ q => u32 q
  | .spillWriteDone _ _ _ => true
  | .prefetchReadDone _ _ _ => true
  | .reportTimeout _ q => u32 q
  | .rebuildStripe _ _ => true
  | .imgCopyDone _ _ _ => true
  | .unitIdleGate _ cls n => unitOk cls n
  | .unitWakeDone _ cls n => unitOk cls n
  | .pllStop _ die => decide (die < 2)
  | .pllRestartDone _ die => decide (die < 2)
  | .stackSelfRefresh _ k => decide (k < 24)
  | .sramRetention _ b => decide (b < 512)
  | .sramBankWake _ b => decide (b < 512)
  | .patrolScrub _ f _ _ => decide (f < 2 ^ 25)
  | .stackCalibration _ k => decide (k < 24)
  | .stackTempReport _ k _ => decide (k < 24)
  | .unitReset _ cls n => unitOk cls n
  | .offlineClr _ cls n => unitOk cls n
  | .unitEnable _ cls n _ => unitOk cls n
  | .retrain _ n => portOk n
  | .epSelfLock _ => true
  | .epTimeSet _ ns => decide (ns < 2 ^ 64)
  | .go _ => true
  | .tamperLatchClear _ w => decide (w < 2 ^ 64)
  | .apertureEnable _ a w => decide (a < 256 ∧ w < 2 ^ 64)
  | .holdupConfigWrite _ _ _ => true
  | .armCounterWrite _ i _ => decide (i < 4096)
  | .registerWrite _ _ n v _ => (match v with | some v => decide (v < 2 ^ (8 * n)) | none => true)
  | .sourcePending _ n _ => decide (n < 1024)
  | .claim _ x => decide (x.core < 6)
  | .coreEoi _ k n => decide (k < 6 ∧ n < 1024)
  | .hostEoi _ v => decide (v < 2048)
  | .hpIdleHint _ g _ => decide (g < 32)
  | .msixSend _ => true
  | .moderationTimer _ v => decide (v < 2048)
  | .msixUnmask _ x => decide (x.vec < 2048)
  | .bar2Request _ _ _ _ _ => true
  | .mbSetOffset _ off => u32 off
  | .mbReadRegister _ => true
  | .pmbAlert _ faults => faults.all (fun i => decide (i < 16))
  | .pmbusPoll _ i _ => decide (i < 16)
  | .powerEstimateTick _ _ _ _ => true
  | .pacingTick _ _ _ => true
  | .thermalEval _ x => x.temps.length == 12
  | .sprintVoltageStep _ => true
  | .wearSlotChange _ => true
  | .healthDecay _ => true
  | .thermalTrip _ die x => decide (die < 12 ∧ x.sensor < if die < 2 then 16 else 4)
  | .portTrainDone _ n pass => portOk n && pass.all (fun l => decide (l < 4))
  | .uncorrectableBurst _ n _ _ => portOk n
  | .blockLockLoss _ n lane => portOk n && decide (lane < 4)
  | .destStateIdle _ d => epOk d
  | .pathReroll _ d _ => epOk d
  | .keyPhaseRetire _ => true
  | .loadStoreResend _ d _ => epOk d
  | .atomicResend _ d _ => epOk d
  | .atomicPendingResend _ d _ => epOk d
  | .destDead _ d => epOk d
  | .deadHoldEnd _ d => epOk d
  | .atomicCacheEvict _ => true
  | .quadProbe _ peer _ _ => epOk peer
  | .powerOnReset _ => true
  | .perstAssert _ => true
  | .fatalInternalError _ code => decide (1 ≤ code ∧ code ≤ 5)
  | .watchdogTimeout _ => true
  | .d2dLinkStall _ n _ _ => decide (n < 21)
  | .refClockLoss _ => true
  | .refClockReturn _ => true
  | .railFault _ rail => decide (rail < 8)
  | .tamperTrip _ d => decide (d < 4)
  | .ready _ _ => true
  | .hpHotReset _ kind => decide (kind < 3)
  | .hpReturn _ rate width => decide (rate < 4 ∧ width < 32)
  | .hostLoss _ => true
  | .cxlLinkUp _ i _ _ rate width => decide (i < 3) && decide (rate < 4 ∧ width < 32)
  | .cxlLinkDown _ i => decide (i < 3)
  | .cxlDeviceRemoved _ i d => decide (i < 3) && decide (d < 8)
  | .cxlReadTimeout _ _ _ _ => true
  | .auxPerst _ n => decide (n < 2)
  | .shutterDrainExpiry _ => true
  | .shutterQpDrainTimeout _ => true
  | .shutterEgressDrained _ => true
  | .txnExpired _ n => decide (n < 256)
  | .tapInstructionExit _ => true
  | .getVersion _ bus => decide (bus < 2)
  | .getCapabilities _ bus => decide (bus < 2)
  | .negotiateAlgorithms _ bus => decide (bus < 2)
  | .getDigests _ bus => decide (bus < 2)
  | .getCertificate _ bus => decide (bus < 2)
  | .challenge _ bus _ => decide (bus < 2)
  | .getMeasurements _ bus block _ => decide (bus < 2) && decide (block < 256)
  | .keyExchange _ bus _ _ => decide (bus < 2)
  | .finish _ bus _ => decide (bus < 2)
  | .keyUpdate _ bus _ => decide (bus < 2)
  | .heartbeat _ bus _ => decide (bus < 2)
  | .endSession _ bus _ => decide (bus < 2)
  | .linkKeyStage _ bus _ _ phase _ => decide (bus < 2) && decide (phase < 2)
  | .linkKeyInstall _ bus _ _ => decide (bus < 2)
  | .streamPlaceLost _ n _ => portOk n
  | .hpPerstDeassert _ _ => true
  | .d3hotEntry _ => true
  | .cxlDeviceReturn _ i d _ => decide (i < 3) && decide (d < 8)
  | .erefclkLoss _ io => decide (io < 4)
  | .adpCopyDone _ _ _ => true
  | .repairRecordRetry _ => true
  | .journalRecordReuse _ => true
  | .tamperConditionClear _ d => decide (d < 4)
  | .flashWriteDone _ => true

end Sys2Proof
end

