-- ==== Sys2Proof/Safety.lean ====
section
/-! DEFINITION. What a safe state and a safe step are, in the terms the claims use. -/
namespace Sys2Proof.Machine

/-- A command completes: it answers a next state. -/
def completes (c : Instr) (s : State) : Prop := ∃ t, exec c s = .next t

/-- Every command waiting in the queue is well formed. -/
def queueWf (s : State) : Bool := s.pending.all Instr.wf

/-- The canonical form of the controller's memory and registers: addresses strictly rising. -/
def canonical (s : State) : Bool := memWf s.mem && tsorted s.regs

/-- The state after a command whose own effect leaves r: what the effect made due has happened, and the queue is the rest that s
holds. -/
def after (s r : State) : State := { settle r with pending := s.pending }

/-- A command has been taken under opcode op (R339): the state its checks see. Its number is s.host.cmdCtr. -/
def taken (op : Nat) (c : Cmd) (s : State) : State := (takeCmd s op (withOpcode c op) .none).2

/-- Command c passes checks 1 to 6 of R341 under opcode op at a running controller, and is to run at once: it names no transaction, or
it is one that ends the transaction it names. -/
def passes (op : Nat) (c : Cmd) (s : State) : Prop :=
  s.gl.phase = 2 ∧ checkCmd (taken op c s) op (withOpcode c op) = none ∧
    (cTxn (withOpcode c op) = 0 ∨ op = 0x09 ∨ op = 0x0A)

/-- What holds of a command that passes checks 1 to 6: P of its number, its entry and the state it was taken in. -/
def whenPassed (op : Nat) (c : Cmd) (s : State) (P : Nat → Cmd → State → Prop) : Prop :=
  passes op c s → P s.host.cmdCtr (withOpcode c op) (taken op c s)

/-- Sequence q, as x, passes the check of R271 at this controller: it is the home, its record names it as owner at the epoch it runs
the sequence at, and the command's context is the sequence's. -/
def ownedHere (r : State) (k : Cmd) (q : Nat) (x : Seq) : Prop :=
  seqOf r q = some x ∧ x.home = self r ∧ x.ctx = cCtx k ∧ ∃ h, homeOf r q = some h ∧ h.owner = self r ∧ h.epoch = x.epoch

/-- The controller serves messages, and bytes b from endpoint src are the well-formed latch message m. -/
def heardL (u : State) (src : Nat) (b : List Byte) (m : LMsg) : Prop :=
  serving u = true ∧ decodeL (if toHome m.sub then self u else src) b = some m

/-- The controller serves messages, and bytes b are the well-formed cell message m. -/
def heardC (u : State) (b : List Byte) (m : CMsg) : Prop := serving u = true ∧ decodeC b = some m

/-- Message m answers request r, which this controller asked of endpoint src about the same object. -/
def askedOf (u : State) (src : Nat) (m : CMsg) (r : Req) : Prop :=
  tget u.ce.reqs m.req = some r ∧ r.dst = src ∧ (r.obj = m.obj ∨ m.sub = mAdmitReply)

/-- Request n has been answered. -/
def answered (u : State) (n : Nat) : State := modCe u fun c => { c with reqs := tdel c.reqs n }

/-- Every command of a ring that c can be: its opcode, the words its row gives it, and the row. -/
def ringCommands (c : Cmd) : List (Nat × Cmd × Instr) :=
  [(0x00, c, .identify c), (0x01, c, .setRole c), (0x02, c, .setMode c), (0x08, c, .txnBegin c), (0x09, c, .txnCommit c),
   (0x0A, c, .txnAbort c), (0x0C, c, .shutterClose c), (0x0D, c, .shutterOpen c), (0x0E, c, .warmReset c), (0x0F, c, .coldReset c),
   (0x10, c, .seqCreate c), (0x11, c, .seqAppend c), (0x12, c, .seqFork c), (0x13, c, .seqPause c), (0x14, c, .seqResume c),
   (0x15, c, .resumeHint c), (0x16, c, .seqCancel c), (0x17, c, .seqFree c), (0x18, c, .seqQuery c), (0x30, c, .planLoad c),
   (0x31, c, .planUnload c), (0x32, c, .stepSubmit c), (0x40, c, .imgLoad c), (0x41, c, .imgUnload c)] ++
  [(0x44, c, .adpLoad c), (0x45, c, .adpReplace c), (0x46, c, .adpUnload c), (0x48, c, .grammarLoad c), (0x50, c, .qpCreate c),
   (0x51, withAction c 0, .qpConnect c), (0x51, withAction c 1, .qpDrain c), (0x51, withAction c 2, .qpModifyError c),
   (0x51, withAction c 3, .qpModifyReset c), (0x52, c, .qpDestroy c), (0x54, c, .windowCreate c), (0x55, c, .windowInvalidate c),
   (0x56, c, .windowDestroy c), (0x58, c, .regionCreate c), (0x59, c, .regionModify c),
   (0x59, { c with w2 := setFld c.w2 0 0 1 }, .regionDestroy c), (0x5A, c, .latchQuery c), (0x5B, c, .latchAssign c),
   (0x5C, c, .hingeOffer c)] ++
  [(0x70, c, .setShaper c), (0x71, c, .setPolicer c), (0x72, c, .setShare c), (0x73, c, .setTierPolicy c), (0x74, c, .ctxCreate c),
   (0x75, c, .ctxDestroy c), (0x80, c, .sprintRequest c), (0x81, c, .sprintRelease c), (0x82, c, .setPowerCap c), (0xE0, c, .diagEcho c),
   (0xE1, c, .diagFrameRead c)]

/-- A cell message whose fields fit their places and leave the reserved ones of its subtype zero (R276). -/
def cellWf (m : CMsg) : Bool :=
  match cInfo m.sub with
  | none => false
  | some (_, o, ma, mb, mc) =>
    decide (m.sub < 256 ∧ m.status < 2 ^ 16 ∧ m.req < 2 ^ 32 ∧ m.obj < 2 ^ 32 ∧ m.a < 2 ^ 64 ∧ m.b < 2 ^ 64 ∧ m.c < 2 ^ 64) &&
      (o || m.obj == 0) && m.a &&& ma == m.a && m.b &&& mb == m.b && m.c &&& mc == m.c

/-- A Latch message whose fields fit their places, a region homed at home, with the copies of R278 in HINGE_FORWARD of a sequence and
no others (R275). -/
def latchWf (home : Nat) (m : LMsg) : Bool :=
  decide (0x10 ≤ m.sub ∧ m.sub ≤ 0x1F ∧ m.status < 2 ^ 16 ∧ m.epoch < 2 ^ 32 ∧ m.owner < 2 ^ 20 ∧ m.st < 4 ∧ m.offerer < 2 ^ 20 ∧
    m.receiver < 2 ^ 20 ∧ m.hingeId < 2 ^ 64) &&
  (if m.obj.region then m.obj.id / 2 ^ 44 == home else decide (m.obj.id < 2 ^ 32)) &&
  m.body.length == (if m.sub = mHingeForward ∧ m.obj.region = false then 288 else 0)

/-- A packet whose fields fit the header and pass check 4 of R187 (R182, R185). -/
def packetWf (p : Pkt) : Bool :=
  decide (p.type < 256 ∧ p.tc < 8 ∧ p.colour < 4 ∧ p.hopTtl < 64 ∧ p.src < 2 ^ 20 ∧ p.dst < 2 ^ 20 ∧ p.qp < 2 ^ 16 ∧ p.msn < 2 ^ 24 ∧
    p.entropy < 2 ^ 16 ∧ p.offset < 2 ^ 32) &&
  decide (p.length < 2 ^ 32 ∧ p.winIdx < 2 ^ 24 ∧ p.winGen < 256 ∧ p.sendTs < 2 ^ 32 ∧ p.opWord < 2 ^ 64) &&
  headerOk (headerBytes p p.hopTtl (pktCrc p p.payload)) p

end Sys2Proof.Machine
end

