-- ==== Sys2Proof/Certificates/Slice0/Obligations.lean ====
section
/-! DEFINITION. The statements about the model for the provers. -/
open Sys2Proof
open Sys2Proof.Machine

/-- The block takes its commands first in, first out: a step with c at the front of the queue is exec of c with the queue's rest. -/
def Obligations.StepRunsFrontCommand : Prop :=
  ∀ (s : State) (c : Instr) (rest : List Instr), s.pending = c :: rest → step s = exec c { s with pending := rest }

/-- Every step takes exactly one command off the queue and leaves the others in order. -/
def Obligations.StepPopsOneCommand : Prop :=
  ∀ s t : State, step s = .next t → t.pending = s.pending.tail

/-- Every command of a well-formed queue is still well formed after a step. -/
def Obligations.StepKeepsQueueWf : Prop :=
  ∀ s t : State, queueWf s = true → step s = .next t → queueWf t = true

/-- The state after reset: an empty queue, so a well-formed one, memory and registers in canonical form, and the controller not yet up
(phase 1, the model's choice, log entry 1). -/
def Obligations.ResetState : Prop :=
  queueWf State.reset = true ∧ canonical State.reset = true ∧ State.reset.pending = [] ∧ State.reset.gl.phase = 1 ∧
  shutter State.reset = 0 ∧ State.reset.now = 0

/-- With no command waiting the block idles (the model's choice, log entry 2). -/
def Obligations.StepIdlesWithNoCommand : Prop := ∀ s : State, s.pending = [] → step s = .next s

/-- When a command's own effect leaves nothing due, the state after it is that effect with the queue's rest, and nothing else. -/
def Obligations.QuietCommandsEnd : Prop :=
  ∀ s r : State, quiet r = true → after s r = { r with pending := s.pending }

/-- GL_ID (R473): the values of its fields at reset, and no write over BAR0 changes them. -/
def Obligations.GlIdRegister : Prop :=
  rf State.reset rGlId 0 15 0 = 0x4D4C ∧ rf State.reset rGlId 0 31 16 = 0x2400 ∧ rf State.reset rGlId 0 39 32 = 0x01 ∧
  rf State.reset rGlId 0 63 40 = 0 ∧
  ∀ (s : State) (t n v : Nat) (core : Bool) (a : Nat), a = 0 ∨ a = 4 → ∃ r : State, rdReg r rGlId 0 0 = rdReg s rGlId 0 0 ∧
    exec (.registerWrite t a n (some v) core) s = .next (after s r)

/-- Page frames (R23): where frame f lies, which stack holds it and which frame of that stack it is; a handle or a command that
carries a number of 25,165,824 or more is rejected with INVALID_PARAM. -/
def Obligations.PageFrames : Prop :=
  (∀ f : Nat, f < 25165824 → frameAddr f = f * 0x10000 ∧ frameStack f = f / 1048576 ∧ frameStack f = bits f 24 20 ∧
    f = frameStack f * 1048576 + bits f 19 0 ∧
    ∀ j : Nat, j < 0x10000 → regionOf (frameAddr f + j) = .stack (frameStack f)) ∧
  (∀ (s : State) (w : Word), 25165824 ≤ fld w 43 19 → handleCheck s w = some (sInvalidParam, 0)) ∧
  (∀ (s : State) (c : Cmd), 25165824 ≤ fld c.w1 24 0 → passes 0xE1 c s →
    exec (.diagFrameRead c) s = .next (after s (finish (taken 0xE1 c s) s.host.cmdCtr sInvalidParam 0 0 0)))

/-- The layout of a page handle (R36): the four fields of a handle the controller makes, and every word whose reserved field is zero
is the handle of its fields. -/
def Obligations.PageHandleLayout : Prop :=
  (∀ ep page gen : Nat, ep < 2 ^ 20 → page < 25165824 → gen < 256 →
    fld (handle ep page gen) 63 44 = ep ∧ fld (handle ep page gen) 43 19 = page ∧ fld (handle ep page gen) 18 11 = gen ∧
    fld (handle ep page gen) 10 0 = 0) ∧
  (∀ w : Word, fld w 10 0 = 0 → w = handle (fld w 63 44) (fld w 43 19) (fld w 18 11))

/-- IC_CORE[k]_EOI (R369): the source at the top of core k's stack is ended and its group popped, a level source whose condition still
holds becomes pending again, and an EOI that names any other source only sets IC_ERR.CORE_EOI. -/
def Obligations.CoreEndOfInterrupt : Prop :=
  ∀ (s : State) (t k n : Nat), s.gl.phase = 2 →
  let u := tick s t
  (∀ (g : Nat) (rest : List (Nat × Nat)), coreStack u k = (g, n) :: rest →
    exec (.coreEoi t k n) s = .next (after s (modIntr u fun i => { i with
      active := tput i.active k rest
      corePend := if isLevel u n = true ∧ levelHolds u n = true then addSorted n i.corePend else i.corePend }))) ∧
  ((∀ (g : Nat) (rest : List (Nat × Nat)), coreStack u k ≠ (g, n) :: rest) →
    exec (.coreEoi t k n) s = .next (after s (wf u rIcErr 0 1 1 1)))

/-- SHUTTER_CLOSE taken while the Shutter is CLOSED completes OK at once; taken while it is CLOSING, it joins the close that runs, and
the earlier of the two deadlines applies (R437). It rests on the model's choices of log entry 7. -/
def Obligations.ShutterCloseAgain : Prop :=
  ∀ (s : State) (c : Cmd), whenPassed 0x0C c s fun id k r => fld k.w1 31 0 ≤ 600000 →
  (shutter r = 0 → exec (.shutterClose c) s = .next (after s (finish r id sOk 0 0 0))) ∧
  (shutter r = 1 → exec (.shutterClose c) s = .next (after s (modClose (pend r id .shutter) fun x =>
    { x with drainAt := Nat.min x.drainAt (r.now + fld k.w1 31 0 * 1000000), cmds := x.cmds ++ [id] })))

/-- A SEQ_APPEND that would make LENGTH exceed 4,194,304 fails with LENGTH_LIMIT, appends nothing, and ends the sequence at its next
boundary with that status (R59, R345). It rests on the model's choices of log entries 7, 10. -/
def Obligations.AppendPastTheLimit : Prop :=
  ∀ (s : State) (c : Cmd), whenPassed 0x11 c s fun id k r => ∀ (x : Seq) (b : List Byte),
  let q := fld k.w1 31 0
  let n := fld k.w3 22 0
  let coming := ((r.ce.logJobs.filter fun kv => kv.2.seq == q).map fun kv => kv.2.entries.length).foldl (· + ·) 0
  ownedHere r k q x → x.st = .runnable ∨ x.st = .starved → cmdBytes r k 2 (4 * n) k.buf = some b → n ≠ 0 →
  (∀ i, i < n → leAt b (4 * i) 4 ≤ 262143) → 4194304 < x.length + coming + n →
  exec (.seqAppend c) s = .next (after s (defer (finish r id sLengthLimit 0 0 0) (.sequence q) (.endSeq q sLengthLimit)))

/-- IMG_UNLOAD (R139): while a loaded plan or a live sequence names the image it fails with INVALID_PARAM and changes nothing;
otherwise the image's frames go to FREE-PENDING at once, and no other frame changes but the statistics frames of slots it gives back.
-/
def Obligations.ImageUnload : Prop :=
  ∀ (s : State) (c : Cmd), whenPassed 0x41 c s fun id k r => ∀ im : Image,
  let i := fld k.w1 7 0
  let named := (∃ kv ∈ r.st.plans, kv.2.ctx = im.ctx ∧ ∃ g ∈ kv.2.stages, g.kind = 3 ∧ g.imageId = i) ∨
    (∃ kv ∈ r.pg.seqs, kv.2.ctx = im.ctx ∧ kv.2.hasImage = true ∧ kv.2.imageId = i ∧ seqLive kv.2 = true)
  tget r.st.images i = some im → im.ctx = cCtx k → 2 ≤ im.st →
  (named → exec (.imgUnload c) s = .next (after s (finish r id sInvalidParam 0 0 0))) ∧
  (¬named → exec (.imgUnload c) s = .next (after s (finish (imageFree r i) id sOk 0 0 0)) ∧
    (tsorted r.st.images = true → tget (imageFree r i).st.images i = none) ∧ (imageFree r i).mem = r.mem ∧ (imageFree r i).regs = r.regs ∧
    (∀ f : Nat, f ∈ im.frames → (frame r f).st = .system → (frame (imageFree r i) f).st = .freePending) ∧
    (∀ f : Nat, f ∉ im.frames → (frame r f).use = .stats ∨ frame (imageFree r i) f = frame r f) ∧
    (im.slots = [] → ∀ f : Nat, f ∉ im.frames → frame (imageFree r i) f = frame r f))

/-- What a write of w does to each bit of each field that holds old, by the field's access code (R8). -/
def Obligations.FieldAccess : Prop :=
  ∀ (s : State) (d : RegDesc) (f : RegField) (old w : Word) (b : Nat), d ∈ allRegs → f ∈ d.fields → f.lo ≤ b → b ≤ f.hi →
  wbit (fieldsWritten s d old w) b = match f.acc with
    | .rw => wbit w b
    | .rwl => if regLocked s d = true then wbit old b else wbit w b
    | .w1c => wbit old b && !wbit w b
    | .w1s => wbit old b || wbit w b
    | .ro | .wo | .rc => wbit old b

/-- A write over BAR0 that puts a nonzero value in a reserved field sets GL_ERR.RSVD_WRITE, leaves every other register and memory as
they were, and has no further effect (R9). It rests on the model's choices of log entry 9. -/
def Obligations.ReservedFieldWrite : Prop :=
  ∀ (s : State) (t a n v : Nat) (core : Bool) (d : RegDesc) (i k : Nat), s.gl.phase = 2 →
  let u := tick s t
  let keep := word ((rdReg u d i k).toNat &&& accMask d fun x => x == .rw || x == .rwl)
  let w := if n = 8 then word v else if a % 8 = 0 then setFld keep 31 0 v else setFld keep 63 32 v
  n = 4 ∨ n = 8 → a % n = 0 → a < 0x4000000 → findReg (a - a % 8) allRegs = some (d, i, k) → w.toNat &&& definedMask d ≠ w.toNat →
  ∃ (g : NTable Word) (x : IntrS), let r := { u with regs := g, intr := x }
    exec (.registerWrite t a n (some v) core) s = .next (after s r) ∧ rbit r rGlErr 0 0 = true ∧
    ∀ (e : RegDesc) (j l : Nat), ra2 e j l ≠ ra2 rGlErr 0 0 → rdReg r e j l = rdReg u e j l

/-- The checks of R341 in their order, for every command of a ring: a form that the opcode does not allow, a context that is not the
ring's, an admin command on a ring that is not an admin ring (R337), a context that is absent or faulted, and a Shutter that is
closed. The command that fails writes one reply, and has no other effect (R343). It rests on the model's choices of log entry 7. -/
def Obligations.CommandChecks : Prop :=
  ∀ (s : State) (c k : Cmd) (op : Nat) (i : Instr) (o : OpInfo), (op, k, i) ∈ ringCommands c → s.gl.phase = 2 → opInfo op = some o →
  let r := taken op k s
  let x := withOpcode k op
  let bound := rf s rCqCtrl c.ring 15 8
  let fails := fun st : Nat => exec i s = .next (after s (finish r s.host.cmdCtr st 0 0 0))
  (formOk r op x o = false → fails sInvalidParam) ∧
  (formOk r op x o = true →
    (bound ≠ 0 → cCtx x ≠ bound ∨ o.admin = true → fails sInvalidContext) ∧
    (bound = 0 ∨ (cCtx x = bound ∧ o.admin = false) →
      (ctxState s (cCtx x) = 0 → fails sInvalidContext) ∧
      (ctxState s (cCtx x) = 2 → op ≠ 0x17 → op ≠ 0x18 → op ≠ 0x74 → op ≠ 0x75 → fails sContextFault) ∧
      (ctxState s (cCtx x) = 1 → shutter s = 0 → ¬(op ≤ 0x0F ∨ (0x70 ≤ op ∧ op ≤ 0x75) ∨ (0xE0 ≤ op ∧ op ≤ 0xEF)) → fails sShutterClosed)))

/-- A final reply (R342, R343, R364): one entry at CQ_TAIL with the command's tag, opcode, status and detail words; the command's
reservation ends. A ring that is disabled, or enabled again since the command was taken, gets none. Nothing but replies and interrupts
changes. -/
def Obligations.FinalReply : Prop :=
  ∀ (s : State) (id st d a b : Nat) (o : OpenCmd), openCmd s id = some o → o.cmd.ring < 256 →
  let q := o.cmd.ring
  let t := finish s id st d a b
  (∃ (h : HostS) (i : IntrS), t = { s with host := h, intr := i }) ∧
  t.host.opens = s.host.opens.filter (fun x => x.id != id) ∧
  (rbit s rCqCtrl q 0 = true → (ring s q).gen = o.gen →
    t.host.out = .reply q (ring s q).cqTail (replyBytes (phaseOf (ring s q).cqTail (rf s rCqCtrl q 28 24)) (ring s q).sqHead
      ⟨cTag o.cmd, st, d, o.opcode, a % 2 ^ 64, b % 2 ^ 64⟩) :: s.host.out ∧
    ring t q = { ring s q with cqTail := ((ring s q).cqTail + 1) % 2 ^ 32 } ∧
    (∀ p : Nat, p ≠ q → ring t p = ring s p) ∧ irqReply q ∈ t.intr.hostPend ∧ irqReply q ∈ t.intr.corePend) ∧
  (rbit s rCqCtrl q 0 = false ∨ (ring s q).gen ≠ o.gen →
    t.host.out = s.host.out ∧ t.intr = s.intr ∧ ∀ p : Nat, ring t p = ring s p)

/-- Events (R360, R361, R363): each takes the next SEQNO of its source; it is written when its queue has room and holds none back,
held in order up to 4,096, and otherwise dropped and counted; with its queue and queue 0 disabled it is dropped and counted in queue
0. -/
def Obligations.EventQueues : Prop :=
  ∀ (s : State) (source type ctx st a0 a1 : Nat),
  let n := tgetD s.host.seqnos source 0
  let ev : Event := ⟨source, n, type, ctx, st, a0 % 2 ^ 32, s.now, a1 % 2 ^ 64⟩
  let want := if source = srcDevice then 0 else rf s rCqEqMap ctx 5 0
  let e := if rbit s rEqCtrl want 0 = true then want else 0
  let q := evq s e
  let t := raise s source type ctx st a0 a1
  t.host.seqnos = tput s.host.seqnos source ((n + 1) % 2 ^ 32) ∧
  (∃ (h : HostS) (i : IntrS) (p : Option Nat), t = { s with host := h, intr := i, gl := { s.gl with predictAt := p } }) ∧
  (∀ j : Nat, j ≠ e → evq t j = evq s j) ∧
  (rbit s rEqCtrl e 0 = true →
    let room := q.held = [] ∧ q.lostReport = 0 ∧ sub32 q.tail q.head < 2 ^ rf s rEqCtrl e 5 1
    (room → t.host.out = .event e q.tail (eventBytes (phaseOf q.tail (rf s rEqCtrl e 5 1)) ev) :: s.host.out ∧
      evq t e = { q with tail := (q.tail + 1) % 2 ^ 32 }) ∧
    (¬room → q.held.length < 4096 → t.host.out = s.host.out ∧ evq t e = { q with held := q.held ++ [ev] }) ∧
    (¬room → 4096 ≤ q.held.length → t.host.out = s.host.out ∧
      evq t e = { q with lost := Nat.min (q.lost + 1) 65535, lostReport := q.lostReport + 1 })) ∧
  (rbit s rEqCtrl e 0 = false → t.host.out = s.host.out ∧
    evq t e = { q with lost := Nat.min (q.lost + 1) 65535, lostReport := q.lostReport + 1 })

/-- A stopped ring takes no commands and no doorbells until ENABLE is set again, and doorbells of a ring change nothing but that
ring's indexes and flags (R338). It rests on the model's choices of log entries 8, 26. -/
def Obligations.RingDoorbells : Prop :=
  ∀ (s : State) (t q v : Nat) (c : Option CmdEntry), s.gl.phase = 2 →
  let u := tick s t
  ((ring u q).stopped = true →
    exec (.sqTail t q v) s = .next (after s u) ∧ exec (.cqHead t q v) s = .next (after s u) ∧
    exec (.commandTake t q c) s = .next (after s u)) ∧
  (∀ i : Instr, i = .sqTail t q v ∨ i = .cqHead t q v → ∃ x : RingS, exec i s = .next (after s { u with
      host := { u.host with rings := if ringLive u q = true then tput u.host.rings q x else u.host.rings } }))

/-- Interrupt rows that change nothing but the interrupt controller's own state: a source becoming pending, a claim, a hold time that
ends. Each leaves every register, memory and every other part as it was (R365, R366, R368, R372). It rests on the model's choices of
log entry 9. -/
def Obligations.InterruptFrame : Prop :=
  ∀ (s : State) (t n k : Nat) (on wfi : Bool) (i : Instr), s.gl.phase = 2 →
  i = .sourcePending t n on ∨ i = .claim t ⟨k, wfi⟩ ∨ i = .moderationTimer t n →
  ∃ x : IntrS, exec i s = .next (after s { tick s t with intr := x })

/-- Commands that only report (R354, R355): IDENTIFY, SEQ_QUERY and DIAG_ECHO change nothing but their reply, its interrupt and the
bytes of staging SRAM they were told to write. It rests on the model's choices of log entries 4, 7. -/
def Obligations.ReportingCommandsFrame : Prop :=
  ∀ (s : State) (c : Cmd) (op n j : Nat) (i : Instr), s.gl.phase = 2 → canonical s = true →
  (op, n, j, i) ∈ ([(0x00, 4096, 1, .identify c), (0x18, 288, 2, .seqQuery c), (0xE0, 0, 0, .diagEcho c)] : List (Nat × Nat × Nat × Instr)) →
  ∃ (h : HostS) (x : IntrS) (m : List Host.Cell), exec i s = .next (after s { s with host := h, intr := x, mem := m }) ∧
    memWf m = true ∧
    (cKind c j ≠ 1 ∨ n = 0 → m = s.mem) ∧
    ∀ a : Nat, a < (cWord c j).toNat ∨ (cWord c j).toNat + n ≤ a → readByte m a = readByte s.mem a

/-- A write through an aperture (R383, R384): it stores its bytes where the aperture maps them, in order, and changes no other byte of
memory; a write that no aperture takes stores nothing, and reports SP_ERR. It rests on the model's choices of log entries 4, 9. -/
def Obligations.ApertureWrite : Prop :=
  ∀ (s : State) (t off n : Nat) (b : List Byte), s.gl.phase = 2 → canonical s = true → off < 0x200000000 →
  let u := tick s t
  (∀ a : Nat, aptFor u off b.length true = some a →
    let at_ := aptTarget u a + (off - aptBase u a * 0x10000)
    ∃ r : State, exec (.bar2Request t off (some b) n false) s = .next (after s r) ∧
      rdMem r at_ b.length = b ∧ (∀ x : Nat, x < at_ ∨ at_ + b.length ≤ x → readByte r.mem x = readByte s.mem x) ∧ memWf r.mem = true ∧
      r.pg.frames = s.pg.frames ∧ r.pg.seqs = s.pg.seqs ∧ r.st = s.st ∧ r.ce = s.ce ∧ r.host = s.host) ∧
  (aptFor u off b.length true = none →
    exec (.bar2Request t off (some b) n false) s = .next (after s (spErr (bump u rSpAptCnt 0 31 0 1) 1)))

/-- A timer's row does nothing before its time: the tick of R44, the renewal of R280, an offer's and a pause's end, a transaction's
limit and a pane's deadline. It rests on the model's choices of log entry 9. -/
def Obligations.TimersWait : Prop :=
  ∀ (s : State) (t : Nat) (i : Instr), s.gl.phase = 2 →
  let u := tick s t
  (i = .reclamationTick t ∧ u.now < u.pg.lastTick + rf u rPgReclaim 0 16 0 * 1000) ∨
  (i = .leaseRenewTimer t ∧ u.now < u.ce.renewAt + renewNs u) ∨
  (∃ (o : Obj) (v : Lv), i = .offerTimeout t o ∧ lvOf u o = some v ∧ o.region = true ∧ u.now < offerEnd u v) ∨
  (∃ (q : Nat) (x : Seq), i = .pauseExpiry t q ∧ seqOf u q = some x ∧ u.now < x.expiry) ∨
  (∃ (n : Nat) (x : Txn), i = .txnExpired t n ∧ tget u.host.txns n = some x ∧ u.now < x.opened + rf u rCqTxnCtrl 0 16 0 * 1000000) ∨
  (∃ (n : Nat) (p : Pane), i = .paneDeadline t n ∧ tget u.st.panes n = some p ∧ u.now < p.deadline) →
  exec i s = .next (after s u)

/-- Every well-formed cell message is read back from its 64 bytes as itself (R276). -/
def Obligations.CellMessagesRoundTrip : Prop := ∀ m : CMsg, cellWf m = true → decodeC (encodeC m) = some m

/-- Every well-formed Latch message is read back from its bytes as itself, its region at the home that sent or takes it (R275). -/
def Obligations.LatchMessagesRoundTrip : Prop := ∀ (home : Nat) (m : LMsg), latchWf home m = true → decodeL home (encodeL m) = some m

/-- A plain frame made of a well-formed packet passes checks 1 to 4 of R187 at any port that does not demand encryption, and is read
as that packet (R181–R183). -/
def Obligations.FramesRoundTrip : Prop :=
  ∀ (s : State) (port : Nat) (p : Pkt), packetWf p = true → (p.dst = self s → port < 24 → rbit s rEpCrypt port 1 = false) →
  ∃ (r : State) (h : List Byte), recvFrame s port (frameOf p) = (some ⟨p, h, false, 0, frameSize p.payload.length false⟩, r) ∧
    h.length = 48 ∧ r = (if port < 24 then modFab s fun f => { f with ports := tmod f.ports port fun x => { x with synced := true } } else s)

/-- Commands that set roles, transactions, shapers, policers, shares, tier policies and the power cap (R4, R308, R326–R332, R356,
R358, R408) change registers, the records of sharing, the host's own and interrupts: memory, pages, sequences, steps, queue pairs, the
cell and device time stay as they were, whether or not the command's checks pass. It rests on the model's choices of log entry 7. -/
def Obligations.AdminCommandsFrame : Prop :=
  ∀ (s : State) (c : Cmd) (i : Instr), s.gl.phase = 2 →
  i ∈ ([.setRole c, .setMode c, .txnBegin c, .txnAbort c, .setShaper c, .setPolicer c, .setShare c, .setTierPolicy c, .setPowerCap c] :
    List Instr) →
  ∃ (h : HostS) (x : IntrS) (g : NTable Word) (m : ShareS),
    exec i s = .next (after s { s with host := h, intr := x, regs := g, mt := m })

/-- Sequence commands take effect where their checks pass (R16, R47, R53, R61, R166–R169, R271, R354). SEQ_CREATE takes the reserve
and asks the cell manager; SEQ_APPEND sends its tokens to the log; SEQ_FORK, SEQ_PAUSE and SEQ_CANCEL act at the step boundary;
SEQ_RESUME takes the reserve and starts; RESUME_HINT prefetches; SEQ_FREE frees what ended; SEQ_QUERY writes the descriptor. It rests
on the model's choices of log entries 7, 10. -/
def Obligations.SequenceCommandsComplete : Prop :=
  ∀ (s : State) (c : Cmd),
  (whenPassed 0x10 c s fun id k r => ∀ (rs : List Reserve) (t : State),
    let g := createGeo k
    let a := adapterNow r (cCtx k) (fld k.w2 23 8)
    geometryCheck g.layers g.kvHeads g.hpp g.headDim g.format = none → cCtx k ≠ 0 → fld k.w1 54 53 ≠ 3 → partnerOk r k = true →
    (wbit k.w1 60 = true → imageReady r (cCtx k) (fld k.w2 7 0) = true) → (wbit k.w1 61 = true → a.isSome = true) →
    descCount r < 262144 → takeReserve r (cCtx k) 0 (cells g) = some (rs, t) →
    exec (.seqCreate c) s = .next (after s (createBegin t id (createRec t k ((a.map (·.2.version)).getD 0) rs)))) ∧
  (whenPassed 0x11 c s fun id k r => ∀ (x : Seq) (b : List Byte),
    let q := fld k.w1 31 0
    let n := fld k.w3 22 0
    let toks := (List.range n).map fun i => leAt b (4 * i) 4
    let coming := ((r.ce.logJobs.filter fun kv => kv.2.seq == q).map fun kv => kv.2.entries.length).foldl (· + ·) 0
    ownedHere r k q x → x.st = .runnable ∨ x.st = .starved → cmdBytes r k 2 (4 * n) k.buf = some b → n ≠ 0 →
    (∀ v ∈ toks, v ≤ 262143) → x.length + coming + n ≤ maxLength →
    exec (.seqAppend c) s = .next (after s (logWrite r q (toks.map (· + 2 ^ 18)) (some id) none))) ∧
  (whenPassed 0x12 c s fun id k r => ∀ x : Seq,
    let q := fld k.w1 31 0
    ownedHere r k q x → x.st = .runnable ∨ (x.st = .paused ∧ x.pauseCause ≤ 1) → fld k.w2 22 0 ≠ 0 →
    fld k.w2 22 0 ≤ x.kvLength → fld k.w3 1 0 ≠ 3 →
    exec (.seqFork c) s = .next (after s (defer (waitFor r id .boundary) (.sequence q) (.fork id)))) ∧
  (whenPassed 0x13 c s fun id k r => ∀ x : Seq,
    let q := fld k.w1 31 0
    ownedHere r k q x → fld k.w2 16 0 ≤ 86400 → x.pauseAsk = false → x.st = .runnable ∨ x.st = .starved →
    exec (.seqPause c) s = .next (after s (defer (updSeq (pend r id (.pause q)) q fun y =>
      { y with pauseAsk := true, ttlAsked := if fld k.w2 16 0 = 0 then defaultTtl r x.ctx else fld k.w2 16 0 }) (.sequence q) (.pause q)))) ∧
  (whenPassed 0x14 c s fun id k r => ∀ (x : Seq) (t : State),
    let q := fld k.w1 31 0
    ownedHere r k q x → x.st = .paused → x.pauseCause = 0 ∨ x.pauseCause = 2 → fillReserve r q = some t →
    jrRoom (pend t id (.resume q)) = true →
    exec (.seqResume c) s = .next (after s (resumeGo (pend t id (.resume q)) q))) ∧
  (whenPassed 0x15 c s fun id k r => ∀ x : Seq,
    let q := fld k.w1 31 0
    ownedHere r k q x → x.st = .paused → x.summarised = 0 → thas r.pg.reports q = false →
    exec (.resumeHint c) s = .next (after s (finishOk (prefetchAsk r q 2 x.expiry) id))) ∧
  (whenPassed 0x16 c s fun id k r => ∀ x : Seq,
    let q := fld k.w1 31 0
    ownedHere r k q x → seqLive x = true → x.st ≠ .offered →
    exec (.seqCancel c) s = .next (after s (defer (finishOk r id) (.sequence q) (.cancelSeq q)))) ∧
  (whenPassed 0x17 c s fun id k r => ∀ x : Seq,
    let q := fld k.w1 31 0
    ownedHere r k q x → seqLive x = false →
    exec (.seqFree c) s = .next (after s (finishOk (freeSeq r q) id))) ∧
  (whenPassed 0x18 c s fun id k r => ∀ x : Seq,
    let q := fld k.w1 31 0
    seqOf r q = some x → x.ctx = cCtx k →
    exec (.seqQuery c) s = .next (after s (finish (cmdWrite r k 2 (seqBytes q x)) id sOk 0 (sstateCode x.st + b2n x.lossy * 2 ^ 4) 0)))

/-- Plans and steps (R344, R351, R352): PLAN_LOAD places a plan that passes its checks in frames and answers its ID; PLAN_UNLOAD waits
for the plan's steps; STEP_SUBMIT queues a step under the next step number. It rests on the model's choices of log entries 5, 7, 51.
-/
def Obligations.PlanAndStepCommandsComplete : Prop :=
  ∀ (s : State) (c : Cmd),
  (whenPassed 0x30 c s fun id k r => ∀ (b : List Byte) (i : Nat) (fs : List Nat) (t u : State),
    let n := fld k.w2 31 0
    let p := planOf (cCtx k) b []
    let nf := cdiv n frameBytes
    cmdBytes r k 1 n k.buf = some b → planForm b n p = true → planFormats p = true → planShapes r (cCtx k) p = true →
    mayTake r (cCtx k) nf = true → nf ≤ freeFrames r →
    (∀ g ∈ p.stages, ∀ d ∈ stageTiles g, d.accKib ≤ rf r rMtAlloc (cCtx k) 52 44) →
    (∀ j, j < 4 → exceeds (planFrac p j) (weight r j (cCtx k)) (weightSum r j (cCtx k) (weight r j (cCtx k))) = false) →
    pick r (fun i => !thas r.st.plans i) 0 4096 = (some i, t) → takeFrames t .system (cCtx k) .plan i nf = some (fs, u) →
    exec (.planLoad c) s = .next (after s (finish
      (modSt (fillFrames u fs b)
        fun x => { x with plans := tput x.plans i { p with frames := fs } }) id sOk 0 i 0))) ∧
  (whenPassed 0x31 c s fun id k r => ∀ p : Plan,
    let i := fld k.w1 11 0
    tget r.st.plans i = some p → p.ctx = cCtx k → p.unloading = false →
    exec (.planUnload c) s = .next (after s (planIdle (pend (modSt r fun t =>
      { t with plans := tput t.plans i { p with unloading := true } }) id (.planIdle i))))) ∧
  (whenPassed 0x32 c s fun id k r => ∀ (p : Plan) (b : List Byte),
    let i := fld k.w1 11 0
    let ent (j : Nat) : List Byte := slice b (128 * j) 128
    let n := (r.st.stepCtr + 1) % 2 ^ 32
    tget r.st.plans i = some p → p.ctx = cCtx k → p.unloading = false →
    (cKind k 3 = 1 → inAlloc r (cCtx k) k.w3.toNat (96 * p.slots) = true) → cmdBytes r k 2 (128 * p.slots) k.buf = some b →
    (∀ j, j < p.slots → bits (w64At (ent j) 0) 63 33 = 0 ∧ ∀ v ∈ slice (ent j) 8 56, v = 0) →
    ∃ t : State, exec (.stepSubmit c) s = .next (after s t) ∧
      (∃ st : Step, tget t.st.steps n = some st ∧ st.cmd = id ∧ st.plan = i ∧ st.ctx = cCtx k ∧ st.running = false ∧
        st.slots.map (·.seq) = (List.range p.slots).map fun j => leAt (ent j) 0 4) ∧
      (∀ m, m ≠ n → tget t.st.steps m = tget r.st.steps m) ∧ t.mem = r.mem ∧ t.regs = r.regs ∧ t.pg = r.pg)

/-- Images, adapters and grammars (R125, R136, R139–R142): a load that passes its checks takes its frames and starts to copy; an
unload frees what nothing names. It rests on the model's choices of log entries 5, 7, 66. -/
def Obligations.LoadCommandsComplete : Prop :=
  ∀ (s : State) (c : Cmd),
  (whenPassed 0x40 c s fun id k r => ∀ (b : List Byte) (i : Nat) (fs slots : List Nat) (t u : State),
    let h := slice b 0 256
    let seqs := fld k.w2 15 0
    let tokens := fld k.w2 38 16
    k.buf = some b → imageCheck h = none → seqs ≠ 0 → tokens ≤ maxLength → fld k.w2 40 39 ≠ 3 →
    imageStack h seqs tokens ≤ framesAlloc r (cCtx k) - framesUsed r (cCtx k) →
    w64At h 0x30 ≤ rf r rMtAlloc (cCtx k) 43 25 * 1024 - sramInUse r (cCtx k) →
    tfree r.st.images 0 256 = some i → i < 256 → takeFrames r .system (cCtx k) .image i (imageFrames h) = some (fs, t) →
    backupSlots t (cCtx k) (fld k.w2 40 39) (imageFrames h) = some (slots, u) →
    exec (.imgLoad c) s = .next (after s (jrStart (pend (modSt u fun x =>
      { x with images := tput x.images i (imageRec id k h fs slots) }) id (.image i)) jrImage i 0 (.image i)).2)) ∧
  (whenPassed 0x41 c s fun id k r => ∀ im : Image,
    let i := fld k.w1 7 0
    tget r.st.images i = some im → im.ctx = cCtx k → 2 ≤ im.st → imageNamed r (cCtx k) i = false →
    exec (.imgUnload c) s = .next (after s (finishOk (imageFree r i) id))) ∧
  (∀ replace : Bool, whenPassed (if replace then 0x45 else 0x44) c s fun id k r =>
    ∀ (b : List Byte) (i run : Nat) (fs slots : List Nat) (t u v w : State),
    let h := slice b 0 64
    let nf := cdiv (w64At h 8) frameBytes
    k.buf = some b → fld k.w2 1 0 ≠ 3 → adapterCheck r (cCtx k) replace h = none →
    pick r (fun i => !thas r.st.adapters i) 0 4096 = (some i, t) → adapterRun t (bit (w64At h 0) 53) nf = (some run, u) →
    mayTake u (cCtx k) nf = true → nf ≤ freeFrames u → takeFrames u .system (cCtx k) .adapter i nf = some (fs, v) →
    backupSlots v (cCtx k) (fld k.w2 1 0) nf = some (slots, w) →
    exec (if replace then .adpReplace c else .adpLoad c) s = .next (after s (pend (modSt w fun x =>
      { x with adapters := tput x.adapters i (adapterRec id k replace h run fs slots) }) id (.adapter i)))) ∧
  (whenPassed 0x46 c s fun id k r =>
    let a := fld k.w1 15 0
    let key := cCtx k * 2 ^ 16 + a
    let mark (kv : Nat × Adapter) : Nat × Adapter :=
      if kv.2.ctx = cCtx k ∧ kv.2.id = a ∧ (kv.2.cmd ≠ 0 ∨ kv.2.pendingSwitch = true) then (kv.1, { kv.2 with unloadAfter := true }) else kv
    let w := modSt r fun t => { t with adapters := t.adapters.map mark }
    let waits := r.st.adapters.any fun kv => kv.2.ctx == cCtx k && kv.2.id == a && kv.2.pendingSwitch
    (∀ n : Nat, tget r.st.current key = some n → waits = false →
      exec (.adpUnload c) s = .next (after s (finishOk (adapterRelease (modSt w fun t =>
        { t with current := tdel t.current key }) n) id))) ∧
    (thas r.st.current key = true ∨ adapterMoving r (cCtx k) a = true → waits = true ∨ tget r.st.current key = none →
      exec (.adpUnload c) s = .next (after s (finishOk w id)))) ∧
  (whenPassed 0x48 c s fun id k r => ∀ (b : List Byte) (fs : List Nat) (t : State),
    let n := fld k.w2 31 0
    let g := fld k.w2 37 32
    let key := cCtx k * 64 + g
    let nf := cdiv n frameBytes
    cmdBytes r k 1 n k.buf = some b → b.length = n → n ≠ 0 → gramOk b = true →
    (∀ kv ∈ r.st.grammars, kv.1 % 64 = g → kv.2.ctx = cCtx k) →
    (∀ kv ∈ r.pg.seqs, seqLive kv.2 = true → kv.2.choice.grammarValid = true → kv.2.choice.grammarId ≠ g) →
    mayTake r (cCtx k) nf = true → nf ≤ freeFrames r → takeFrames r .system (cCtx k) .grammar key nf = some (fs, t) →
    exec (.grammarLoad c) s = .next (after s (finishOk (modSt (fillFrames (grammarFree t key) fs b) fun x =>
      { x with grammars := tput x.grammars key ⟨cCtx k, b, fs⟩ }) id)))

/-- Queue pairs (R235–R238): QP_CREATE makes a queue pair in RESET on an engine; CONNECT, DRAIN, ERROR and RESET act in the states
R236 gives them; QP_DESTROY ends it from any state. It rests on the model's choices of log entries 5, 7. -/
def Obligations.QueuePairCommandsComplete : Prop :=
  ∀ (s : State) (c : Cmd),
  (whenPassed 0x50 c s fun id k r => ∀ (n x : Nat) (t u : State),
    let w := k.w4
    let rx := fld w 14 10
    4 ≤ fld w 4 0 → fld w 4 0 ≤ 16 → 4 ≤ fld w 9 5 → fld w 9 5 ≤ 16 → 8 ≤ fld w 19 15 → fld w 19 15 ≤ 16 → fld w 21 20 ≠ 3 →
    (k.w3 ≠ 0 → 4 ≤ rx ∧ rx ≤ 16 ∧ ringOk r (cCtx k) (cKind k 3) k.w3.toNat (2 ^ (rx + fld w 19 15)) = true) → (k.w3 = 0 → rx = 0) →
    ringOk r (cCtx k) (cKind k 1) k.w1.toNat (64 * 2 ^ fld w 4 0) = true →
    ringOk r (cCtx k) (cKind k 2) k.w2.toNat (32 * 2 ^ fld w 9 5) = true →
    pick r (fun n => !thas r.fab.qps n) 512 65024 = (some n, t) → chooseXe t (fld w 21 20) = (some x, u) →
    exec (.qpCreate c) s = .next (after s (finish (setQp u n { blankQp (cCtx k) x with
      sq := (cKind k 1, k.w1.toNat), cq := (cKind k 2, k.w2.toNat), rx := (cKind k 3, k.w3.toNat), sqLog := fld w 4 0,
      cqLog := fld w 9 5, rxLog := rx, slotLog := fld w 19 15, rxCtr := if wbit w 22 then some (fld w 26 23) else none,
      lastPkt := tget u.fab.qpLast n }) id sOk 0 n 0))) ∧
  (whenPassed 0x51 (withAction c 0) s fun id k r => ∀ q : Qp,
    let n := fld k.w1 15 0
    let t := setQp r n { q with
      connect := some id, connArgs := (fld k.w2 19 0, fld k.w2 35 20, fld k.w2 38 36),
      connSet := (fld k.w3 9 0, fld k.w3 12 10, fld k.w3 21 13) }
    cmdQp r k n = some q → q.st = 0 → q.connect = none → connectOk k = true →
    exec (.qpConnect c) s = .next (after s (if guardOver t q then connectNow t n else pend t id (.connect n)))) ∧
  (whenPassed 0x51 (withAction c 1) s fun id k r => ∀ q : Qp,
    let n := fld k.w1 15 0
    cmdQp r k n = some q → q.st = 1 → k.w2 = 0 → k.w3 = 0 →
    exec (.qpDrain c) s = .next (after s (qpDrain (finishOk r id) n))) ∧
  (whenPassed 0x51 (withAction c 2) s fun id k r => ∀ q : Qp,
    let n := fld k.w1 15 0
    cmdQp r k n = some q → q.st = 1 ∨ q.st = 2 → k.w2 = 0 → k.w3 = 0 →
    exec (.qpModifyError c) s = .next (after s (qpError (finishOk r id) n sOk))) ∧
  (whenPassed 0x51 (withAction c 3) s fun id k r => ∀ q : Qp,
    let n := fld k.w1 15 0
    cmdQp r k n = some q → q.st = 3 → k.w2 = 0 → k.w3 = 0 →
    exec (.qpModifyReset c) s = .next (after s (finishOk (qpReset r n) id))) ∧
  (whenPassed 0x52 c s fun id k r => ∀ q : Qp,
    let n := fld k.w1 15 0
    let t := if q.st = 1 ∨ q.st = 2 then qpError r n sOk else r
    let u := match q.connect with | some j => finish t j sFlushed 0 0 0 | none => t
    cmdQp r k n = some q → exec (.qpDestroy c) s = .next (after s (finishOk (qpForget u n) id)))

/-- Windows (R249, R250): WINDOW_CREATE makes a window over memory the context may name and answers its key; WINDOW_INVALIDATE and
WINDOW_DESTROY end its key. It rests on the model's choices of log entries 5, 7. -/
def Obligations.WindowCommandsComplete : Prop :=
  ∀ (s : State) (c : Cmd),
  (whenPassed 0x54 c s fun id k r => ∀ (i : Nat) (w : Win) (t : State),
    let len := k.w2.toNat
    let qn := fld k.w3 19 4
    64 ≤ len → len ≤ 2 ^ 32 → k.w1.toNat % 64 = 0 → localOk r (cCtx k) k.w1.toNat len = true →
    (wbit k.w3 3 = true → (cmdQp r k qn).isSome = true) →
    winAlloc r ⟨true, cCtx k, k.w1.toNat, len, wbit k.w3 0, wbit k.w3 1, wbit k.w3 2, if wbit k.w3 3 then some qn else none,
      if wbit k.w3 20 then some (fld k.w3 24 21) else none, 0, [], none, []⟩ = (some i, t) → winOf t i = some w →
    exec (.windowCreate c) s = .next (after s (finish t id sOk 0 (winKey i w) 0))) ∧
  (whenPassed 0x55 c s fun id k r => ∀ i : Nat, cmdWin r k = some i →
    exec (.windowInvalidate c) s = .next (after s (winInvalidate r i (some id) false))) ∧
  (whenPassed 0x56 c s fun id k r => ∀ i : Nat, cmdWin r k = some i →
    exec (.windowDestroy c) s = .next (after s (winInvalidate r i (some id) true)))

/-- Regions and Latches (R207, R209, R213, R271, R277, R282, R354): REGION_CREATE takes 32 frames, zeroes them and asks the cell
manager to list the region; REGION_MODIFY acts on the home's own record; LATCH_QUERY answers what the home's record holds;
LATCH_ASSIGN goes to the home; HINGE_OFFER is accepted at the next boundary. It rests on the model's choices of log entries 7, 10, 35.
-/
def Obligations.RegionAndLatchCommandsComplete : Prop :=
  ∀ (s : State) (c : Cmd),
  (whenPassed 0x58 c s fun id k r =>
    let base := k.w1.toNat
    let mode := fld k.w2 21 20
    let owner := if fld k.w2 19 0 = 0 then self r else fld k.w2 19 0
    base % 0x200000 = 0 → base / frameBytes < numFrames → mode ≠ 3 → (mode = 2 → rbit r rFlQuadStatus 0 0 = true) → cCtx k ≠ 0 →
    mayTake r (cCtx k) 32 = true → (∀ i, i < 32 → isFree r (base / frameBytes + i) = true) → (mode = 2 → coherentCount r < 512) →
    exec (.regionCreate c) s = .next (after s (regionNew id k r owner mode))) ∧
  (whenPassed 0x59 c s fun id k r =>
    let a := k.w1.toNat
    a / 2 ^ 44 = self r → wbit k.w2 0 = false → regionModCheck r (self r) (cCtx k) a (fld k.w2 63 32) false (fld k.w2 2 1) = none →
    (cachedLines r (a % 2 ^ 44)).isEmpty = true →
    exec (.regionModify c) s = .next (after s (regionModDone (regionModRun r a id false (fld k.w2 2 1)).2 id))) ∧
  (whenPassed 0x59 { c with w2 := setFld c.w2 0 0 1 } s fun id k r =>
    let a := k.w1.toNat
    a / 2 ^ 44 = self r → regionModCheck r (self r) (cCtx k) a (fld k.w2 63 32) true (fld k.w2 2 1) = none →
    (cachedLines r (a % 2 ^ 44)).isEmpty = true →
    exec (.regionDestroy c) s = .next (after s (regionModDone (regionModRun r a id true (fld k.w2 2 1)).2 id))) ∧
  (whenPassed 0x5A c s fun id k r => ∀ v : Lv,
    knownHome r (cmdObj k) = some (self r) → lvOf r (cmdObj k) = some v →
    exec (.latchQuery c) s = .next (after s (finish r id sOk 0 (v.owner + v.st * 2 ^ 20 + v.epoch * 2 ^ 32) (self r)))) ∧
  (whenPassed 0x5B c s fun id k r => ∀ h : Nat,
    let o := cmdObj k
    isMgr r = true → (if o.region then some (o.id / 2 ^ 44) else (tget r.ce.ledger o.id).map (·.home)) = some h →
    exec (.latchAssign c) s = .next (after s (askL (pend r id (.latch 0)) h
      { lmsg mLatchAssign o (fld k.w3 31 0) with receiver := fld k.w2 20 1 } (.assign id)))) ∧
  (whenPassed 0x5C c s fun id k r => ∀ x : Seq,
    let q := k.w1.toNat % 2 ^ 32
    wbit k.w2 0 = false → ownedHere r k q x → fld k.w2 20 1 ≠ self r → fld k.w3 31 0 = x.epoch → x.st = .runnable ∨ x.st = .paused →
    exec (.hingeOffer c) s = .next (after s (defer (pend r id (.offer q)) (.sequence q) (.hingeOffer id)))) ∧
  (whenPassed 0x5C c s fun id k r => ∀ (v : Lv) (g : OwnReg),
    let o := cmdObj k
    o.region = true → o.id / 2 ^ 44 = self r → lvOf r o = some v → v.owner = self r → tget r.ce.regs o.id = some g → g.ctx = cCtx k →
    v.epoch = g.epoch → fld k.w2 20 1 ≠ self r → fld k.w3 31 0 = g.epoch →
    exec (.hingeOffer c) s = .next (after s (defer (pend r id (.offer o.id)) .device (.hingeOffer id))))

/-- The admin opcodes (R4, R345, R354–R358, R423, R429, R434, R438): IDENTIFY, roles and modes, transactions, the Shutter, resets and
diagnostics. It rests on the model's choices of log entries 7, 10. -/
def Obligations.AdminCommandsComplete : Prop :=
  ∀ (s : State) (c : Cmd),
  (whenPassed 0x00 c s fun id k r => (cKind k 1 = 1 → inAlloc r (cCtx k) k.w1.toNat 4096 = true) →
    exec (.identify c) s = .next (after s (finishOk (cmdWrite r k 1 (identifyBlock r)) id))) ∧
  (whenPassed 0x01 c s fun id k r => fld k.w1 1 0 ≠ 3 → shutter r = 0 →
    exec (.setRole c) s = .next (after s (finishOk (wf r rGlMode 0 3 2 (fld k.w1 1 0)) id))) ∧
  (whenPassed 0x02 c s fun id k r =>
    exec (.setMode c) s = .next (after s (finishOk (defer r .device (.setMode (fld k.w1 1 0))) id))) ∧
  (whenPassed 0x08 c s fun id k r => ∀ t : Nat,
    txnsOpen r < 8 → (∀ kv ∈ r.host.txns, kv.2.ring ≠ k.ring) → tfree r.host.txns 1 255 = some t →
    exec (.txnBegin c) s = .next (after s (finish (modHost r fun h =>
      { h with txns := tput h.txns t ⟨k.ring, r.now, h.changeCtr, [], false, 0⟩, txnEnds := tdel h.txnEnds t }) id sOk 0 t 0))) ∧
  (whenPassed 0x09 c s fun id k r => ∀ x : Txn,
    tget r.host.txns (cTxn k) = some x → x.ring = k.ring → x.committing = false →
    exec (.txnCommit c) s = .next (after s (defer (pend (modHost r fun h =>
      { h with txns := tput h.txns (cTxn k) { x with committing := true, commitId := id } }) id .boundary) .device (.commit (cTxn k))))) ∧
  (whenPassed 0x0A c s fun id k r => ∀ x : Txn,
    tget r.host.txns (cTxn k) = some x → x.ring = k.ring → x.committing = false →
    exec (.txnAbort c) s = .next (after s (finishOk (modHost r fun h =>
      { h with txns := tdel h.txns (cTxn k), txnEnds := tput h.txnEnds (cTxn k) ⟨k.ring, 2⟩ }) id))) ∧
  (whenPassed 0x0C c s fun id k r => fld k.w1 31 0 ≤ 600000 → shutter r = 2 →
    exec (.shutterClose c) s = .next (after s (modClose
      (wf (wf (wf (pend r id .shutter) rGlStatus 0 2 1 1) rGlShutter 0 39 21 0) rGlShutter 0 58 40 0)
      fun _ => ⟨2, r.now + fld k.w1 31 0 * 1000000, false, [id], 0, 0, [], [], [], 0, 0⟩))) ∧
  (whenPassed 0x0D c s fun id _ r => shutter r = 0 → openCheck (pend r id .shutter) = none →
    exec (.shutterOpen c) s = .next (after s (shutterOpened (pend r id .shutter) id))) ∧
  (whenPassed 0x0E c s fun id _ r => exec (.warmReset c) s = .next (after s (warmBegin (finishOk r id) 3 0))) ∧
  (whenPassed 0x0F c s fun id _ r => exec (.coldReset c) s = .next (after s (coldBegin (finishOk r id) 2))) ∧
  (whenPassed 0xE0 c s fun id k r => exec (.diagEcho c) s = .next (after s (finish r id sOk 0 k.w1.toNat k.w2.toNat))) ∧
  (whenPassed 0xE1 c s fun id k r =>
    let f := fld k.w1 24 0
    let pay := if (frame r f).st = .free then List.replicate frameBytes 0 else payload r f
    let u := if canLease r f then unlease (lease r f) f else r
    f < numFrames → exec (.diagFrameRead c) s = .next (after s (finishOk (cmdWrite u k 2 (pay ++ trailerBytes (trailer u f))) id)))

/-- Sharing and power (R308, R313, R319, R326, R328, R408, R410, R413): shapers, policers and the power cap at once; shares and tier
policies at the context's next step boundary; a context created or destroyed; a sprint requested or released. It rests on the model's
choices of log entries 7, 31. -/
def Obligations.SharingAndPowerCommandsComplete : Prop :=
  ∀ (s : State) (c : Cmd),
  (whenPassed 0x70 c s fun id k r => shaperCheck k r = none →
    exec (.setShaper c) s = .next (after s (finishOk (shaperApply r k) id))) ∧
  (whenPassed 0x71 c s fun id k r => policerCheck k r = none →
    exec (.setPolicer c) s = .next (after s (finishOk (policerApply r k) id))) ∧
  (whenPassed 0x72 c s fun id k r => shareCheck k r = none → shareFits r k = true →
    exec (.setShare c) s = .next (after s (defer (finishOk r id) (.context (fld k.w1 7 0)) (.setShare k)))) ∧
  (whenPassed 0x73 c s fun id k r => tierCheck k r = none →
    exec (.setTierPolicy c) s = .next (after s (defer (finishOk r id) (.context (fld k.w1 7 0)) (.setTierPolicy k)))) ∧
  (whenPassed 0x74 c s fun id k r => ∀ p : (Nat × Nat) × (Nat × Nat),
    let x := fld k.w1 7 0
    ctxLeaving r x = false → x ≠ 0 → ctxState r x ≠ 1 → ctxCheck r x k = .inr p →
    exec (.ctxCreate c) s = .next (after s (finish (ctxRevive (touch (ctxInstall r x k p) (3000 + x)) x) id sOk 0 p.1.1 0))) ∧
  (whenPassed 0x75 c s fun id k r =>
    let x := fld k.w1 7 0
    ctxLeaving r x = false → x ≠ 0 → ctxState r x ≠ 0 → ctxState r x ≠ 2 →
    exec (.ctxDestroy c) s = .next (after s (if ctxInUse r x then teardown (pend r id (.teardown x)) ⟨x, 0x20, 0, 0, 0⟩
      else finishOk (ctxAbsent (ctxRelease r x) x) id))) ∧
  (whenPassed 0x80 c s fun id k r => windDown r = false →
    (inSprint r = true → exec (.sprintRequest c) s = .next (after s (finishOk (modPower r fun x =>
      { x with maxMs := fld k.w1 31 0, maxFrom := r.now }) id))) ∧
    (inSprint r = false → sprintCheck r = none → exec (.sprintRequest c) s = .next (after s (sprintReady
      (modPower (pend r id .sprint) fun x => { x with asks := x.asks ++ [(id, fld k.w1 31 0)], target := sprMv (pend r id .sprint) }))))) ∧
  (whenPassed 0x81 c s fun id _ r => exec (.sprintRelease c) s = .next (after s (finishOk (sprintEnding (sprintDrop r 7) 0) id))) ∧
  (whenPassed 0x82 c s fun id k r => capCheck k r = none →
    exec (.setPowerCap c) s = .next (after s (finishOk (touch (wf r rPmCap 0 10 0 (fld k.w1 10 0)) 0) id)))

/-- A command staged in a transaction (R356): it is checked, kept in its transaction, answered OK with its place, and changes nothing
else. It rests on the model's choices of log entry 7. -/
def Obligations.StagedCommandsWait : Prop :=
  ∀ (s : State) (c : Cmd) (op : Nat) (i : Instr) (t : Txn),
  let k := withOpcode c op
  let r := taken op c s
  (op, i) ∈ ([(0x02, .setMode c), (0x70, .setShaper c), (0x71, .setPolicer c), (0x72, .setShare c), (0x73, .setTierPolicy c),
    (0x82, .setPowerCap c)] : List (Nat × Instr)) →
  s.gl.phase = 2 → checkCmd r op k = none → cTxn k ≠ 0 → tget r.host.txns (cTxn k) = some t → t.ring = k.ring → t.committing = false →
  t.staged.length < 64 →
  (op = 0x70 → shaperCheck k r = none) → (op = 0x71 → policerCheck k r = none) → (op = 0x72 → shareCheck k r = none) →
  (op = 0x73 → tierCheck k r = none) → (op = 0x82 → capCheck k r = none) →
  exec i s = .next (after s (finish { r with host := { r.host with
    txns := tput r.host.txns (cTxn k) { t with staged := t.staged ++ [(op, k)] } } } s.host.cmdCtr sOk t.staged.length 0 0))

/-- Doorbells and the taking of commands (R338, R339, R363, R364). A valid doorbell write becomes the index; an invalid one sets
DOORBELL and stops the ring. Taking a command advances SQ_HEAD and runs its opcode. Setting ENABLE of a ring or event queue zeroes its
indexes. A write of HEAD frees entries, then held events are written. It rests on the model's choices of log entries 8, 9, 26. -/
def Obligations.RingRowsComplete : Prop :=
  ∀ (s : State) (t q v : Nat), s.gl.phase = 2 →
  let u := tick s t
  (ringLive u q = true → doorbellOk (ring u q).sqTail (ring u q).sqHead (2 ^ rf u rCqCtrl q 20 16) v = true →
    exec (.sqTail t q v) s = .next (after s (setRing u q { ring u q with sqTail := v % 2 ^ 32 }))) ∧
  (ringLive u q = true → doorbellOk (ring u q).sqTail (ring u q).sqHead (2 ^ rf u rCqCtrl q 20 16) v = false →
    exec (.sqTail t q v) s = .next (after s (setRing u q { ring u q with doorbell := true, stopped := true }))) ∧
  (ringLive u q = true → doorbellOk (ring u q).cqHead (ring u q).cqTail (2 ^ rf u rCqCtrl q 28 24) v = true →
    exec (.cqHead t q v) s = .next (after s (setRing u q { ring u q with cqHead := v % 2 ^ 32 }))) ∧
  (ringLive u q = true → doorbellOk (ring u q).cqHead (ring u q).cqTail (2 ^ rf u rCqCtrl q 28 24) v = false →
    exec (.cqHead t q v) s = .next (after s (setRing u q { ring u q with doorbell := true, stopped := true }))) ∧
  (∀ e : CmdEntry, mayTakeCmd u q (cmdOf q e) = true →
    exec (.commandTake t q (some e)) s = .next (after s (opRun (cOpcode (cmdOf q e)) (cmdOf q e)
      (setRing u q { ring u q with sqHead := ((ring u q).sqHead + 1) % 2 ^ 32 })))) ∧
  (ringLive u q = true →
    exec (.commandTake t q none) s = .next (after s (setRing u q { ring u q with access := true, stopped := true }))) ∧
  (∀ w : Word, q < 256 → w.toNat &&& definedMask rCqCtrl = w.toNat → rbit u rCqCtrl q 0 = false → wbit w 0 = true →
    4 ≤ fld w 20 16 → fld w 20 16 ≤ 16 → 4 ≤ fld w 28 24 → fld w 28 24 ≤ 16 →
    exec (.cqEnable t q w) s = .next (after s (routeEnabled (setRing (wrReg u rCqCtrl q 0 w) q
      { ring u q with gen := (ring u q).gen + 1, sqHead := 0, sqTail := 0, cqHead := 0, cqTail := 0, stopped := false })
      (irqReply q) (hostRoute u (irqReply q)).2))) ∧
  (∀ w : Word, q < 64 → w.toNat &&& definedMask rEqCtrl = w.toNat → rbit u rEqCtrl q 0 = false → wbit w 0 = true → 4 ≤ fld w 5 1 → fld w 5 1 ≤ 16 →
    exec (.eqEnable t q w) s = .next (after s (routeEnabled (eqSpace (setEvq (wrReg u rEqCtrl q 0 w) q { evq u q with head := 0, tail := 0 }) q)
      (irqEvent q) (hostRoute u (irqEvent q)).2))) ∧
  (rbit u rEqCtrl q 0 = true →
    let w := setEvq u q { evq u q with head := v % 2 ^ 32 }
    exec (.eqHead t q v) s = .next (after s (reportLost (drainHeld w q (evq w q).held) q)))

/-- Unit and register rows (R8, R9, R89, R180, R204, R261, R266, R383, R384, R390, R393, R419, R457): each acts on the register it
names. It rests on the model's choices of log entries 9, 76, 84, 85. -/
def Obligations.RegisterRowsComplete : Prop :=
  ∀ (s : State) (t : Nat), s.gl.phase = 2 →
  let u := tick s t
  (∀ cls n : Nat, n < unitCount cls → rbit u (contextReg cls) n 8 = true →
    let c := rf u (contextReg cls) n 7 0
    let x := chargeUnit u cls n c (if cls = 0 then engineNs u (accCycles (tget u.mt.teLive n)) else if cls = 3 then 8 else engineNs u 8)
    exec (.unitReset t cls n) s = .next (after s (if cls = 0 then accSave x n c else x))) ∧
  (∀ cls n : Nat, n < unitCount cls → exec (.offlineClr t cls n) s = .next (after s (wf u (statusReg cls) n 3 3 0))) ∧
  (∀ (cls n : Nat) (on : Bool), n < unitCount cls →
    let w := wf u (ctrlReg cls) n 0 0 (b2n on)
    exec (.unitEnable t cls n on) s = .next (after s
      (if cls = 1 ∧ rbit u (ctrlReg cls) n 0 = true ∧ on = false then moveQps w n else w))) ∧
  (∀ n : Nat, n < 24 → rbit u rEpCtrl n 0 = true →
    exec (.retrain t n) s = .next (after s (if portUp u n then retrainUp u n else trainStart u n))) ∧
  (exec (.epSelfLock t) s = .next (after s (flushAll (wf u rEpSelf 0 20 20 1)))) ∧
  (∀ ns : Nat, rbit u rEpSelf 0 20 = false → exec (.epTimeSet t ns) s = .next (after s { u with now := ns % 2 ^ 64 })) ∧
  (rbit u rScLcStatus 0 0 = false → lcCheck u = none →
    exec (.go t) s = .next (after s (newNonce (flashDue (wf u rScLcStatus 0 0 0 1) (.lifecycle (leAt (lcToken u) 0 1 % 8) (slice (lcToken u) 0x20 48)))))) ∧
  (∀ w : Nat, (word w).toNat &&& definedMask rScTamper = (word w).toNat →
    exec (.tamperLatchClear t w) s = .next (after s (tamperSettle (wf u rScTamper 0 3 0
      (rf u rScTamper 0 3 0 &&& (15 - (word w).toNat % 16)))))) ∧
  (∀ a w : Nat, a < 256 → (word w).toNat &&& definedMask rSpApt2 = (word w).toNat → rbit u rSpApt2 a 0 = false → w % 2 = 1 →
    aptOk u a (bits ((word w).toNat % 2 ^ 16) 10 3) = true →
    exec (.apertureEnable t a w) s = .next (after s ((aptFrames u a).foldl lease
      (wrReg u rSpApt2 a 0 (word ((word w).toNat % 2 ^ 16)))))) ∧
  (∀ (cfg : Bool) (w : Word),
    let d := if cfg then rPmHoldupCfg else rPmHoldupReq
    let x := wrReg u d 0 0 (fieldsWritten u d (rdReg u d 0 0) w)
    w.toNat &&& definedMask d = w.toNat → rangesOk d w = true → exec (.holdupConfigWrite t cfg w) s = .next (after s
      (flashDue x (.holdup (rdReg x rPmHoldupReq 0 0) (rdReg x rPmHoldupCfg 0 0))))) ∧
  (∀ (i : Nat) (w : Word), 16 ≤ i → i < 4096 → w.toNat &&& definedMask rXeArmCtr = w.toNat →
    exec (.armCounterWrite t i w) s = .next (after s (plainWrite u rXeArmCtr i 0 w))) ∧
  (∀ (a n v : Nat) (core : Bool) (d : RegDesc) (i k : Nat), n = 4 ∨ n = 8 → a % n = 0 → a < 0x4000000 →
    findReg (a - a % 8) allRegs = some (d, i, k) →
    let keep := word ((rdReg u d i k).toNat &&& accMask d fun x => x == .rw || x == .rwl)
    exec (.registerWrite t a n (some v) core) s = .next (after s (writeReg u d i k
      (if n = 8 then word v else if a % 8 = 0 then setFld keep 31 0 v else setFld keep 63 32 v) (n == 8 || a % 8 == 0) core))) ∧
  (∀ (a n : Nat) (d : RegDesc) (i k : Nat), n = 4 ∨ n = 8 → a % n = 0 → a < 0x4000000 →
    findReg (a - a % 8) allRegs = some (d, i, k) →
    let read := toLE n ((readReg u d i k).toNat / 2 ^ (8 * (a % 8)))
    let x := readEffect u d i k (decide (a % 8 = 0)) (decide (n = 8 ∨ a % 8 = 4))
    exec (.registerWrite t a n none true) s = .next (after s x) ∧
    exec (.registerWrite t a n none false) s = .next (after s (toHost x (.completion (some read)))) ∧
    (d.base ≠ rIcCoreClaim.base → d.base ≠ rEqStatus.base →
      (∀ f ∈ d.fields, f.acc ≠ .rc) → x = u)) ∧
  (∀ (off n a : Nat), off < 0x200000000 → aptFor u off n false = some a →
    let at_ := aptTarget u a + (off - aptBase u a * 0x10000)
    exec (.bar2Request t off none n false) s = .next (after s
      (toHost (touchSpan u (rf u rSpApt2 a 10 3) (at_, n)) (.completion (some (rdMem u at_ n)))))) ∧
  (∀ (off n a : Nat) (b : List Byte), off < 0x200000000 → aptFor u off b.length true = some a →
    let at_ := aptTarget u a + (off - aptBase u a * 0x10000)
    let w := touchSpan (writeClear u at_ b) (rf u rSpApt2 a 10 3) (at_, b.length)
    exec (.bar2Request t off (some b) n false) s = .next (after s
      (if rbit w rSpApt2 a 11 && decide (off + b.length > (aptBase w a + aptSize w a) * 0x10000 - 64) then
        addCtr w (rf w rSpApt2 a 10 3) (rf w rSpApt2 a 15 12) else w))) ∧
  (∀ off : Nat, exec (.mbSetOffset t off) s = .next (after s (modGlobal u fun g => { g with mbOffset := some (off % 2 ^ 32) }))) ∧
  (∀ (a i k : Nat) (d : RegDesc), u.gl.mbOffset = some a → mbServed a = true → rbit u rGlStatus 0 0 = true →
    findReg a allRegs = some (d, i, k) →
    exec (.mbReadRegister t) s = .next (after s (modGlobal u fun g => { g with
      mbOut := (0, readReg u d i k) :: g.mbOut
      predictAt := if 0xA80000 ≤ a ∧ a < 0xAA0000 then none else g.predictAt })))

/-- Interrupt rows (R365–R374): a source becomes pending, a core claims and ends an interrupt, the host ends one, and MSI-X messages
are sent, held back and released. It rests on the model's choices of log entries 9, 82, 83. -/
def Obligations.InterruptRowsComplete : Prop :=
  ∀ (s : State) (t : Nat), s.gl.phase = 2 →
  let u := tick s t
  (∀ n : Nat, n < 1024 → isLevel u n = false → (n < 0x300 → srcType n ≠ 2) →
    exec (.sourcePending t n true) s = .next (after s (raiseEdge u n))) ∧
  (∀ (n : Nat) (on : Bool), n < 1024 → isLevel u n = true → (n < 0x300 → srcType n ≠ 2) →
    exec (.sourcePending t n on) s = .next (after s
      (if n < 0x200 ∨ (0x22D ≤ n ∧ n < 0x230) then sampleLevel u n else setLevel u n on))) ∧
  (∀ (k n : Nat) (wfi : Bool), claimOf u k = some n →
    exec (.claim t ⟨k, wfi⟩) s = .next (after s (modIntr u fun i => { i with
      active := tput i.active k ((priGroup u (rf u rIcSrc n 15 8), n) :: coreStack u k), corePend := i.corePend.filter (· != n) }))) ∧
  (∀ k : Nat, claimOf u k = none →
    exec (.claim t ⟨k, false⟩) s = .next (after s u) ∧
    exec (.claim t ⟨k, true⟩) s = .next (after s
      (if u.intr.corePend.any fun n => rbit u rIcSrc n 31 && rf u rIcSrc n 30 28 == k then u
       else modIntr u fun i => { i with wfi := addSorted k i.wfi }))) ∧
  (∀ (k n g : Nat) (rest : List (Nat × Nat)), coreStack u k = (g, n) :: rest → isLevel u n = false →
    exec (.coreEoi t k n) s = .next (after s (modIntr u fun i => { i with active := tput i.active k rest }))) ∧
  (∀ v : Nat, rbit u rIcVec v 19 = true →
    let w := wf u rIcVec v 19 19 0
    exec (.hostEoi t v) s = .next (after s ((w.intr.asserted.filter fun n =>
      (hostRoute w n).1 == v && (hostRoute w n).2 && levelHolds w n).foldl (fun s _ => countRequest s v) w))) ∧
  (∀ (g : Nat) (w : Word), g < 32 → exec (.hpIdleHint t g w) s = .next (after s (wrReg u rHpIdleHint g 0 w))) ∧
  (∀ v : Nat,
    let vs := ((u.intr.hostPend ++ u.intr.asserted).map fun n => (hostRoute u n).1).eraseDups
    (sortBy (vecBefore u) (vs.filter (vecSendable u))).head? = some v →
    exec (.msixSend t) s = .next (after s
      (if u.intr.unmasked.contains v then vecSend u v else modIntr u fun i => { i with pba := addSorted v i.pba }))) ∧
  (∀ v : Nat, (vecS u v).count ≠ 0 → rf u rIcVec v 17 8 ≠ 0 → (vecS u v).firstAt + rf u rIcVec v 17 8 * 1000 ≤ u.now →
    exec (.moderationTimer t v) s = .next (after s (modIntr u fun i => { i with vecs := tput i.vecs v { vecS u v with timedOut := true } }))) ∧
  (∀ v : Nat,
    let w := modIntr u fun i => { i with unmasked := addSorted v i.unmasked }
    exec (.msixUnmask t ⟨v, false⟩) s = .next (after s (if w.intr.pba.contains v then vecSend w v else w))) ∧
  (∀ v : Nat, exec (.msixUnmask t ⟨v, true⟩) s = .next (after s
    (modIntr u fun i => { i with unmasked := i.unmasked.filter (· != v) })))

/-- Queue-pair doorbells and work requests (R239–R244, R258–R262): SQ_PI makes work requests waiting, CQ_CI and RX_CI free entries,
and the head work request starts when its opcode's row comes and no counter holds it. It rests on the model's choices of log entries
9, 18, 92. -/
def Obligations.WorkRequestRowsComplete : Prop :=
  ∀ (s : State) (t n : Nat) (q : Qp), s.gl.phase = 2 →
  let u := tick s t
  qpOf u n = some q →
  (∀ (v : Nat) (reqs : List (List Byte)), 512 ≤ n → q.st ≠ 3 → sub32 v q.pi ≤ 2 ^ 31 → sub32 v q.ci ≤ 2 ^ q.sqLog →
    let img (i : Nat) : List Byte := if q.sq.1 = 1 then rdMem u (q.sq.2 + ((q.pi + i) % 2 ^ q.sqLog) * 64) 64 else reqs.getD i []
    exec (.sqPi t n v reqs) s = .next (after s (setQp u n { q with
      pi := v % 2 ^ 32, wrNo := q.wrNo + sub32 v q.pi,
      wrs := q.wrs ++ (List.range (sub32 v q.pi)).map fun i =>
        (q.wrNo + i, (⟨workReqOf (img i), 0, [], 0, 0, 0, 0, false, 0⟩ : WrRun)) }))) ∧
  (∀ v : Nat, 512 ≤ n → sub32 v q.cqCi ≤ sub32 q.cqTail q.cqCi →
    exec (.cqCi t n v) s = .next (after s (cqDrain (updQp u n fun q => { q with cqCi := v % 2 ^ 32 }) n q.cqWait))) ∧
  (∀ v : Nat, 512 ≤ n → sub32 v q.rxCi ≤ sub32 q.rxNext q.rxCi →
    exec (.rxCi t n v) s = .next (after s (updQp u n fun q => { q with rxCi := v % 2 ^ 32 }))) ∧
  (∀ (k : Nat) (r : WrRun) (i : Instr), sqHeadWr q = some (k, r) → r.held = false →
    (r.wr.opcode, i) ∈ ([(1, .write t n), (2, .writeImm t n), (3, .read t n), (5, .atomic t n), (7, .flush t n), (9, .send t n)] :
      List (Nat × Instr)) →
    exec i s = .next (after s (startWr u n))) ∧
  (∀ (k : Nat) (r : WrRun), sqHeadWr q = some (k, r) → r.held = true → armedReady u q.ctx r.wr = true →
    exec (.armedRelease t n) s = .next (after s (startWr u n)))

/-- Timers of queue pairs, messages and windows (R237, R246–R250, R256): a deadline stops its work request, an unacknowledged packet
is sent again or its message fails, a busy packet is sent again, and connects and windows that waited act. It rests on the model's
choices of log entries 9, 15. -/
def Obligations.QueuePairTimersComplete : Prop :=
  ∀ (s : State) (t n : Nat) (q : Qp), s.gl.phase = 2 →
  let u := tick s t
  qpOf u n = some q →
  (∀ (k : Nat) (r : WrRun), 512 ≤ n → tget q.wrs k = some r → r.st = 1 → r.wr.hasDeadline = true → r.wr.deadline ≤ u.now →
    let w := modFab (r.msgs.foldl (fun s m => dropMsgTx s n m false) u) fun f => { f with
      msgs := f.msgs.filter (fun m => !(m.qp == n && m.wrNo == k && m.kind != 4))
      tracks := f.tracks.filter fun t => !(t.qp == n && t.type == ptReadResp && r.msgs.contains t.msn) }
    exec (.wrDeadline t n k) s = .next (after s (wrDone (bump w rXeQpCnt 0 47 32 1) n k sDeadlinePassed 0))) ∧
  (∀ (msn d : Nat) (m : FwMsg), n < 512 → u.fab.fw.find? (fun m => m.qp == some n && m.msn == msn) = some m → m.deadline = some d →
    d ≤ u.now →
    let w := dropMsgTx u n msn false
    exec (.wrDeadline t n msn) s = .next (after s (bump (modFab w fun f => { f with
      msgs := f.msgs.filter (fun x => !(x.qp == n && x.msn == msn && x.kind != 4)), fw := f.fw.filter (·.id != m.id) })
      rXeQpCnt 0 47 32 1))) ∧
  (∀ (msn off : Nat) (p : TxPkt) (m : TxMsg),
    u.fab.txs.find? (fun x => x.qp == some n && x.pkt.msn == msn && x.pkt.offset == off && x.st == 2 && !x.busy) = some p →
    u.fab.msgs.find? (fun m => m.qp == n && m.msn == msn && (m.kind == 4) == (p.pkt.type == ptReadResp)) = some m →
    m.kind = 0 → atomicOver u n msn = none → p.sentAt + q.timeoutUs * 1000 ≤ u.now →
    let w := if p.bytes = 0 then u else chargeTimeout u p.pkt.dst p.path
    (p.tries < q.retry → w.now < m.firstAt + 4000000 →
      exec (.retxTimeout t n msn off) s = .next (after s (resend (updTx (bump w rXeRetxCnt q.xe 31 0 1) p.id fun x =>
        { x with tries := x.tries + 1 }) { p with tries := p.tries + 1 }))) ∧
    (q.retry ≤ p.tries →
      exec (.retxTimeout t n msn off) s = .next (after s (failMsg w n msn sRetryExceeded (retryDetail m))))) ∧
  (∀ (msn : Nat) (m : TxMsg), u.fab.msgs.find? (fun m => m.qp == n && m.msn == msn) = some m → m.kind ≠ 2 → m.kind ≠ 4 →
    m.firstAt + 4000000 ≤ u.now →
    (m.kind = 0 → ∃ p ∈ u.fab.txs, p.qp = some n ∧ p.pkt.msn = msn ∧ (p.tries ≠ 0 ∨ p.st = 2)) →
    exec (.messageLifeExpiry t n msn) s = .next (after s (failMsg u n msn sRetryExceeded (retryDetail m)))) ∧
  (∀ (msn off : Nat) (p : TxPkt),
    u.fab.txs.find? (fun x => x.qp == some n && x.pkt.msn == msn && x.pkt.offset == off && x.busy) = some p → p.busyAt ≤ u.now →
    exec (.nakPendingResend t n msn off) s = .next (after s (resend (bump u rXeRetxCnt q.xe 63 32 1) p))) ∧
  (q.connect.isSome = true → guardOver u q = true → 512 ≤ n →
    exec (.connectGuardExpiry t n) s = .next (after s (connectNow u n))) ∧
  (q.connect.isSome = true → guardOver u q = true → n < 512 →
    exec (.connectGuardExpiry t n) s = .next (after s (fwFlush (setQp u n { q with st := 1, connect := none }) q.remoteEp))) ∧
  (∀ (i : Nat) (w : Win), winOf u i = some w →
    exec (.windowGuardExpiry t i) s = .next (after s (winRun u i w.pend.length))) ∧
  (∀ msn since : Nat, tget q.seen msn = some since → msnPlace q msn = 1 → since + 8000000 ≤ u.now →
    let w := modFab u fun f => { f with tracks := f.tracks.filter fun x => !(x.qp == n && x.msn == msn && x.type != ptReadResp) }
    exec (.msnAbandon t n msn) s = .next (after s (doneAndTurn
      (bump (updQp w n fun q => { q with held := q.held.filter (·.msn != msn) }) rXeRxCnt 0 47 32 1) n msn true))) ∧
  (∀ (msn : Nat) (x : Track), trackOf u n msn = some x → x.count = x.length →
    exec (.messageComplete t n msn none) s = .next (after s (completeMsg u x))) ∧
  (∀ (msn src : Nat) (m : XMsg), serving (msgVisible u n msn) = true →
    exec (.messageComplete t n msn (some (src, m))) s = .next (after s (xIn (msgVisible u n msn) src m)))

/-- Ports and destinations (R179–R181, R192, R194, R196, R216–R227, R465): training, errors, state of destinations, rack accesses and
the quad. It rests on the model's choices of log entries 9, 70. -/
def Obligations.PortRowsComplete : Prop :=
  ∀ (s : State) (t : Nat), s.gl.phase = 2 →
  let u := tick s t
  (∀ (n : Nat) (pass : List Nat), n < 24 → rf u rEpStatus n 1 0 = 1 → rbit u rEpCtrl n 0 = true →
    let p := portS u n
    let got := widthOf pass (maxLanes u n)
    let best := if p.tries = 0 ∨ got.length > (widthOf p.best (maxLanes u n)).length then pass else p.best
    let w := setPort u n { p with tries := p.tries + 1, best := best }
    (got.length < maxLanes w n → p.tries + 1 < rf w rEpLinkCtrl n 19 16 → exec (.portTrainDone t n pass) s = .next (after s w)) ∧
    (¬(got.length < maxLanes w n ∧ p.tries + 1 < rf w rEpLinkCtrl n 19 16) → 4 ≤ (widthOf best (maxLanes w n)).length →
      exec (.portTrainDone t n pass) s = .next (after s (portSet
        (wf (wf w rEpTrain n 15 0 (sat 16 ((w.now - p.started) / 1000000))) rEpTrain n 35 32
          (([0, 1, 2, 3].filter fun l => !best.contains l).foldl (fun m l => m + 2 ^ l) 0)) n 2 (widthOf best (maxLanes w n)))))) ∧
  (∀ n uncorr corr : Nat, n < 24 → portUp u n = true →
    let w := bump (bump u rEpFecCnt n 63 32 uncorr) rEpFecCnt n 31 0 corr
    let x := if corr > 1024 then penalise_ w (24 + n) 16 else w
    exec (.uncorrectableBurst t n uncorr corr) s = .next (after s (if uncorr > rf x rEpLinkCtrl n 15 0 then retrainUp x n else x))) ∧
  (∀ n lane : Nat, n < 24 → lane < 4 → rbit u rEpStatus n (4 + lane) = true →
    exec (.blockLockLoss t n lane) s = .next (after s (retrainUp u n))) ∧
  (∀ n frames : Nat, n < 24 → portUp u n = true →
    let w := bump (bump u rEpFecCnt n 63 32 1) rEpRxDrop0 n 15 0 frames
    exec (.streamPlaceLost t n frames) s = .next (after s (setPort w n { portS w n with synced := false }))) ∧
  (∀ io : Nat, io < 4 → exec (.erefclkLoss t io) s = .next (after s ((List.range 6).foldl (fun s i => portSet s (6 * io + i) 0 []) u))) ∧
  (∀ (d : Nat) (x : Dest), tget u.fab.dests d = some x → x.lastUsed + 100000000 ≤ u.now → (∀ p ∈ x.paths, p.2.inflight = 0) →
    exec (.destStateIdle t d) s = .next (after s (flushNew (modFab u fun f => { f with dests := tdel f.dests d })))) ∧
  (∀ (d p : Nat) (x : Dest) (y : Path), tget u.fab.dests d = some x → tget x.paths p = some y → y.weight = 1 →
    y.oneSince + rf u rEpCcPath 0 31 16 * 1000 ≤ u.now →
    exec (.pathReroll t d p) s = .next (after s (flushDest (bump (setDest u d { x with
      paths := tput x.paths p { y with rerolls := y.rerolls + 1, weight := 16, wnd := rf u rEpCcWnd 0 23 0 } }) rEpCcCnt 0 63 48 1) d))) ∧
  (∀ a p : Nat, u.fab.keys.newSeen = some a → u.fab.keys.seenPhase = some p → a + 8000000 ≤ u.now →
    exec (.keyPhaseRetire t) s = .next (after s (keyFlags (modFab u fun f =>
      { f with keys := { f.keys with keys := tdel f.keys.keys (1 - p), newSeen := none } })))) ∧
  (∀ (d msn : Nat) (a : RackAcc), (accSeq u d).out.find? (fun a => a.msn == msn && a.kind != 2) = some a → a.sends ≠ 0 →
    (a.firstAt + rf u rFlLoadTimeout 0 10 0 * 1000 ≤ u.now → exec (.loadStoreResend t d msn) s = .next (after s (destDead u d))) ∧
    (u.now < a.firstAt + rf u rFlLoadTimeout 0 10 0 * 1000 → a.sentAt + rf u rFlLoadTimeout 0 24 16 * 1000 ≤ u.now →
      exec (.loadStoreResend t d msn) s = .next (after s (resendAcc u d a true)))) ∧
  (∀ (d msn : Nat) (a : RackAcc), (accSeq u d).out.find? (fun a => a.msn == msn && a.kind == 2) = some a → a.sends ≠ 0 → a.pendAt = none →
    a.sentAt + rf u rFlAtomicRetry 0 10 0 * 1000 ≤ u.now →
    exec (.atomicResend t d msn) s = .next (after s
      (if a.sends > rf u rFlAtomicRetry 0 18 16 then destDead u d else resendAcc u d a true))) ∧
  (∀ (d msn p : Nat) (a : RackAcc), (accSeq u d).out.find? (fun a => a.msn == msn && a.kind == 2) = some a → a.pendAt = some p → p ≤ u.now →
    exec (.atomicPendingResend t d msn) s = .next (after s (resendAcc u d a false))) ∧
  (∀ d : Nat, exec (.destDead t d) s = .next (after s (destDead u d))) ∧
  (∀ d : Nat, (accSeq u d).deadTo ≠ 0 → (accSeq u d).deadTo ≤ u.now →
    exec (.deadHoldEnd t d) s = .next (after s (setAccSeq u d { accSeq u d with deadTo := 0 }))) ∧
  (exec (.atomicCacheEvict t) s = .next (after s (modFab u fun f =>
    { f with atomics := f.atomics.filter fun a => decide (u.now ≤ a.at_ + 10000000) }))) ∧
  (∀ peer rtt i : Nat, quadPos u peer = some i → rbit u rFlCtrl 0 1 = true → rtt ≤ 2000 → peer ≠ self u →
    let w := modFab u fun f => { f with probes := addSorted i f.probes }
    let need := (List.range 4).filter fun j => rbit w rFlQuad j 20 && rf w rFlQuad j 19 0 != self w
    exec (.quadProbe t peer rtt true) s = .next (after s
      (if need.isEmpty = false ∧ need.all (w.fab.probes.contains ·) = true ∧ (quadPos w (self w)).isSome then wf w rFlQuadStatus 0 0 0 1
        else w)))

/-- The host and CXL links (R155–R157, R442, R452, R454, R456): the link's loss and return, host loss, and devices that come and go.
It rests on the model's choices of log entries 9, 74, 75. -/
def Obligations.LinkRowsComplete : Prop :=
  ∀ (s : State) (t : Nat), s.gl.phase = 2 →
  let u := tick s t
  (∀ kind : Nat,
    let w := modGlobal (linkDown u 0) fun g => { g with
      hp := if kind = 1 then .disabled else .down, hpOutAt := some (g.hpOutAt.getD (linkDown u 0).now)
      hpWiped := g.hpWiped || decide (kind < 2) }
    exec (.hpHotReset t kind) s = .next (after s (if kind ≥ 2 then w else modIntr w fun i => { i with unmasked := [], pba := [] }))) ∧
  (∀ rate width : Nat, u.gl.hp ≠ .l0 →
    let w := wf (modGlobal (linkUp u 0 rate width) fun g => { g with hp := .l0, hpOutAt := none, hpWiped := false }) rGlStatus 0 6 6 0
    exec (.hpReturn t rate width) s = .next (after s (if u.gl.hpWiped || rbit u rGlStatus 0 6 then hostStop w else w))) ∧
  (u.gl.hp = .l0 → exec (.d3hotEntry t) s = .next (after s (hostStop (modGlobal u fun g => { g with hp := .d3hot })))) ∧
  (∀ a : Nat, u.gl.hpOutAt = some a → u.gl.perst = false → rbit u rGlStatus 0 6 = false →
    a + rf u rGlHotplug 0 15 0 * 1000000 ≤ u.now →
    let w := hostStop (wf u rGlStatus 0 6 6 1)
    exec (.hostLoss t) s = .next (after s (if rbit w rGlHotplug 0 16 ∧ shutter w = 2 then shutterClose w 0 none else w))) ∧
  (∀ (i rate width : Nat) (devices : List Nat) (marker : Option Nat), cxlMode u i = true →
    exec (.cxlLinkUp t i devices marker rate width) s = .next (after s (cxlUp u i devices marker rate width))) ∧
  (∀ i : Nat, cxlMode u i = true → rbit u rMcTierPorts 0 (52 + i) = true →
    let here := fun n => slotPort u n == some i
    let a := (u.pg.spills.filter fun x => here x.slot).foldl spillFail u
    let b := (a.pg.prefetches.filter fun x => here x.slot).foldl (fun s x => prefetchStop (prefetchDone s x false) x) a
    exec (.cxlLinkDown t i) s = .next (after s
      (wf (linkDown (wf b rMcTierPorts 0 (52 + i) (52 + i) 0) (i + 1)) rGlPortStatus (i + 1) 15 12 0))) ∧
  (∀ i d : Nat, cxlMode u i = true → d < (cxlOf u i).devices.length → (cxlOf u i).gone.contains d = false →
    exec (.cxlDeviceRemoved t i d) s = .next (after s (cxlCount (setCxl (slotsLost u fun n =>
      slotPort u n == some i && slotOnDevice u i d n) i { cxlOf u i with gone := d :: (cxlOf u i).gone }) i))) ∧
  (∀ i d mib : Nat, cxlMode u i = true → rbit u rMcTierPorts 0 (52 + i) = true → (cxlOf u i).gone.contains d = true →
    exec (.cxlDeviceReturn t i d mib) s = .next (after s (cxlCount (markerWrite (setCxl u i { cxlOf u i with
      gone := (cxlOf u i).gone.filter (· != d) }) i) i))) ∧
  (∀ (n corr : Nat) (x : Prefetch) (solved : Bool), u.pg.prefetches.find? (·.slot == n) = some x → corr ≤ 1024 →
    exec (.cxlReadTimeout t n none ⟨corr, solved⟩) s = .next (after s (prefetchDone u x false))) ∧
  (∀ (n id i corr : Nat) (job : Option Nat) (solved : Bool), u.pg.prefetches.find? (·.slot == n) = none → corr ≤ 1024 →
    exec (.cxlReadTimeout t n (some (id, i, job)) ⟨corr, solved⟩) s = .next (after s (tierReadLate u id i job 1 true solved))) ∧
  (∀ n : Nat, n ≤ 1 → cxlMode u (n + 1) = false → exec (.auxPerst t n) s = .next (after s (linkDown u (n + 2))))

/-- Latch messages a home takes (R272, R273, R275, R277, R279, R281–R283, R436): an offer is forwarded, an acceptance moves the
ownership, a decline orphans, an epoch notice is acknowledged, a lease starts again, a query is answered, an assignment is forwarded,
and an owner that gives up its ownership is answered. Where the home turns one down it answers HINGE_REVERTED or LATCH_REPLY. It rests
on the model's choices of log entries 13, 29. -/
def Obligations.HomeMessagesComplete : Prop :=
  ∀ (s : State) (t src : Nat) (b : List Byte) (m : LMsg), s.gl.phase = 2 →
  let u := tick s t
  heardL u src b m →
  (∀ v : Lv, let w := bump u rLtHingeCnt 0 15 0 1
    m.sub = mHingeOffer → lvOf w m.obj = some v → v.st = 0 → v.owner = src → v.epoch = m.epoch →
    let v' := { v with st := 1, offeredTo := m.receiver, assigning := false, offerTime := w.now, hingeId := m.hingeId, prefill := false }
    exec (.hingeOfferMsg t src b) s = .next (after s (forward (putLv w m.obj v') m.obj v'))) ∧
  (∀ v : Lv, let w := bump u rLtHingeCnt 0 15 0 1
    m.sub = mHingeOffer → lvOf w m.obj = some v → v.st ≠ 0 →
    exec (.hingeOfferMsg t src b) s = .next (after s
      (revert (bump w rLtHingeCnt 0 47 32 1) src m.obj m.hingeId sInvalidParam))) ∧
  (∀ v : Lv, m.sub = mHingeAccept → lvOf u m.obj = some v → v.st = 1 → v.hingeId = m.hingeId → v.offeredTo = src → v.epoch < maxEpoch →
    mayAdvance u m.obj v = true →
    let w := { v with st := 0, owner := src, epoch := v.epoch + 1, offeredTo := 0, assigning := false, offerTime := 0,
                      done := (m.hingeId, src), expired := false }
    let x := startLease (putLv u m.obj w) src
    let y := if v.assigning then bump x rLtHingeCnt 0 63 48 1 else bump x rLtHingeCnt 0 31 16 1
    let z := if m.obj.region then modFab y fun f => { f with regions := tmod f.regions (localOf m.obj) fun r =>
      { r with renewed := true, pendAcc := none } } else y
    exec (.hingeAccept t src b) s = .next (after s (sendDone z m.obj w v.owner v.assigning))) ∧
  (∀ v : Lv, m.sub = mHingeDecline → lvOf u m.obj = some v → v.st = 1 → v.assigning = true → v.hingeId = m.hingeId → v.offeredTo = src →
    let v' := { v with st := 2, offeredTo := 0, assigning := false, offerTime := 0 }
    let w := bump (putLv u m.obj v') rLtHingeCnt 0 47 32 1
    let x := revert (revert w src m.obj m.hingeId m.status) (mgrEp w) m.obj m.hingeId m.status
    exec (.hingeDecline t src b) s = .next (after s
      (if m.status = sLostState ∧ m.obj.region = false then setLost x m.obj.id else orphanNotice x m.obj v'))) ∧
  (m.sub = mEpochAck → exec (.epochAck t src b) s = .next (after s
    (updHome u m.obj.id fun h => { h with notices := h.notices.filter (· != src) }))) ∧
  (m.sub = mLeaseRenew → (∀ l, tget u.ce.leases src = some l → l.expired = false) →
    let w := modFab (startLease u src) fun f => { f with regions := f.regions.map fun kv =>
      (kv.1, if kv.2.owner = src then { kv.2 with renewed := true } else kv.2) }
    exec (.leaseRenew t src b) s = .next (after s (sendL w src (lmsg mLeaseAck ⟨false, 0⟩ 0)))) ∧
  (∀ v : Lv, m.sub = mLatchQuery → lvOf u m.obj = some v →
    exec (.latchQueryMsg t src b) s = .next (after s (sendL u src (homeAnswer m.obj v)))) ∧
  (∀ v : Lv, m.sub = mLatchAssign → lvOf u m.obj = some v → v.epoch = m.epoch → v.st = 2 → v.prefill = false →
    (m.obj.region = false → ∀ h, homeOf u m.obj.id = some h → h.lost = false) →
    let hid := (newHinge u).1
    let v' := { v with st := 1, offeredTo := m.receiver, assigning := true, offerTime := u.now, hingeId := hid }
    exec (.latchAssignMsg t src b) s = .next (after s (forward (putLv (newHinge u).2 m.obj v') m.obj v'))) ∧
  (∀ v : Lv, m.sub = mLatchRelease → lvOf u m.obj = some v → v.owner = src → v.epoch = m.epoch → v.st = 0 → mayAdvance u m.obj v = true →
    let w := goOrphan u m.obj v true
    exec (.latchRelease t src b) s = .next (after s (sendL w src { (match lvOf w m.obj with
      | some x => { lmsg mLatchReply m.obj x.epoch with owner := x.owner, st := x.st }
      | none => lmsg mLatchReply m.obj 0) with status := sOk })))

/-- Latch messages an owner, a receiver or the manager takes (R13, R272–R274, R278, R281, R285): a forwarded region is accepted, the
end of an offer and of an acceptance, the acknowledgement of a lease, a reply to a query, an epoch notice, the notice of an orphan,
and a home that has moved. It rests on the model's choices of log entries 13, 27, 89. -/
def Obligations.OwnerMessagesComplete : Prop :=
  ∀ (s : State) (t src : Nat) (b : List Byte) (m : LMsg), s.gl.phase = 2 →
  let u := tick s t
  heardL u src b m →
  (∀ (ctx : Nat) (r : Recovery), m.sub = mHingeForward → m.obj.region = true → shutter u ≠ 1 → hingeOf u m.obj = none →
    exec (.hingeForward t src b ctx r) s = .next (after s (acceptSend u
      ⟨m.obj, false, none, 2, m.hingeId, src, m.offerer, m.epoch, ctx, u.now, 0, none, .runnable, m.offerer == 0, 0, false, false, false⟩))) ∧
  (∀ (ctx : Nat) (r : Recovery) (rs : List Reserve) (w : State), m.sub = mHingeForward → m.obj.region = false → m.offerer ≠ 0 →
    hingeOf u m.obj = none → seqOf u m.obj.id = none →
    let x := forwardedSeq u src m
    receiveCheck u x = none → takeReserve u x.ctx m.obj.id (cells x.geo) = some (rs, w) →
    exec (.hingeForward t src b ctx r) s = .next (after s (acceptSend (takeIn w m.obj.id x rs)
      ⟨m.obj, false, none, 2, m.hingeId, src, m.offerer, m.epoch, x.ctx, u.now, 0, none, x.st, false, 0, false, false, false⟩))) ∧
  (∀ (h : Hinge) (x : Option TableRead), m.sub = mHingeDone → isMgr u = false → hingeOf u m.obj = some h → h.offerer = true → h.phase = 1 →
    exec (.hingeDone t src b x) s = .next (after s (offerWon u h m.owner m.epoch))) ∧
  (∀ (h : Hinge) (x : Option TableRead), m.sub = mHingeDone → isMgr u = false → hingeOf u m.obj = some h → h.offerer = false → h.phase = 2 →
    exec (.hingeDone t src b x) s = .next (after s
      (if m.owner = self u then gained u h m.epoch x else notGained u h m.epoch))) ∧
  (∀ h : Hinge, m.sub = mHingeReverted → isMgr u = false → hingeOf u m.obj = some h → h.offerer = false → h.phase = 2 → m.hingeId = h.hingeId →
    let w := receiveUndo u h.obj
    exec (.hingeReverted t src b) s = .next (after s
      (if h.obj.region then raiseCtx w h.ctx evRegionLost 0 m.epoch h.obj.id else raiseSeq w h.ctx evLatchLost 0 h.obj.id m.epoch))) ∧
  (∀ h : Hinge, m.sub = mHingeReverted → isMgr u = false → hingeOf u m.obj = some h → h.offerer = true → h.phase = 1 → m.hingeId = h.hingeId →
    exec (.hingeReverted t src b) s = .next (after s (offerRevertedMsg u h m))) ∧
  (m.sub = mEpochNotice → exec (.epochNotice t src b) s = .next (after s
    (sendL (modCe u fun c => { c with seen := tput c.seen m.obj.id (Nat.max m.epoch (tgetD c.seen m.obj.id 0)) }) src
      (lmsg mEpochAck m.obj m.epoch)))) ∧
  (∀ (l : OwnLease) (a : Nat) (rest : List Nat), m.sub = mLeaseAck → tget u.ce.own src = some l → l.sent = a :: rest → m.status = sOk →
    exec (.leaseAck t src b) s = .next (after s (modCe u fun c => { c with
      own := tput c.own src { sent := rest, acked := some (Nat.max a (l.acked.getD 0)), lapsed := decide (a + leaseNs u ≤ u.now) } }))) ∧
  (∀ (req : Nat) (k : Nat × Req) (x : Option TableRead), m.sub = mLatchReply → homeOf u m.obj.id = none →
    u.ce.reqs.find? (fun kv => kv.2.use == .release m.obj && kv.2.dst == src) = none →
    u.ce.reqs.find? (fun kv => kv.2.use == .query m.obj && kv.2.dst == src) = some k → k.1 = req →
    waiters (modCe u fun c => { c with reqs := tdel c.reqs req }) req = [] →
    exec (.latchReply t src b x) s = .next (after s
      (learn (hingeQueried (modCe u fun c => { c with reqs := tdel c.reqs req }) src m x) m))) ∧
  (∀ (req : Nat) (k : Nat × Req) (x : Option TableRead), m.sub = mLatchReply → homeOf u m.obj.id = none →
    u.ce.reqs.find? (fun kv => kv.2.use == .release m.obj && kv.2.dst == src) = some k → k.1 = req → m.status = sOk →
    exec (.latchReply t src b x) s = .next (after s (releaseEnd (modCe u fun c => { c with reqs := tdel c.reqs req }) m.obj true))) ∧
  (m.sub = mOrphanNotice → isMgr u = true → m.obj.region = true →
    exec (.orphanNotice t src b) s = .next (after s
      (raiseCtx u ((tget u.ce.regionDir m.obj.id).map (·.1) |>.getD 0) evRegionOrphaned 0 m.epoch m.obj.id))) ∧
  (m.sub = mOrphanNotice → isMgr u = true → m.obj.region = false →
    exec (.orphanNotice t src b) s = .next (after s
      (raiseSeq u ((tget u.ce.ledger m.obj.id).map (·.ctx) |>.getD 0) evLatchOrphaned 0 m.obj.id m.owner))) ∧
  (∀ x : Seq, m.sub = mHomeMoved → isMgr u = false → seqOf u m.obj.id = some x →
    let v := modCe u fun c => { c with hinges := c.hinges.map fun h => if h.obj = m.obj then { h with home := src } else h }
    let w := updSeq v m.obj.id fun y => { y with home := src, latchRef := src * 2 ^ 44 + y.latchRef % 2 ^ 44 }
    let y := if w.pg.seqs.any fun kv => kv.2.home == x.home then w else modCe w fun c => { c with unreach := tdel c.unreach x.home }
    exec (.homeMoved t src b) s = .next (after s
      (writeDesc (homeBack (renewTo (leaseFrom y src y.now) src) m.obj.id src) m.obj.id)))

/-- Requests to the cell manager (R276, R285, R287, R288, R478): admission, retirement, joining, leaving, an unreachable home, a log
replica and a home are answered by the manager; every other controller answers TARGET_DEAD and does nothing else. It rests on the
model's choices of log entries 5, 13, 29. -/
def Obligations.ManagerRequestsComplete : Prop :=
  ∀ (s : State) (t src : Nat) (b : List Byte) (m : CMsg), s.gl.phase = 2 →
  let u := tick s t
  heardC u b m →
  let yes := fun v => sendC v src (mgrAck m sOk)
  (isMgr u = true →
    (∀ (gid home q : Nat) (v w : State), m.sub = mAdmitReq → ctxState u (bits m.a 7 0) = 1 → (admitCands u src).isEmpty = false →
      u.ce.ledger.length < 8388608 → pickOf u (admitCands u src) = (some (gid, home), v) →
      pick v (fun n => !thas v.ce.ledger n) 1 0xFFFFFFFE = (some q, w) →
      exec (.admitReq t src b) s = .next (after s (admitPlace w src m (bits m.a 7 0) q gid home))) ∧
    (∀ e : LedgerE, m.sub = mSeqRetire → tget u.ce.ledger m.obj = some e → e.state ≠ 1 →
      let w := ledgerPut u (.seq m.obj (some { e with state := 1, left := 2 }))
      exec (.seqRetire t src b) s = .next (after s (gateOn w.2 w.1 (outC src (mgrAck m sOk))))) ∧
    (m.sub = mJoined →
      let w := modCe u fun c => { c with members := tput c.members src ⟨bits m.a 1 0, u.now, false⟩ }
      exec (.joined t src b) s = .next (after s (yes
        (if src = self w then w else w.ce.groups.foldl (fun s kv => sendX s src 0 (.group kv.1 kv.2)) w)))) ∧
    (m.sub = mLeaving → exec (.leaving t src b) s = .next (after s (yes
      (memberGone (modCe u fun c => { c with members := tdel c.members src }) src)))) ∧
    (m.sub = mHomeUnreachable → exec (.homeUnreachable t src b) s = .next (after s (yes
      (if src = m.a then promoteFor u src else (askC u m.a mProbe 0 0 0 0 .plain).2)))) ∧
    (∀ (e : LedgerE) (new : Nat), m.sub = mLogReplicaReq → tget u.ce.ledger m.obj = some e → nextReplica u e m.a = some new →
      let w := ledgerPut u (.seq m.obj (some { e with logs := e.logs.map fun d => if d = m.a then new else d }))
      exec (.logReplicaReq t src b) s = .next (after s
        (gateOn w.2 w.1 (outC src ⟨mLogReplicaReply, sOk, m.req, m.obj, new, 0, 0⟩)))) ∧
    (∀ e : LedgerE, m.sub = mHomeLookup → tget u.ce.ledger m.obj = some e →
      exec (.homeLookup t src b) s = .next (after s (sendC u src ⟨mHomeLookupReply, sOk, m.req, m.obj, e.home, 0, 0⟩)))) ∧
  (isMgr u = false → ∀ i : Instr,
    (m.sub, i) ∈ ([(mAdmitReq, .admitReq t src b), (mSeqRetire, .seqRetire t src b), (mJoined, .joined t src b), (mLeaving, .leaving t src b),
      (mHomeUnreachable, .homeUnreachable t src b), (mLogReplicaReq, .logReplicaReq t src b), (mHomeLookup, .homeLookup t src b)] :
      List (Nat × Instr)) →
    exec i s = .next (after s (sendC u src ⟨mgrAnswer m.sub, sTargetDead, m.req, m.obj, 0, 0, 0⟩)))

/-- Requests to homes and holders (R61, R63, R166, R168, R276, R285, R294, R295, R478): a home takes copies over, names a mirror, and
replaces a stripe's slot; a holder spills, brings back, counts and drops pages; a probe is answered. It rests on the model's choices
of log entries 13, 28, 87. -/
def Obligations.HolderRequestsComplete : Prop :=
  ∀ (s : State) (t src : Nat) (b : List Byte) (m : CMsg), s.gl.phase = 2 →
  let u := tick s t
  heardC u b m →
  let ack := fun (v : State) (n : Nat) => sendC v src ⟨mRefAck, sOk, m.req, m.obj, n, 0, 0⟩
  (m.sub = mPromote → exec (.promote t src b) s = .next (after s ((u.ce.copies.filter fun kv => kv.2.1 == m.a).foldl (fun s kv =>
    let h := { kv.2.2 with asked := 0 }
    let first := (h.reps.filter fun r => match tget s.ce.groups h.group with
      | some g => !(g.failed.any fun p => g.members.getD p 0 == r)
      | none => true).headD (self s)
    if first = self s ∨ kv.2.2.asked ≠ 0 then promoteOne s kv.1 h
    else modCe s fun c => { c with copies := tput c.copies kv.1 (m.a, { h with asked := 1 }) }) u))) ∧
  (∀ (h : Home) (g : Group) (new : Nat), m.sub = mMirrorReq → homeOf u m.obj = some h → tget u.ce.groups h.group = some g →
    (membersAfter g (self u) (h.owner :: m.a :: h.reps)).head? = some new →
    exec (.mirrorReq t src b) s = .next (after s (sendC (replicate (setHome u m.obj { h with mirror := new }) m.obj) src
      ⟨mMirrorReply, sOk, m.req, m.obj, new, 0, 0⟩))) ∧
  (m.sub = mProbe → exec (.probe t src b) s = .next (after s (sendC u src ⟨mProbeAck, sOk, m.req, 0, 0, 0, 0⟩))) ∧
  (m.sub = mProbeAck → exec (.probeAck t src b) s = .next (after s (modCe (answered u m.req) fun c => { c with
    members := tmod c.members src fun x => { x with lastAck := u.now, silent := false } }))) ∧
  (m.sub = mSpillReq → bit m.a 8 = false →
    exec (.spillReq t src b) s = .next (after s (holdBegin u 0 m.obj src m.req))) ∧
  (m.sub = mSpillReq → bit m.a 8 = true →
    let w := summariseAll u m.obj
    exec (.spillReq t src b) s = .next (after s
      (sendC w.2 src ⟨mSpillReport, sOk, m.req, m.obj, w.1.1 + w.1.2 * 2 ^ 32, 0, 0⟩))) ∧
  (m.sub = mPrefetchReq → bits m.a 9 8 = 0 →
    exec (.prefetchReq t src b) s = .next (after s (holdBegin u 1 m.obj src m.req))) ∧
  (m.sub = mPrefetchReq → bits m.a 9 8 = 3 →
    exec (.prefetchReq t src b) s = .next (after s (sendC (dropHoldings (freeSummary u m.obj) m.obj).2 src ⟨mPrefetchReport, sOk, m.req, m.obj, 0, 0, 0⟩))) ∧
  (m.sub = mRefInc →
    let hs := u.pg.index.filter fun h => h.seq == m.obj && !h.parity && decide (h.base < m.b)
    (∀ h ∈ hs, pageRefs u h.entry < 65535) →
    exec (.refInc t src b) s = .next (after s (ack (modPg (hs.foldl (fun s h => incPage s h.entry) u) fun g =>
      { g with index := g.index ++ hs.map fun h => { h with seq := m.a, owner := src, stripe := 2 ^ 32 } }) hs.length))) ∧
  (m.sub = mRefDec → exec (.refDec t src b) s = .next (after s
    (ack (freeSummary (dropHoldings u m.obj).2 m.obj) (dropHoldings u m.obj).1))) ∧
  (∀ h : Holding, m.sub = mRefDrop → pageTooHigh (word m.a) = false → u.pg.index.find? (fun h => h.seq == m.obj && h.entry.toNat == m.a) = some h →
    exec (.refDrop t src b) s = .next (after s (ack (dropPage
      (modPg u fun g => { g with index := delFirst (fun x => x.seq == h.seq && x.entry == h.entry) g.index }) h.entry) 1))) ∧
  (∀ (h : Home) (e : StripeE), m.sub = mStripeReplace → homeOf u m.obj = some h → tget h.stripes (bits m.a 31 0) = some e →
    let j := bits m.a 35 32
    e.slots.getD j 0 = m.b → (m.b = 0 → e.health.contains j = false) → pageTooHigh (word m.c) = false →
    let w := setHome u m.obj { h with
      stripes := tput h.stripes (bits m.a 31 0) { e with slots := e.slots.set j m.c, health := addSorted j e.health }
      bt := if m.b = 0 then h.bt else h.bt.map fun kv => (kv.1, if kv.2 = m.b then m.c else kv.2) }
    exec (.stripeReplace t src b) s = .next (after s (sendC (replicate w m.obj) src ⟨mStripeReply, sOk, m.req, m.obj, 0, 0, 0⟩)))

/-- Replies to this controller's requests (R15, R61, R170, R276, R294, R295, R354): each is accepted once, from the party asked, and
what waited for it goes on. It rests on the model's choices of log entries 13, 89. -/
def Obligations.CellRepliesComplete : Prop :=
  ∀ (s : State) (t src : Nat) (b : List Byte) (m : CMsg) (r : Req), s.gl.phase = 2 →
  let u := tick s t
  let w := answered u m.req
  heardC u b m → askedOf u src m r →
  (∀ job : Nat, m.sub = mAdmitReply → r.use = .admission job → exec (.admitReply t src b) s = .next (after s (admitReply w job m))) ∧
  (∀ q : Nat, m.sub = mMgrAck → r.use = .retire q → m.status = sOk → exec (.mgrAck t src b) s = .next (after s w)) ∧
  (∀ q : Nat, m.sub = mMgrAck → r.use = .retire q → m.status = sTargetDead →
    exec (.mgrAck t src b) s = .next (after s (modCe w fun c => { c with reqs := tput c.reqs m.req { r with sentAt := u.now } }))) ∧
  (∀ q which : Nat, m.sub = mLogReplicaReply → r.use = .logNew q which → m.status = sOk →
    exec (.logReplicaReply t src b) s = .next (after s (logNamed w q which m.a))) ∧
  (∀ q : Nat, m.sub = mMirrorReply → r.use = .mirrorNew q → m.status = sOk →
    exec (.mirrorReply t src b) s = .next (after s (mirrorNamed w q m.a))) ∧
  (∀ q : Nat, m.sub = mHomeLookupReply → r.use = .lookup q → m.status = sOk →
    exec (.homeLookupReply t src b) s = .next (after s ((waiters w m.req).foldl (fun s id => askHome s id ⟨false, q⟩ m.a) w))) ∧
  (∀ q : Nat, m.sub = mSpillReport → r.use = .spill q →
    exec (.spillReport t src b) s = .next (after s (reportIn w q m.req (bits m.a 31 0) (bits m.a 63 32) true))) ∧
  (∀ (q : Nat) (rs : List StripeRead), m.sub = mPrefetchReport → r.use = .prefetch q →
    let v := reportIn w q m.req 0 (bits m.a 31 0) (m.status == sOk)
    (∀ x, seqOf v q = some x → x.summarised = 0) → exec (.prefetchReport t src b rs) s = .next (after s v)) ∧
  (∀ job : Nat, m.sub = mRefAck → r.use = .refInc job → m.status = sOk →
    exec (.refAck t src b) s = .next (after s (refCounted w job src))) ∧
  (∀ (x : Rebuild) (h : Holding) (rest : List Rebuild), m.sub = mStripeReply → r.use = .replace → r.obj = m.obj →
    u.ce.rebuilds = x :: rest → x.pend = some h → m.status = sOk →
    exec (.stripeReply t src b) s = .next (after s (rebuildNext (modPg w fun g => { g with index := g.index ++ [h] }))))

/-- Timers of a cell (R272–R274, R276, R280, R281, R285, R478): each acts only when its time has come. It rests on the model's choices
of log entries 9, 10. -/
def Obligations.CellTimersComplete : Prop :=
  ∀ (s : State) (t : Nat), s.gl.phase = 2 →
  let u := tick s t
  (∀ (o : Obj) (v : Lv), lvOf u o = some v → v.st = 1 → (o.region = false → ∀ h, homeOf u o.id = some h → h.asked = 0) → offerEnd u v ≤ u.now →
    exec (.offerTimeout t o) s = .next (after s (endOffer u o v))) ∧
  (∀ (owner : Nat) (l : Lease), tget u.ce.leases owner = some l → l.expired = false → l.last + leaseNs u ≤ u.now →
    let w := bump (modCe u fun c => { c with leases := tput c.leases owner { l with expired := true } }) rLtFenceCnt 0 47 32 1
    let x := (homedObjs w fun v => v.owner == owner && v.st == 1 && !v.assigning).foldl (fun s o =>
      match lvOf s o with | some v => putLv s o { v with expired := true } | none => s) w
    exec (.homeLeaseExpiry t owner) s = .next (after s ((homedObjs x fun v => v.owner == owner && v.st == 0).foldl (fun s o =>
      match lvOf s o with
      | some v => if mayAdvance s o v then goOrphan s o v true else putLv s o { v with expired := o.region }
      | none => s) x))) ∧
  (∀ (home a : Nat) (l : OwnLease), tget u.ce.own home = some l → l.acked = some a → l.lapsed = false → a + leaseNs u ≤ u.now →
    let w := modCe u fun c => { c with own := tput c.own home { l with lapsed := true } }
    let x := (w.pg.seqs.filter fun kv => kv.2.home == home).foldl (fun s kv =>
      askL s home (lmsg mLatchQuery ⟨false, kv.1⟩ kv.2.epoch) (.query ⟨false, kv.1⟩)) w
    exec (.ownerLeaseExpiry t home) s = .next (after s ((x.ce.regs.filter fun kv => kv.1 / 2 ^ 44 == home).foldl (fun s kv =>
      askL s home (lmsg mLatchQuery ⟨true, kv.1⟩ kv.2.epoch) (.query ⟨true, kv.1⟩)) x))) ∧
  (u.ce.renewAt + renewNs u ≤ u.now →
    exec (.leaseRenewTimer t) s = .next (after s ((ownHomes u).foldl renewTo (modCe u fun c => { c with renewAt := u.now })))) ∧
  (∀ (o : Obj) (h : Hinge) (x : TableRead), hingeOf u o = some h → h.phase = 3 → h.queryAt ≤ u.now →
    exec (.hingeQueryTimer t o (some x)) s = .next (after s (gainedRun u h x))) ∧
  (∀ (o : Obj) (h : Hinge) (x : Option TableRead), hingeOf u o = some h → h.phase = 1 ∨ h.phase = 2 → h.queryAt ≤ u.now → h.askedAt = none →
    exec (.hingeQueryTimer t o x) s = .next (after s (sendL (setHinge u { h with askedAt := some u.now, queryAt := u.now + leaseNs u }) h.home
      (lmsg mLatchQuery o h.epoch)))) ∧
  (∀ (q : Nat) (h : Home), homeOf u q = some h → h.notices ≠ [] → h.noticeAt + 20000 ≤ u.now → h.noticeFrom + leaseNs u > u.now →
    exec (.epochNoticeResend t q) s = .next (after s (sendNotices (setHome u q { h with noticeAt := u.now }) q h.epoch h.notices))) ∧
  (∀ (q : Nat) (h : Home), homeOf u q = some h → h.notices ≠ [] → h.noticeAt + 20000 ≤ u.now → h.noticeFrom + leaseNs u ≤ u.now →
    exec (.epochNoticeResend t q) s = .next (after s (setHome u q { h with notices := [] }))) ∧
  (∀ (n : Nat) (r : Req), tget u.ce.reqs n = some r → reportUse r.use = false → r.fw ≠ 2 ^ 40 → r.sentAt + leaseNs u ≤ u.now →
    exec (.requestUnanswered t n) s = .next (after s (unanswered u n))) ∧
  (isMgr u = true → u.ce.probeAt + renewNs u ≤ u.now →
    let w := modCe u fun c => { c with
      probeAt := u.now, members := (probed u).foldl (fun t d => if thas t d then t else tput t d ⟨2, u.now, false⟩) c.members }
    exec (.probeTimer t) s = .next (after s ((probed w).foldl (fun s d => (askC s d mProbe 0 0 0 0 .plain).2) w))) ∧
  (∀ (ep : Nat) (x : Member), tget u.ce.members ep = some x → isMgr u = true → ep ≠ self u → x.silent = false →
    x.lastAck + homeDeadNs u ≤ u.now →
    exec (.memberSilent t ep) s = .next (after s (memberGone
      (modCe u fun c => { c with members := tput c.members ep { x with silent := true } }) ep))) ∧
  (∀ (home a : Nat), tget u.ce.unreach home = some a → a + homeDeadNs u + 100000000 ≤ u.now →
    exec (.homeOutageTimeout t home) s = .next (after s ((((u.ce.held.map (·.1)).eraseDups).filter fun q => match seqOf u q with
      | some x => x.home == home | none => false).foldl (fun s q => recoveryPause s q) u))) ∧
  (∀ (a : Nat) (r : RegionR) (v : Lv), tget u.fab.regions a = some r → r.renewed = false → r.latch = 0 → r.createdAt + leaseNs u ≤ u.now →
    let o : Obj := ⟨true, self u * 2 ^ 44 + a⟩
    lvOf u o = some v → mayAdvance u o v = true → exec (.regionRenewTimeout t a) s = .next (after s (goOrphan u o v true)))

/-- Steps (R104, R110, R162, R163, R317, R321, R322, R344, R348): a step starts, its stages end and follow each other, it ends at its
boundary, and its deadlines and late reads act. It rests on the model's choices of log entries 9, 10, 53, 63. -/
def Obligations.StepRowsComplete : Prop :=
  ∀ (s : State) (t id : Nat), s.gl.phase = 2 →
  let u := tick s t
  (∀ (x : Step) (p : Plan), stepOf u id = some x → tget u.st.plans x.plan = some p →
    (∀ arg : StageArg, mayDispatch u x = true →
      exec (.stepDispatch t id arg) s = .next (after s (stageBegin (stepStart u id x p) id arg))) ∧
    (∀ (g : Stage) (arg : StageArg), p.stages[x.stage]? = some g → x.running = true → stageIdle u id x g = true → g.kind ≠ 2 → g.kind ≠ 4 →
      exec (.stageBoundary t id arg) s = .next (after s (stageNext (riskJudge (stopDeferred u id) id x p g) id p arg))) ∧
    (∀ (g : Stage) (arg : StageArg), p.stages[x.stage]? = some g → x.running = true → stageIdle u id x g = true → g.kind = 2 →
      exec (.stageBoundary t id arg) s = .next (after s
        (stageNext (riskJudge (attnEnd (stopDeferred u id) id x.stage g.teFirst (attnOf g.body)) id x p g) id p arg))) ∧
    (∀ (g : Stage) (arg : StageArg), p.stages[x.stage]? = some g → x.running = true → stageIdle u id x g = true → g.kind = 4 →
      let w := stopDeferred u id
      let y := (((stepOf w id).map runSlots).getD []).foldl (fun s y => chooseSlot s id y.1 x p y.2) w
      exec (.stageBoundary t id arg) s = .next (after s (stageNext (riskJudge y id x p g) id p arg))) ∧
    (∀ (g : Stage) (arg : StageArg), p.stages[x.stage]? = some g → x.running = true → g.kind = 7 →
      g.waitDelta ≤ sub32 (rf u rXeArmCtr (x.ctx * 16 + g.waitCtr) 31 0) (x.ctrs.getD g.waitCtr 0) →
      exec (.waitStageRelease t id arg) s = .next (after s (stageNext (riskJudge (stopDeferred u id) id x p g) id p arg))) ∧
    (stepReady u id x p = true → exec (.stepBoundary t id) s = .next (after s (stepEnd u id x))) ∧
    (x.running = true → x.overrun = false → x.startAt + p.wcet ≤ u.now →
      exec (.stepBudgetExpiry t id) s = .next (after s (raiseCtx
        (bump (modStep u id fun y => { y with overrun := true }) rMtStepCnt x.ctx 47 32 1) x.ctx evStepOverrun 0 x.plan (u.now - x.startAt)))) ∧
    (∀ (i n : Nat) (r : SlotRun) (err solved : Bool),
      let k := Nat.min n (slotSpilled u id i)
      let w := if err then bump u rMcTierCnt x.ctx 63 32 k else bump u rMcTierCnt x.ctx 31 0 k
      slotAt u id i = some r → k ≠ 0 → (err = false → r.readAt + rf u rMcTierCtrl 0 17 8 * 1000 ≤ u.now) →
      solved = true ∨ rf u rMcTierPolicy x.ctx 1 0 ≠ 1 →
      exec (.tierReadLate t id i none n ⟨err, solved⟩) s = .next (after s (modSlot w id i fun r => { r with readAt := u.now }))) ∧
    (∀ (i : Nat) (r : SlotRun), slotAt u id i = some r → slotSpilled u id i ≠ 0 → rf u rMcTierPolicy x.ctx 1 0 ≠ 1 →
      x.startAt + (if p.tierDeadline = 0 then p.wcet * rf u rMcTierCtrl 0 7 1 / 100 else p.tierDeadline) ≤ u.now →
      exec (.tierDeadline t id i none) s = .next (after s (recoveryPause (tierFail u id i 1) r.seq)))) ∧
  (∀ (n : Nat) (p : Pane), tget u.st.panes n = some p → p.st = 0 → p.deadline ≤ u.now →
    exec (.paneDeadline t n) s = .next (after s (paneMissing u n))) ∧
  (∀ (k i : Nat) (j : PaneJob), u.st.jobs.find? (fun j => j.id == k) = some j → (paneReqOf j.req).deadline ≤ u.now →
    (j.pages.any fun h => (localSlot u h.entry).isSome) = true →
    exec (.tierDeadline t id i (some k)) s = .next (after s (jobDrop u j))) ∧
  (∀ (cls n c : Nat) (w : Work) (q : Quantum) (v : State), cls = 0 ∨ cls = 2 → unitServes u cls n = true →
    (cls = 0 → u.gl.power.stopTiles = false) → pickCtx u cls (dieOf cls n) q.copies = some c → pickWork u cls (dieOf cls n) c q.copies = some w →
    wakeUnit u cls n (if cls = 0 then n % 32 / 8 * 500 else 0) = (true, v) → q.parity = 0 → q.fault = none →
    let used := Nat.min w.ns (if cls = 0 then engineNs v 3200 else rf v rMtSched 0 19 10 * 1000)
    let ns := used + switchNs v cls n c
    let y := if cls = 0 then teSwitch v n c else v
    let x := q.ecc.foldl eccHit (unitRuns (chargeUnit y cls n c ns) cls n ns (workOp v w))
    exec (.unitDispatch t cls n q) s = .next (after s
      (if w.ns > used then modMt x fun m => { m with work := m.work.map fun y => if y == w then { y with ns := y.ns - used } else y }
       else workDone (modMt x fun m => { m with work := delFirst (· == w) x.mt.work }) n w q.copies))) ∧
  (∀ (cls n : Nat) (q : Quantum) (v : State), cls = 1 ∨ cls = 3 → unitServes u cls n = true → ctxState u q.ctx = 1 →
    wakeUnit u cls n 0 = (true, v) → q.parity = 0 → q.fault = none →
    let ns := q.ns + switchNs v cls n q.ctx
    exec (.unitDispatch t cls n q) s = .next (after s (q.ecc.foldl eccHit
      (unitRuns (chargeUnit v cls n q.ctx ns) cls n ns (if cls = 3 then q.op % 6 else 0)))))

/-- Upkeep of pages, sequences, images, adapters and records (R44, R50, R57, R58, R137, R140, R158, R159, R167, R170, R294, R297,
R358, R417, R418). It rests on the model's choices of log entries 9, 10. -/
def Obligations.UpkeepRowsComplete : Prop :=
  ∀ (s : State) (t : Nat), s.gl.phase = 2 →
  let u := tick s t
  (u.pg.lastTick + rf u rPgReclaim 0 16 0 * 1000 ≤ u.now → (u.st.steps.any fun kv => kv.2.running) = false →
    exec (.reclamationTick t) s = .next (after s (ledgerTick (reclaim (modSt (modPg u fun p => { p with lastTick := u.now }) fun t =>
      { t with counted := [] }))))) ∧
  (exec (.reserveRefill t) s = .next (after s ((refillQueue u fun x => x.st == .runnable || x.st == .starved).foldl (fun s kv =>
    refillSeq_ s kv.1 (2 * (bareCells kv.2).length + 2)) u))) ∧
  (rbit u rPgCtrl 0 1 = true → freeFrames u < lowMark u →
    exec (.backgroundSpill t) s = .next (after s (spillOne (modPg u fun p => { p with bgSpill := true })).2)) ∧
  (∀ (kv : Nat × Seq) (v : State), sortBy refillLe (u.pg.seqs.filter fun kv => kv.2.st == .paused && kv.2.pauseCause == 1) = [kv] →
    fillReserve u kv.1 = some v →
    let w := finishAll (changeSeq v kv.1 fun y => { y with st := .runnable }) (.resume kv.1) sOk 0 0 0
    exec (.spaceResume t) s = .next (after s (raiseSeq w kv.2.ctx evResumeReady 0 kv.1 (leftHere w kv.1 % 2 ^ 32)))) ∧
  (∀ (q layer : Nat) (x : Seq), seqOf u q = some x →
    let tail := sortBy tailLe (x.unstriped.filter fun v => v.1 == layer)
    rbit u rPgCtrl 0 0 = true → role u ≠ 0 → groupK u x ≠ 0 → x.st = .runnable ∨ x.st = .starved ∨ x.st = .paused → x.summarised = 0 →
    groups x.geo * rf u rPgTailCtrl 0 8 0 + groupK u x ≤ tail.length →
    exec (.tailMigration t q layer) s = .next (after s (stripeStart u q (tail.take (groupK u x))))) ∧
  (∀ (q : Nat) (x : Seq), seqOf u q = some x → x.st = .paused → x.expiry ≠ 0 → x.expiry ≤ u.now →
    (∀ o ∈ u.host.opens, o.wait ≠ .resume q) →
    let w := releasePages (migrateEnd (bump (finishSeq u q .ended sExpired) rMcPauseCnt 0 31 16 1) q sExpired) q
    exec (.pauseExpiry t q) s = .next (after s (askX w ((seqOf w q).getD x).home 2 q (fun i => .retire i q) .plain).2)) ∧
  (∀ (n : Nat) (x : Spill), u.pg.spills.find? (·.slot == n) = some x → x.leased = true →
    exec (.spillWriteDone t n true) s = .next (after s (spillDone u x)) ∧
    exec (.spillWriteDone t n false) s = .next (after s (spillFail u x))) ∧
  (∀ (n : Nat) (ok : Bool) (x : Prefetch), u.pg.prefetches.find? (·.slot == n) = some x →
    exec (.prefetchReadDone t n ok) s = .next (after s (prefetchDone u x ok))) ∧
  (∀ (q : Nat) (r : Reports), tget u.pg.reports q = some r → r.sent + rf u rMcTierCtrl 0 33 18 * 1000000 ≤ u.now →
    exec (.reportTimeout t q) s = .next (after s (modCe (r.waiting.foldl (fun s i => match tget s.ce.reqs i with
      | some x => reportMiss s q i x.dst
      | none => reportIn s q i 0 0 true) u) fun c => { c with reqs := c.reqs.filter fun kv => !r.waiting.contains kv.1 }))) ∧
  (∀ (r : Rebuild) (rest : List Rebuild) (q home : Nat) (x : RebuildRead), u.ce.rebuilds = r :: rest → r.op ≠ 0 → r.pend = none →
    r.seqs[r.done]? = some (q, home) →
    exec (.rebuildStripe t (some x)) s = .next (after s (rebuildWrite u r q home x))) ∧
  (∀ (r : Rebuild) (rest : List Rebuild) (x : Option RebuildRead), u.ce.rebuilds = r :: rest → r.op ≠ 0 → r.pend = none →
    r.seqs[r.done]? = none → exec (.rebuildStripe t x) s = .next (after s (rebuildFinish u r))) ∧
  (∀ (i op : Nat) (im : Image) (body : List Byte), tget u.st.images i = some im → jrFind u (.image i) = some op → im.st = 0 →
    let wb := w64At im.header 0x20
    let b := slice body 0 (wb + w64At im.header 0x28)
    let nw := cdiv wb frameBytes
    let w := jrPhase (fillFrames (fillFrames u (im.frames.take nw) (b.take wb)) (im.frames.drop nw) (b.drop wb)) op 2 0
    crc32c b = leAt im.header 0x40 4 → imageTilesCheck w im.ctx (b.drop wb) = none →
    exec (.imgCopyDone t i (some body)) s = .next (after s (imageDone w i im op (b.drop wb)))) ∧
  (∀ (n : Nat) (a : Adapter) (body : List Byte), tget u.st.adapters n = some a → a.cmd ≠ 0 → crc32c (slice body 0 a.bytes) = a.crc →
    exec (.adpCopyDone t n (some body)) s = .next (after s (adapterReady u n a (slice body 0 a.bytes)))) ∧
  (u.gl.flash.retryAt + 60000000000 ≤ u.now → exec (.repairRecordRetry t) s = .next (after s (u.gl.flash.retry.foldl (fun s x => flashDue s (.repair x.1 x.2))
    (modFlash u fun f => { f with retry := [], retryAt := u.now })))) ∧
  (exec (.journalRecordReuse t) s = .next (after s (modCe u fun c => { c with
    jr := c.jr.filter fun x => x.2.live || decide (u.now < x.2.finished + 60000000000) }))) ∧
  (∀ i : FlashItem, u.gl.flash.busy = some i →
    let w := flashStored (modFlash u fun f => { f with busy := none }) i
    let v := flashNext w (w.gl.flash.queue.length + 1)
    exec (.flashWriteDone t) s = .next (after s (match i with | .lifecycle target owner => lcBurnt v target owner | _ => v))) ∧
  (∀ (n : Nat) (x : Txn), tget u.host.txns n = some x → x.committing = false → x.opened + rf u rCqTxnCtrl 0 16 0 * 1000000 ≤ u.now →
    exec (.txnExpired t n) s = .next (after s (raiseDev (bump (modHost u fun h => { h with
      txns := tdel h.txns n, txnEnds := tput h.txnEnds n ⟨x.ring, 1⟩ }) rCqTxnStatus 0 35 20 1)
      evTxnExpired sTxnTimeout (n + x.ring * 256) 0)))

/-- Power rows (R28–R33, R152, R400, R401, R404–R417, R426, R428, R456): gating and waking of units, clocks, stacks and SRAM banks,
the scrub, temperatures, supplies, estimates, pacing, the sprint's voltage, wear and health. It rests on the model's choices of log
entry 9. -/
def Obligations.PowerRowsComplete : Prop :=
  ∀ (s : State) (t : Nat), s.gl.phase = 2 →
  let u := tick s t
  (∀ cls n : Nat, n < unitCount cls → rbit u (pwrReg cls) n 0 = true →
    unitIdleFrom u cls n + rf u (pwrReg cls) n 23 4 * 1000 ≤ u.now →
    let w := modSleep u fun x => { x with gated := addSorted (unitKey cls n) x.gated }
    exec (.unitIdleGate t cls n) s = .next (after s
      (if cls < 3 ∧ (dieUnits (unitDie cls n)).all (fun v => isGated w v.1 v.2) = true ∧ thas w.gl.sleep.pllIdle (unitDie cls n) = false then
        modSleep w fun x => { x with pllIdle := tput x.pllIdle (unitDie cls n) u.now } else w))) ∧
  (∀ cls n a : Nat, tget u.gl.sleep.waking (unitKey cls n) = some a → a ≤ u.now → (cls < 3 → u.gl.sleep.plls.contains (unitDie cls n) = false) →
    exec (.unitWakeDone t cls n) s = .next (after s (modSleep u fun x => { x with
      waking := tdel x.waking (unitKey cls n), gated := x.gated.filter (· != unitKey cls n),
      pllIdle := if cls < 3 then tdel x.pllIdle (unitDie cls n) else x.pllIdle }))) ∧
  (∀ die a : Nat, tget u.gl.sleep.pllIdle die = some a → rbit u rPmSleep 0 0 = true → a + rf u rPmSleep 0 31 16 * 1000000 ≤ u.now →
    u.gl.sleep.plls.contains die = false →
    exec (.pllStop t die) s = .next (after s (modSleep u fun x => { x with plls := addSorted die x.plls }))) ∧
  (∀ die a : Nat, tget u.gl.sleep.pllWake die = some a → a ≤ u.now →
    exec (.pllRestartDone t die) s = .next (after s (modSleep u fun x =>
      { x with plls := x.plls.filter (· != die), pllWake := tdel x.pllWake die }))) ∧
  (∀ k : Nat, rbit u rPmSleep 0 1 = true → rf u rMcStatus k 2 0 = 2 → tgetD u.mt.stackAt k 0 + rf u rPmSleep 0 47 32 * 1000 ≤ u.now →
    exec (.stackSelfRefresh t k) s = .next (after s (wf u rMcStatus k 2 0 3))) ∧
  (∀ b : Nat, rbit u rSpBankPwr (b / 64) (b % 64) = true → sramBusy u = false →
    Nat.max u.mt.sramAt (tgetD u.mt.bankAt b 0) + rf u rSpRetCtrl 0 15 0 * 1000 ≤ u.now →
    exec (.sramRetention t b) s = .next (after s
      (wrReg u rSpBankState (b / 64) 0 (word ((rdReg u rSpBankState (b / 64) 0).toNat ||| 2 ^ (b % 64)))))) ∧
  (∀ b a : Nat, tget u.gl.sleep.bankWake b = some a → a ≤ u.now →
    let w := modSleep u fun x => { x with bankWake := tdel x.bankWake b }
    exec (.sramBankWake t b) s = .next (after s
      (wrReg w rSpBankState (b / 64) 0 (setFld (rdReg w rSpBankState (b / 64) 0) (b % 64) (b % 64) 0)))) ∧
  (∀ (f : Nat) (corrected : NTable Nat) (hits : List EccHit),
    let k := frameStack f
    f < numFrames → rbit u rMcCtrl k 0 = true → stackDead u k = false →
    (∀ a, tget u.gl.scrubAt f = some a → a + rf u rMcScrub k 7 0 * 3600000000000 ≤ u.now) →
    let hits' := hits.filter fun h => decide (frameAddr f ≤ h.addr ∧ h.addr < frameAddr f + frameBytes)
    let w := wf (stackWake (modGl u fun g => { g with scrubAt := tput g.scrubAt f u.now }) k) rMcScrub k 27 8 (f % 0x100000)
    let n := corrected.foldl (fun n c => n + c.2) 0 + hits'.length
    let x := if n = 0 then w else bump w rMcEccCnt k 63 48 n
    exec (.patrolScrub t f corrected hits) s = .next (after s
      (hits'.foldl eccHit (corrected.foldl (fun s c => eccCorrected s k c.1 c.2) x)))) ∧
  (∀ k : Nat, exec (.stackCalibration t k) s = .next (after s u)) ∧
  (∀ k temp : Nat,
    let w := wf (wf u rMcStatus k 15 8 (Nat.min 255 temp)) rMcStatus k 5 5 (b2n (decide (temp > 85)))
    exec (.stackTempReport t k temp) s = .next (after s (if 85 < temp ∧ rbit u rMcStatus k 5 = false then penalise_ w k 128 else w))) ∧
  (∀ faults : List Nat, exec (.pmbAlert t faults) s = .next (after s ((faults.filter (vrValid u)).foldl telemetryLost u))) ∧
  (∀ (i : Nat) (p : Poll), vrValid u i = true → p.fault = false →
    let w := wrReg u rPmVr1 i 0 (word (Nat.min 0xFFFF p.vout + Nat.min 0xFFF p.iout * 2 ^ 16 + Nat.min 0xFFF p.pout * 2 ^ 28 +
      Nat.min 0xFF p.temp * 2 ^ 40))
    let x := modFlash w fun f => { f with vcap := tput f.vcap i p.vcap }
    let y := if rf x rPmHoldupCfg 0 1 0 = 1 then holdupNote x else x
    exec (.pmbusPoll t i (some p)) s = .next (after s (telemetryBack (modPower y fun z =>
      { z with polls := tput z.polls i (Nat.min 3 (tgetD z.polls i 0 + 1)) })))) ∧
  (∀ i : Nat, vrValid u i = true →
    let w := modPower (bump u rPmVr1 i 55 48 1) fun x => { x with polls := tput x.polls i 0 }
    exec (.pmbusPoll t i none) s = .next (after s (if rf w rPmVr1 i 55 48 ≥ 3 then telemetryLost w i else w))) ∧
  (∀ seA uj sense : Nat, seA ≤ 1750 →
    let e := u.gl.power.energyUj + uj
    let v := modPower u fun x => { x with energyUj := e % 1000 }
    let w := wrReg v rPmEnergy 0 0 (word ((rdReg v rPmEnergy 0 0).toNat + e / 1000))
    let rated := rf w rPmElec 0 11 0
    let x := modPower w fun x => { x with
      stopTiles := false, overAt := if seA > rated then (if x.overAt.isSome then x.overAt else some u.now) else none }
    exec (.powerEstimateTick t seA uj sense) s = .next (after s
      (holdupNote (modFlash x fun f => { f with sense := Nat.min 1500 sense })))) ∧
  (∀ p now : Nat, inSprint u = false → dieHot u (rf u rPmTherm 0 6 0) = false → stackHot u (rf u rPmTherm 0 14 8) = false →
    let w := wf (modPower u fun x => { x with thermLimit := none }) rPmStatus 0 3 3 0
    let x := paceN (limitNote w) p (if windDown w && p > 1100 then 16 else 1)
    let paced := decide (rf x rPmPace 0 8 0 < 256) || decide (rf x rPmPace 0 17 9 < 256)
    let y := wf x rPmStatus 0 2 2 (b2n paced)
    let us := y.gl.power.pacedUs + 100
    let z := modPower y fun x => { x with pacedUs := us % 1000 }
    exec (.pacingTick t p now) s = .next (after s (if paced then (if us ≥ 1000 then bump z rPmPace 0 63 32 1 else z) else y))) ∧
  (∀ x : Thermal,
    let a := dieTemps (wearAccrue u) x.temps
    let b := wf (wf a rPmStatus 0 27 16 (Nat.min 4095 x.pkgW)) rPmStatus 0 39 28 (Nat.min 4095 x.seA)
    let tj := Nat.max (rf b rPmDieTemp 0 7 0) (rf b rPmDieTemp 1 7 0)
    let l := rf b rPmTherm 0 6 0
    let ms := thermalMs (rf b rPmThermModel 0 15 0) (tj * 1000) (tSteady b (tj * 1000) 1330000 x.pf 211500 x.psef) (l * 1000)
    let c := wf b rPmSprintRemain 0 47 24 ms
    let d := wf c rPmSprintRemain 0 23 0 (Nat.min 0xFFFFFF (Nat.min (Nat.min ms (wearLeftMs c)) ((maxLeftMs c).getD 0xFFFFFF)))
    let e := if d.gl.power.rearm && decide (tj + rf d rPmSprintCtrl 0 39 32 ≤ l) then modPower d fun y => { y with rearm := false } else d
    inSprint b = false → endCauses e x = [] →
    exec (.thermalEval t x) s = .next (after s ((List.range 256).foldl (fun s c =>
      if ctxState s c = 0 then s else meter s rMtFrameMs c 0 (framesUsed s c)) e))) ∧
  (∀ mon : Option Bool,
    let w := mon.elim u (monitorStep u)
    let v' := if nowMv w < w.gl.power.target then Nat.min w.gl.power.target (nowMv w + 5) else Nat.max w.gl.power.target (nowMv w - 5)
    (w.gl.power.stepAt + 10000 ≤ w.now →
      exec (.sprintVoltageStep ⟨t, mon⟩) s = .next (after s (sprintReady (wf (modPower w fun x => { x with stepAt := w.now }) rPmVse 0 29 20 v')))) ∧
    (w.now < w.gl.power.stepAt + 10000 → exec (.sprintVoltageStep ⟨t, mon⟩) s = .next (after s w))) ∧
  (let v := wearAccrue u
    let n := (v.gl.power.slot + 1) % 97
    let w := modPower v fun x => { x with
      expired := (if inSprint v then x.expired + x.slots.getD n 0 else 0), slots := x.slots.set n 0, slot := n,
      slotAt := x.slotAt + 900000000000 }
    u.gl.power.slotAt + 900000000000 ≤ u.now → exec (.wearSlotChange t) s = .next (after s (flashDue w (.wear w.gl.power.slots w.gl.power.slot)))) ∧
  (u.ce.decayAt + rf u rHlCtrl 0 15 0 * 225000000000 ≤ u.now → exec (.healthDecay t) s = .next (after s ((List.range 60).foldl (fun s n => healthNote s n 0)
    (modCe u fun c => { c with decayAt := u.now, penalty := c.penalty.map fun x => (x.1, x.2 * 957603 / 1000000) })))) ∧
  (∀ die sensor temp : Nat, 115 ≤ temp → u.gl.pins.contains 0 = false →
    let w := flashDue (if inSprint u then ratePoint u false else u) (.trip die sensor temp)
    exec (.thermalTrip t die ⟨sensor, temp⟩) s = .next (after s (modGlobal (wf { w with mem := [] } rGlStatus 0 0 0 0) fun g =>
      { g with phase := 3, pins := addSorted 0 g.pins })))

/-- Resets and errors (R19, R20, R30, R173, R400, R402, R422, R423, R426–R429, R434, R435, R441, R442): what begins a cold or a warm
reset, what leaves the block without power or clock, when it is ready, and the timers of a closing Shutter. It rests on the model's
choices of log entries 9, 77, 78. -/
def Obligations.ResetRowsComplete : Prop :=
  ∀ (s : State) (t : Nat),
  let u := tick s t
  let warm (v : State) (code : Nat) : State :=
    let a := timeSet (if shutter v = 1 then raiseDev (wf v rGlStatus 0 2 1 0) evShutterChanged 0 0 0 else v) 0
    let b := warmDevice (warmCell (warmFabric (warmTransfers (warmSteps (warmHost a)))))
    let d := bump (wf (wf (wf (wf b rGlStatus 0 0 0 0) rGlStatus 0 3 3 0) rGlResetCause 0 3 0 4) rGlResetCause 0 11 4 code)
      rGlResetCause 0 27 12 1
    let e := modGlobal d fun g => { g with
      phase := 1, warm := true, resetAt := d.now, fatals := d.now :: g.fatals
      sleep := { g.sleep with gated := unitKeys, waking := [], pllIdle := [(0, d.now), (1, d.now)], plls := [], pllWake := [] } }
    (List.range 24).foldl (fun s n => if rbit s rEpCtrl n 0 then trainStart s n else s) (uartReset (modTime e fun t => { t with refLoss := false }))
  (exec (.powerOnReset t) s = .next (after s (coldBegin u 0))) ∧
  (exec (.perstAssert t) s = .next (after s (coldBegin (modGlobal u fun g => { g with perst := true, hp := .down }) 1))) ∧
  (exec (.tapInstructionExit t) s = .next (after s (coldBegin u 2))) ∧
  (
    let w := modGlobal u fun g => { g with perst := false }
    exec (.hpPerstDeassert t true) s = .next (after s (linkSet (modGlobal w fun g => { g with hp := .training }) 0 1)) ∧
    exec (.hpPerstDeassert t false) s = .next (after s w)) ∧
  (∀ code : Nat, u.gl.phase = 2 → rbit u rGlStatus 0 5 = false →
    exec (.fatalInternalError t code) s = .next (after s (warm u code)) ∧
    exec (.watchdogTimeout t) s = .next (after s (warm u 4))) ∧
  (u.gl.phase = 2 → rbit u rGlStatus 0 5 = true → ∀ code : Nat,
    exec (.fatalInternalError t code) s = .next (after s (modGlobal (wf u rGlStatus 0 0 0 0) fun g => { g with phase := 3 }))) ∧
  (∀ n ns retried : Nat, s.gl.phase = 2 → rf u rGlD2dStatus n 7 5 = 2 ∨ rf u rGlD2dStatus n 7 5 = 3 →
    let was := rf u rGlD2dStatus n 47 16
    let w := bump u rGlD2dStatus n 47 16 retried
    let k := (was + retried) / 1024 - was / 1024
    let x := if k = 0 then w else penalise_ w (d2dDie n) k
    (ns < 100000 → exec (.d2dLinkStall t n ns retried) s = .next (after s x)) ∧
    (100000 ≤ ns → x.gl.phase = 2 → rbit x rGlStatus 0 5 = false → exec (.d2dLinkStall t n ns retried) s = .next (after s (warm x 1)))) ∧
  (exec (.refClockLoss t) s = .next (after s
    (modGlobal (wf (wf u rGlStatus 0 3 3 1) rGlStatus 0 0 0 0) fun g => { g with phase := 3 }))) ∧
  (rbit u rGlStatus 0 3 = true → u.gl.pins.contains 0 = false → u.pg.tableBuilt = true →
    exec (.refClockReturn t) s = .next (after s (warmBegin u 5 0))) ∧
  (rbit u rGlStatus 0 3 = true → u.gl.pins.contains 0 = false → u.pg.tableBuilt = false →
    exec (.refClockReturn t) s = .next (after s (coldBegin u (rf u rGlResetCause 0 3 0)))) ∧
  (∀ rail : Nat, rail < 8 → exec (.railFault t rail) s = .next (after s (wf (coldBegin u 0) rGlStatus 0 (16 + rail) (16 + rail) 1))) ∧
  (∀ d : Nat,
    let w := tamperActive (modSec u fun x => { x with conditions := addSorted d x.conditions })
    (rbit w rScTamperCtrl 0 d = false → exec (.tamperTrip t d) s = .next (after s w)) ∧
    (rbit w rScTamperCtrl 0 d = true →
      let x := wrReg w rScTamper 0 0 (word ((rdReg w rScTamper 0 0).toNat ||| 2 ^ d))
      let y := modSec (closeSessions (dbWipe (bump x rScTamper 0 31 16 1))) fun x => { x with deadbolt := false }
      exec (.tamperTrip t d) s = .next (after s
        (if (rbit y rScTamperCtrl 0 (4 + d) && !rbit w rScTamper 0 d) then tamperReset y else y)))) ∧
  (∀ d : Nat, exec (.tamperConditionClear t d) s = .next (after s
    (tamperSettle (tamperActive (modSec u fun x => { x with conditions := x.conditions.filter (· != d) }))))) ∧
  (∀ b : BringUp, u.gl.phase = 1 → ((List.range 24).any fun n => portWaits u n) = false →
    let v := (List.range 21).foldl (fun s n => d2dTrained s n (b.d2d.getD n 0)) (wf u rGlStatus 0 4 4 0)
    let w := (List.range 24).foldl (fun s k => stackTrained s k (b.trained.getD k ⟨2, 0, 0, 0, 0⟩)) v
    let x := if w.gl.warm then warmReady w b else coldReady w b
    x.gl.phase ≠ 3 →
    let y := wf (wf x rGlReadyTime 0 31 0 (sat 32 ((x.now - x.gl.resetAt) / 1000))) rGlStatus 0 0 0 1
    exec (.ready t b) s = .next (after s ((List.range 24).foldl (fun s n =>
      if rbit s rEpCtrl n 0 ∧ rf s rEpStatus n 1 0 = 0 then trainStart s n else s)
      (uartReady (modGlobal y fun g => { g with phase := 2 }) (if y.gl.warm then 1 else 2) b.uartRx)))) ∧
  (s.gl.phase = 2 → shutter u = 1 →
    (u.gl.close.drained = false → u.gl.close.drainAt ≤ u.now →
      exec (.shutterDrainExpiry t) s = .next (after s (modClose u fun x => { x with drained := true }))) ∧
    (u.gl.close.step = 5 → u.gl.close.step5At + 10000000 ≤ u.now →
      exec (.shutterQpDrainTimeout t) s = .next (after s
        ((tkeys u.fab.qps fun q => q.ctx != 0 && q.st == 2).foldl (fun s n => qpError s n 0) u))) ∧
    (u.gl.close.step = 7 → egressEmpty u = true ∨ u.gl.close.step7At + 8000000 ≤ u.now →
      let c := u.gl.close
      let a := modMt u fun m => { m with drr := m.drr.map fun kv => (kv.1, { kv.2 with queue := [] }) }
      let b := a.fab.txs.foldl (fun s t => dropTx s t.id) a
      let d := wf (wf (wf b rGlStatus 0 2 1 0) rGlShutter 0 39 21 c.handed) rGlShutter 0 58 40 c.released
      let e := modClose d fun x => { x with step := 8, cmds := [] }
      exec (.shutterEgressDrained t) s = .next (after s (raiseDev
        (c.cmds.foldl (fun s id => finish s id sOk 0 c.handed c.released) e) evShutterChanged 0 0 0))))

/-- SPDM requests (R395, R396): while the responder is on and the deadbolt holds, each is answered; inside a session the owner may
stage and install link keys. It rests on the model's choices of log entries 9, 86, 91. -/
def Obligations.SecurityRowsComplete : Prop :=
  ∀ (s : State) (t bus : Nat), s.gl.phase = 2 →
  let u := tick s t
  spdmOn u = true → u.gl.sec.deadbolt = true →
  (exec (.getVersion t bus) s = .next (after s (spdmOut u bus .version))) ∧
  (exec (.getCapabilities t bus) s = .next (after s (spdmOut u bus .capabilities))) ∧
  (exec (.negotiateAlgorithms t bus) s = .next (after s (spdmOut u bus .algorithms))) ∧
  (exec (.getDigests t bus) s = .next (after s (spdmOut u bus (.digests (Config.sha384 (certChain u)))))) ∧
  (exec (.getCertificate t bus) s = .next (after s (spdmOut u bus (.certificate (certChain u))))) ∧
  (∀ nonce : List Byte,
    let w := bump u rScSpdmCnt 0 31 16 1
    exec (.challenge t bus nonce) s = .next (after s (spdmOut w bus (.challengeAuth (Config.ecdsaSign (certChain u ++ nonce)))))) ∧
  (∀ (block : Nat) (nonce : List Byte), 1 ≤ block → block ≤ 5 →
    exec (.getMeasurements t bus block nonce) s = .next (after s
      (spdmOut u bus (.measurements [(block, measurement u block)] (Config.ecdsaSign (measurement u block ++ nonce)))))) ∧
  (∀ (owner : Bool) (share : List Byte), u.gl.sec.sessions.length < 4 →
    let id := u.gl.sec.sessCtr
    let v := modSec u fun x => { x with sessCtr := id + 1, sessions := tput x.sessions id ⟨false, owner, 0⟩ }
    let w := wf v rScSpdmCnt 0 2 0 v.gl.sec.sessions.length
    exec (.keyExchange t bus owner share) s = .next (after s
      (spdmOut (bump w rScSpdmCnt 0 31 16 1) bus (.keyExchangeRsp id (Config.ecdsaSign (certChain w ++ share)))))) ∧
  (∀ (owner : Bool) (share : List Byte), 4 ≤ u.gl.sec.sessions.length →
    exec (.keyExchange t bus owner share) s = .next (after s (spdmOut u bus (.error .busy)))) ∧
  (∀ (id : Nat) (x : SpdmSess), tget u.gl.sec.sessions id = some x →
    (x.finished = false → exec (.finish t bus id) s = .next (after s (spdmOut (setSession u id { x with finished := true }) bus .finishRsp))) ∧
    (x.finished = true →
      (exec (.keyUpdate t bus id) s = .next (after s (spdmOut (setSession u id { x with keys := x.keys + 1 }) bus .keyUpdateAck))) ∧
      (exec (.heartbeat t bus id) s = .next (after s (spdmOut u bus .heartbeatAck))) ∧
      (
        let w := modSec u fun y => { y with sessions := tdel y.sessions id }
        exec (.endSession t bus id) s = .next (after s
          (spdmOut (wf w rScSpdmCnt 0 2 0 w.gl.sec.sessions.length) bus .endSessionAck))) ∧
      (∀ group phase key : Nat, x.owner = true → groupOk u group = true → phase < 2 → phase ≠ rf u rScKeyStatus 0 18 18 →
        let w := modFab u fun f => { f with keys := { f.keys with
          keys := tput f.keys.keys phase key, newest := some phase, newSeen := none
          seenPhase := if f.keys.seenPhase = some phase then none else f.keys.seenPhase } }
        exec (.linkKeyStage t bus id group phase key) s = .next (after s
          (spdmOut (keyFlags (wf w rScKeyStatus 0 15 0 group)) bus .vendorOk))) ∧
      (∀ group : Nat, x.owner = true → groupOk u group = true →
        let p := 1 - rf u rScKeyStatus 0 18 18
        thas u.fab.keys.keys p = true →
        let w := modFab (wf u rScKeyStatus 0 18 18 p) fun f => { f with ports := f.ports.map fun y =>
          (y.1, { y.2 with counter := y.2.counter.set p 0 }) }
        exec (.linkKeyInstall t bus id group) s = .next (after s
          (spdmOut ((List.range 24).foldl (fun s n => wf s rEpStatus n 9 9 p) w) bus .vendorOk)))))

/-- Packets of queue pairs that arrive (R243–R260): data that a queue pair takes is placed and acknowledged, a request waits for its
turn, and responses, acknowledgements and NAKs act on the message they name. It rests on the model's choices of log entries 12, 15. -/
def Obligations.QueuePairPacketsComplete : Prop :=
  ∀ (s v : State) (t port : Nat) (fr : List Byte) (p : Pkt) (q : Qp), s.gl.phase = 2 →
  receive (tick s t) port fr (rxCtx (tick s t) 0) = (some p, v) →
  qpOf v p.qp = some q →
  let n := p.qp
  let seen := qpSeen v p
  let mine := serving v = true ∧ (q.st = 1 ∨ q.st = 2) ∧ p.src = q.remoteEp ∧ msnPlace q p.msn = 1
  let turn := fun w : State => runTurn (updQp w n fun q => { q with held := q.held ++ [p] }) n 4096
  (∀ w : Win, mine → p.winIdx ≠ 0 → p.winIdx < 262144 → winOf v p.winIdx = some w → w.live = true → w.gen = p.winGen →
    winCheck q n w p = none →
    (∀ slot : Nat, slot = ((trackOf v n p.msn).map (·.slot)).getD q.rxNext → wholeMsg p = true ∨ trackOf v n p.msn ≠ none →
      (p.type = ptWrite → exec (.rxWrite t port fr) s = .next (after s
        (acceptData seen n q p (w.base + bits p.opWord 31 0) (slot % 2 ^ q.rxLog) w.sink.isNone))) ∧
      (p.type = ptWriteImm → n < 512 ∨ cqRoom q = true → exec (.rxWriteImm t port fr) s = .next (after s
        (acceptData seen n q p (w.base + bits p.opWord 31 0) (slot % 2 ^ q.rxLog) w.sink.isNone)))) ∧
    (p.type = ptReadReq → q.held.all (·.msn != p.msn) = true → exec (.rxReadReq t port fr) s = .next (after s (turn seen))) ∧
    (p.type = ptAtomicReq → bit p.opWord 47 = false → q.held.all (·.msn != p.msn) = true →
      exec (.atomicReq t port fr) s = .next (after s (turn (sendAck seen q.remoteQp p))))) ∧
  (mine → p.type = ptFlushReq → q.held.all (·.msn != p.msn) = true →
    exec (.flushReq t port fr) s = .next (after s (turn seen))) ∧
  (∀ x : Track, p.type = ptReadResp →
    v.fab.tracks.find? (fun t => t.qp == p.qp && t.msn == p.msn && t.type == ptReadResp && t.src == p.src) = some x →
    let a := ((v.fab.txs.filter fun x => x.qp == some p.qp && x.pkt.msn == p.msn && x.pkt.type == ptReadReq).map (·.id)).foldl dropTx v
    let b := placeGrains a x p true
    let d := sendAck b.1 q.remoteQp p
    exec (.readResp t port fr) s = .next (after s
      (if b.2.count = b.2.length then finishMsg (modFab d fun f => { f with
          tracks := f.tracks.filter fun x => !(x.qp == p.qp && x.msn == p.msn && x.type == ptReadResp) }) p.qp p.msn
       else modFab d fun f => { f with tracks := f.tracks.map fun x =>
          if x.qp == p.qp && x.msn == p.msn && x.type == ptReadResp then b.2 else x }))) ∧
  (∀ m : TxMsg, p.type = ptAtomicResp → n ≠ 0 → v.fab.msgs.find? (fun m => m.qp == p.qp && m.msn == p.msn && m.kind == 2) = some m →
    p.src = q.remoteEp → bits p.opWord 15 0 = sOk →
    let w := touchSpan (wrMem (sendAck v q.remoteQp p) m.base p.payload) q.ctx (m.base, p.payload.length)
    let a := updWr w p.qp m.wrNo fun r => { r with old := leAt p.payload 0 8 }
    exec (.atomicResp t port fr) s = .next (after s (finishMsg a p.qp p.msn))) ∧
  (p.type = ptFlushResp → (v.fab.msgs.any fun m => m.qp == p.qp && m.msn == p.msn && m.kind == 3) = true → bits p.opWord 15 0 = sOk →
    exec (.flushResp t port fr) s = .next (after s (finishMsg v p.qp p.msn))) ∧
  (∀ (x : TxPkt) (rest : List TxPkt), p.type = ptAck → n ≠ 0 →
    matchTx v p.src (some p.qp) (p.winIdx == 1) p.msn p.offset p.length = x :: rest →
    let resp := p.winIdx == 1
    let a := onAck v p.src x.path (bits p.opWord 31 0) (((x :: rest).map (·.bytes)).foldl (· + ·) 0)
    let b := (x :: rest).foldl (fun s t =>
      if keptForResponse t then updTx s t.id fun t => { t with bytes := 0, busy := false }
      else modFab s fun f => { f with txs := f.txs.filter (·.id != t.id) }) a
    let d := modFab (flushNew (flushDest b p.src)) fun f => { f with msgs := f.msgs.map fun m =>
      if m.qp == n && m.msn == p.msn && (m.kind == 4) == resp then { m with lastBusy := false } else m }
    ∀ m : TxMsg, d.fab.msgs.find? (fun m => m.qp == n && m.msn == p.msn && (m.kind == 4) == resp) = some m → m.kind = 0 →
      exec (.ack t port fr) s = .next (after s
        (if (d.fab.txs.any fun t => t.qp == some n && t.pkt.msn == p.msn && (t.pkt.type == ptReadResp) == resp) then d
         else finishMsg d n p.msn))) ∧
  (∀ x : TxPkt, p.type = ptNak → v.fab.txs.find? (fun t =>
      t.pkt.dst == p.src && t.qp == some p.qp && t.pkt.msn == p.msn && t.pkt.offset == p.offset && t.st == 2 &&
        (t.pkt.type == ptReadResp) == (p.winIdx == 1)) = some x →
    (bits p.opWord 15 0 ≠ sPending →
      exec (.nak t port fr) s = .next (after s (failMsg v p.qp p.msn (bits p.opWord 15 0) (bits p.opWord 23 16)))) ∧
    (bits p.opWord 15 0 = sPending →
      let w := updTx v x.id fun t => { t with busy := true, busyAt := v.now + bits p.opWord 39 24 * 1000 }
      exec (.nak t port fr) s = .next (after s (modFab w fun f => { f with msgs := f.msgs.map fun m =>
        if m.qp == p.qp && m.msn == p.msn then { m with lastBusy := true } else m }))))

/-- A message that a queue pair receives into a slot of its receive ring (R253, R254): each packet is placed and acknowledged. It
rests on the model's choices of log entry 12. -/
def Obligations.SendPacketsComplete : Prop :=
  ∀ (s v : State) (t port c : Nat) (fr : List Byte) (p : Pkt) (q : Qp), s.gl.phase = 2 →
  receive (tick s t) port fr (rxCtx (tick s t) c) = (some p, v) → qpOf v p.qp = some q → p.type = ptSend → 512 ≤ p.qp →
  serving v = true → q.st = 1 ∨ q.st = 2 → p.src = q.remoteEp → msnPlace q p.msn = 1 → q.rx.2 ≠ 0 → q.rx.1 ≠ 0 →
  p.length ≤ 2 ^ q.slotLog → wholeMsg p = true → trackOf v p.qp p.msn = none → sub32 q.rxNext q.rxCi < 2 ^ q.rxLog → cqRoom q = true →
  let n := p.qp
  let x := updQp (qpSeen v p) n fun q => { q with rxNext := (q.rxNext + 1) % 2 ^ 32 }
  exec (.rxSend t port fr c) s = .next (after s
    (acceptData x n q p (q.rx.2 + (q.rxNext % 2 ^ q.rxLog) * 2 ^ q.slotLog) (q.rxNext % 2 ^ q.rxLog) true))

/-- Rack accesses and coherence messages that arrive (R212, R220–R222, R226, R230): one in the window is acknowledged and waits for
its turn, an answer ends the access it names. It rests on the model's choices of log entries 12, 19. -/
def Obligations.AccessPacketsComplete : Prop :=
  ∀ (s v : State) (t port : Nat) (fr : List Byte) (p : Pkt), s.gl.phase = 2 →
  receive (tick s t) port fr (rxCtx (tick s t) 0) = (some p, v) →
  let ack := fun w : State => if p.payload.isEmpty then w else
    sendPlain w 0 (mkPkt w ptAck 0 p.src 0 p.msn 0 p.payload.length 0 0 (p.sendTs + p.entropy * 2 ^ 32 + 2 ^ 48) [])
  (∀ (i : Instr) (arg : CohArg),
    (i = .loadReq t port fr ∧ p.type = ptLoadReq ∧ arg = ⟨0, false, false⟩) ∨
    (i = .store t port fr ∧ p.type = ptStore ∧ arg = ⟨0, false, false⟩) ∨
    (i = .atomicReq t port fr ∧ p.type = ptAtomicReq ∧ bit p.opWord 47 = true ∧ arg = ⟨0, false, false⟩) ∨
    (p.type = ptCoherence ∧ (bits p.opWord 47 44, i) ∈ ([(cGetS, .getS t port fr arg), (cGetM, .getM t port fr arg),
      (cPutM, .putM t port fr arg), (cPutClean, .putClean t port fr arg), (cInv, .inv t port fr arg), (cFwdS, .fwdS t port fr arg),
      (cFwdM, .fwdM t port fr arg), (cData, .coherenceData t port fr arg), (cAck, .coherenceAck t port fr arg)] : List (Nat × Instr))) →
    serving v = true → rbit v rFlCtrl 0 0 = true →
    (∀ w : AccWin, accWin v p.src = some w → (p.msn ≠ 0 ∨ p.retx = true) → (p.msn + 2 ^ 24 - w.expect) % 2 ^ 24 ≤ 255 →
      exec i s = .next (after s (accTurn (ack (setAccWin v p.src { w with
        held := if w.held.any (·.msn == p.msn) then w.held else w.held ++ [p] })) p.src arg 512))) ∧
    (p.msn = 0 → p.retx = false →
      exec i s = .next (after s (accTurn (ack (setAccWin (bump v rFlSeqCnt 0 31 16 1) p.src ⟨0, [p], []⟩)) p.src arg 512)))) ∧
  (∀ (i : Instr) (a : RackAcc), (p.type, i) ∈ ([(ptLoadResp, .loadResp t port fr), (ptStoreResp, .storeResp t port fr)] : List (Nat × Instr)) →
    (accSeq v p.src).out.find? (fun a => a.msn == p.msn && respType a.pkt.type == p.type) = some a → a.kind ≠ 2 →
    bits p.opWord 15 0 ≠ sTargetDead →
    let w := ack v
    let x := ((w.fab.txs.filter fun t => t.qp.isNone && t.pkt.dst == p.src && t.pkt.msn == p.msn && t.pkt.type == a.pkt.type).map
      (·.id)).foldl dropTx w
    let y := setAccSeq x p.src { accSeq v p.src with out := (accSeq v p.src).out.filter (·.msn != a.msn) }
    exec i s = .next (after s (refillSeq
      (accDone y a (bits p.opWord 15 0) (bits p.opWord 23 16) (bits p.opWord 43 24) p.payload (bit p.opWord 44)) p.src 256)))

/-- Relaying, egress, panes and device time (R100–R105, R190, R197, R200, R201, R326, R327, R377). It rests on the model's choices of
log entries 9, 12, 14, 50, 94. -/
def Obligations.FabricRowsComplete : Prop :=
  ∀ (s : State) (t : Nat), s.gl.phase = 2 →
  let u := tick s t
  (∀ (port : Nat) (fr : List Byte) (f : Frame0) (v w : State) (r : Word), port < 24 → rbit u rEpSelf 0 20 = true → portUp u port = true →
    recvFrame u port fr = (some f, v) → lifeCheck v port f.pkt = (true, w) → f.pkt.dst ≠ self w → routeOf w f.pkt.dst = some r →
    f.pkt.hopTtl ≠ 0 →
    let ups := (List.range 24).filter fun n => wbit r (25 + n) && portUp w n
    ups ≠ [] →
    let out := ups.getD (f.pkt.entropy % ups.length) 0
    exec (.relayForward t port fr) s = .next (after s (setDrr w out { drr w out with queue := (drr w out).queue ++
      [⟨f.pkt.tc, 0, 8 + 8 * cdiv (bits (w64At fr 0) 20 8) 8, { f.pkt with hopTtl := f.pkt.hopTtl - 1 }, none, some (hopDown fr)⟩] }))) ∧
  (∀ (port k : Nat) (d : DrrS), port < 24 → portUp u port = true →
    (portEnc u port = true → thas u.fab.keys.keys (rf u rScKeyStatus 0 18 18) = true ∧
      (tgetD u.fab.ports port ⟨0, [], 0, true, [0, 0], 0⟩).counter.getD (rf u rScKeyStatus 0 18 18) 0 < 2 ^ 59) →
    nextClass u port = (some k, d) →
    (∀ (x : WireOut) (rest : List WireOut), (takeEgress u port k d).fab.wire = x :: rest → x.pkt.retx = false) →
    exec (.egressNextFrame t port) s = .next (after s (takeEgress u port k d))) ∧
  (∀ (src : Nat) (req : List Byte) (x : PaneArg), paneCheck u req x = none →
    let p := paneReqOf req
    let ps := if p.degraded then [] else panePages u p
    let v := ps.foldl notePage u
    let n := (ps.filter (holdDown u [])).length + b2n x.tierBad
    let w := if n = 0 then v else bump v rMcTierCnt p.ctx 63 32 n
    let wait := ps.filter fun h => (paneCopy x.copies h).isNone && (localFrame w h.entry).isSome
    let y := wakeForPane w (wait.filterMap fun h => (localFrame w h.entry).map frameStack).eraseDups
    let id := y.st.jobCtr
    exec (.paneRequest t src req x) s = .next (after s (jobTry (modSt y fun t => { t with
      jobs := t.jobs ++ [⟨id, src, req, x.geo.kvHeads, x.split, x.scales, ps, wait, [], x.copies, [], false, y.now⟩]
      jobCtr := id + 1 }) id))) ∧
  (∀ (id te : Nat) (j : PaneJob), u.st.jobs.find? (fun j => j.id == id) = some j → j.queued = true →
    (u.mt.work.any fun w => w.stage == paneMark && w.step == id) = false →
    exec (.paneComputed t id te) s = .next (after s (paneAnswer u j te))) ∧
  (∀ (port : Nat) (fr : List Byte) (p : Pkt) (v : State), receive u port fr (rxCtx u 0) = (some p, v) →
    (p.type = ptTimeSync → isMgr v = false → p.src = mgrEp v →
      exec (.timeSync t port fr) s = .next (after s (timeSend (modTime v fun t =>
        { t with t1 := p.opWord, t2 := v.now, t3 := v.now, waiting := true }) ptTimeReq p.src v.now))) ∧
    (p.type = ptTimeReq → isMgr v = true → timeState v = 2 →
      exec (.timeDelayReq t port fr) s = .next (after s (timeSend v ptTimeResp p.src v.now))) ∧
    (p.type = ptTimeResp → isMgr v = false → p.src = mgrEp v → v.fab.time.waiting = true →
      let m := v.fab.time
      let fwd : Int := (m.t2 : Int) - m.t1
      let back : Int := (p.opWord : Int) - m.t3
      let delay := (fwd + back) / 2
      let w := (fresh v).2
      let x := modTime w fun t => { t with waiting := false, delays := (delay :: t.delays).take 16 }
      exec (.timeDelayResp t port fr) s = .next (after s
        (if delay > m.delays.foldl min delay + 200 then x else timeSample x ((fwd - back + ((fresh v).1.toNat % 2 : Nat)) / 2))))) ∧
  ((∀ a, u.fab.time.exchAt = some a → a + rf u rEpTimeCtrl 0 15 0 * 1000 ≤ u.now) →
    let w := modTime u fun t => { t with exchAt := some u.now }
    (isMgr u = true → timeState u = 2 → exec (.timeExchangeTimer t) s = .next (after s
      (((tkeys w.ce.members fun _ => true).filter (· != self w)).foldl (fun s d => timeSend s ptTimeSync d s.now) w))) ∧
    (isMgr u = false → exec (.timeExchangeTimer t) s = .next (after s (modTime w fun t => { t with waiting := true })))) ∧
  (isMgr u = false → timeState u = 2 → u.fab.time.lastSample + 16 * rf u rEpTimeCtrl 0 15 0 * 1000 ≤ u.now →
    exec (.holdoverEntry t) s = .next (after s (timeSet u 3))) ∧
  (timeState u = 3 → u.fab.time.holdAt + 10000000000 ≤ u.now → exec (.holdoverLimit t) s = .next (after s (timeSet u 1))) ∧
  (
    let v := raiseEdge u irqPps
    isMgr v = true → v.gl.phase = 2 → rbit v rEpTimeCtrl 0 16 = true →
    let w := (fresh v).2
    let up := w.now % 1000000000 > 500000000 || (w.now % 1000000000 == 500000000 && (fresh v).1.toNat % 2 == 1)
    exec (.ppsInEdge t) s = .next (after s
      (if w.fab.time.locked = true ∨ timeState w = 2 ∨ (w.gl.warm = true ∧ w.fab.time.refLoss = false) then
        steer w ((w.now % 1000000000 : Nat) - (b2n up * 1000000000 : Nat))
       else timeSet { w with now := (w.now / 1000000000 + b2n up) * 1000000000 } 2)))
end

