-- ==== Sys2Proof/Laws/Bits.lean ====
section
/-! SUPPORT. Fields of words: a field just set reads as the value set, and fields beside it keep theirs. -/
namespace Sys2Proof.Machine

/-- A word by the part above a field, the field and the part below it, once the field is set. -/
theorem setBits_eq (w hi lo v : Nat) : setBits w hi lo v =
    ((w / 2 ^ lo / 2 ^ (hi + 1 - lo)) * 2 ^ (hi + 1 - lo) + v % 2 ^ (hi + 1 - lo)) * 2 ^ lo + w % 2 ^ lo := by
  unfold setBits bits
  rw [Nat.shiftRight_eq_div_pow]
  generalize hi + 1 - lo = n
  have h1 := Nat.div_add_mod w (2 ^ lo)
  have h2 := Nat.div_add_mod (w / 2 ^ lo) (2 ^ n)
  generalize hq : w / 2 ^ lo = q at *
  generalize hm : w % 2 ^ lo = r at *
  generalize hq2 : q / 2 ^ n = a at *
  generalize hm2 : q % 2 ^ n = b at *
  subst h1
  subst h2
  have : 2 ^ lo * (2 ^ n * a + b) + r - b * 2 ^ lo = (a * 2 ^ n) * 2 ^ lo + r := by
    have : 2 ^ lo * (2 ^ n * a + b) + r = (a * 2 ^ n) * 2 ^ lo + r + b * 2 ^ lo := by ring
    omega
  rw [this]
  ring

/-- Setting a field of a 64-bit number keeps it one. -/
theorem setBits_lt (w hi lo v : Nat) (h : w < 2 ^ 64) (hhi : hi < 64) (hl : lo ≤ hi) : setBits w hi lo v < 2 ^ 64 := by
  rw [setBits_eq]
  generalize hn : hi + 1 - lo = n
  have hr := Nat.mod_lt w (Nat.two_pow_pos lo)
  have hv := Nat.mod_lt v (Nat.two_pow_pos n)
  have hk : 64 = (64 - lo - n) + n + lo := by omega
  have ha : w / 2 ^ lo / 2 ^ n < 2 ^ (64 - lo - n) := by
    rw [Nat.div_div_eq_div_mul, ← pow_add, Nat.div_lt_iff_lt_mul (Nat.two_pow_pos _), ← pow_add]
    exact lt_of_lt_of_eq h (congrArg _ (by omega))
  generalize w / 2 ^ lo / 2 ^ n = a at *
  generalize w % 2 ^ lo = r at *
  generalize v % 2 ^ n = u at *
  rw [hk, pow_add, pow_add]
  generalize 2 ^ (64 - lo - n) = A at *
  generalize 2 ^ n = B at *
  generalize 2 ^ lo = C at *
  have h1 : a * B + u + 1 ≤ A * B := by nlinarith
  nlinarith

/-- A field just set holds the value, cut to its width. -/
theorem bits_setBits (w hi lo v : Nat) : bits (setBits w hi lo v) hi lo = v % 2 ^ (hi + 1 - lo) := by
  rw [setBits_eq]
  unfold bits
  rw [Nat.shiftRight_eq_div_pow, Nat.mul_comm, Nat.mul_add_div (Nat.two_pow_pos lo), Nat.div_eq_of_lt (Nat.mod_lt _ (Nat.two_pow_pos lo)),
    Nat.add_zero, Nat.mul_add_mod_self_right, Nat.mod_mod]

/-- A field below the one set keeps its value. -/
theorem bits_setBits_below (w hi lo v hi' lo' : Nat) (h : hi' < lo) : bits (setBits w hi lo v) hi' lo' = bits w hi' lo' := by
  rw [setBits_eq]
  unfold bits
  simp only [Nat.shiftRight_eq_div_pow]
  by_cases hl : lo' ≤ hi'
  · have e : (2 : Nat) ^ lo = 2 ^ lo' * 2 ^ (hi' + 1 - lo') * 2 ^ (lo - (hi' + 1)) := by
      rw [← pow_add, ← pow_add]; congr 1; omega
    have key : ∀ x r : Nat, r = w % 2 ^ lo → (x * 2 ^ lo + r) / 2 ^ lo' % 2 ^ (hi' + 1 - lo') = w / 2 ^ lo' % 2 ^ (hi' + 1 - lo') := by
      intro x r hr
      have hw := Nat.div_add_mod w (2 ^ lo)
      rw [← hr] at hw
      have step : ∀ y : Nat, (y * 2 ^ lo + r) / 2 ^ lo' % 2 ^ (hi' + 1 - lo') = r / 2 ^ lo' % 2 ^ (hi' + 1 - lo') := by
        intro y
        have : y * 2 ^ lo + r = 2 ^ lo' * (y * 2 ^ (lo - (hi' + 1)) * 2 ^ (hi' + 1 - lo')) + r := by rw [e]; ring
        rw [this, Nat.mul_add_div (Nat.two_pow_pos _), Nat.mul_add_mod_self_right]
      rw [step x]
      conv_rhs => rw [← hw, Nat.mul_comm, step]
    exact key _ _ rfl
  · have : hi' + 1 - lo' = 0 := by omega
    simp [this, Nat.mod_one]

/-- A field above the one set keeps its value. -/
theorem bits_setBits_above (w hi lo v hi' lo' : Nat) (h : hi < lo') (hl : lo ≤ hi) : bits (setBits w hi lo v) hi' lo' = bits w hi' lo' := by
  rw [setBits_eq]
  unfold bits
  simp only [Nat.shiftRight_eq_div_pow]
  congr 1
  generalize hn : hi + 1 - lo = n
  have e : (2 : Nat) ^ lo' = 2 ^ lo * 2 ^ n * 2 ^ (lo' - lo - n) := by
    rw [← pow_add, ← pow_add]; congr 1; omega
  rw [e, ← Nat.div_div_eq_div_mul, ← Nat.div_div_eq_div_mul, ← Nat.div_div_eq_div_mul, ← Nat.div_div_eq_div_mul]
  congr 1
  have hr := Nat.mod_lt w (Nat.two_pow_pos lo)
  have hv := Nat.mod_lt v (Nat.two_pow_pos n)
  rw [Nat.mul_comm _ (2 ^ lo), Nat.mul_add_div (Nat.two_pow_pos lo), Nat.div_eq_of_lt hr, Nat.add_zero,
    Nat.mul_comm _ (2 ^ n), Nat.mul_add_div (Nat.two_pow_pos n), Nat.div_eq_of_lt hv, Nat.add_zero]

theorem setFld_toNat (w : Word) (hi lo v : Nat) (hhi : hi < 64) (hl : lo ≤ hi) : (setFld w hi lo v).toNat = setBits w.toNat hi lo v := by
  unfold setFld word
  rw [BitVec.toNat_ofNat]
  exact Nat.mod_eq_of_lt (setBits_lt _ _ _ _ w.isLt hhi hl)

/-- A field of a word just set. -/
theorem fld_setFld (w : Word) (hi lo v : Nat) (hhi : hi < 64) (hl : lo ≤ hi) : fld (setFld w hi lo v) hi lo = v % 2 ^ (hi + 1 - lo) := by
  rw [fld, setFld_toNat _ _ _ _ hhi hl, bits_setBits]

/-- A field of a word beside the one set. -/
theorem fld_setFld_other (w : Word) (hi lo v hi' lo' : Nat) (hhi : hi < 64) (hl : lo ≤ hi) (h : hi' < lo ∨ hi < lo') :
    fld (setFld w hi lo v) hi' lo' = fld w hi' lo' := by
  rw [fld, setFld_toNat _ _ _ _ hhi hl, fld]
  rcases h with h | h
  · exact bits_setBits_below _ _ _ _ _ _ h
  · exact bits_setBits_above _ _ _ _ _ _ h hl

/-- A flag beside the field set. -/
theorem wbit_setFld_other (w : Word) (hi lo v n : Nat) (hhi : hi < 64) (hl : lo ≤ hi) (h : n < lo ∨ hi < n) :
    wbit (setFld w hi lo v) n = wbit w n := by
  have := fld_setFld_other w hi lo v n n hhi hl h
  simp only [fld, bits, Nat.add_sub_cancel_left, pow_one] at this
  simp only [wbit, bit, this]

end Sys2Proof.Machine
end

