-- ==== Sys2Proof/Laws/State.lean ====
section
/-! SUPPORT. What each named update of the state does to each field: true by rfl, for simp. -/
namespace Sys2Proof.Machine

@[simp] theorem modHost_now (s : State) (f : HostS → HostS) : (modHost s f).now = s.now := rfl
@[simp] theorem modHost_regs (s : State) (f : HostS → HostS) : (modHost s f).regs = s.regs := rfl
@[simp] theorem modHost_mem (s : State) (f : HostS → HostS) : (modHost s f).mem = s.mem := rfl
@[simp] theorem modHost_freeCtr (s : State) (f : HostS → HostS) : (modHost s f).freeCtr = s.freeCtr := rfl
@[simp] theorem modHost_host (s : State) (f : HostS → HostS) : (modHost s f).host = f s.host := rfl
@[simp] theorem modHost_intr (s : State) (f : HostS → HostS) : (modHost s f).intr = s.intr := rfl
@[simp] theorem modHost_pg (s : State) (f : HostS → HostS) : (modHost s f).pg = s.pg := rfl
@[simp] theorem modHost_mt (s : State) (f : HostS → HostS) : (modHost s f).mt = s.mt := rfl
@[simp] theorem modHost_fab (s : State) (f : HostS → HostS) : (modHost s f).fab = s.fab := rfl
@[simp] theorem modHost_st (s : State) (f : HostS → HostS) : (modHost s f).st = s.st := rfl
@[simp] theorem modHost_ce (s : State) (f : HostS → HostS) : (modHost s f).ce = s.ce := rfl
@[simp] theorem modHost_gl (s : State) (f : HostS → HostS) : (modHost s f).gl = s.gl := rfl
@[simp] theorem modHost_pending (s : State) (f : HostS → HostS) : (modHost s f).pending = s.pending := rfl

@[simp] theorem modIntr_now (s : State) (f : IntrS → IntrS) : (modIntr s f).now = s.now := rfl
@[simp] theorem modIntr_regs (s : State) (f : IntrS → IntrS) : (modIntr s f).regs = s.regs := rfl
@[simp] theorem modIntr_mem (s : State) (f : IntrS → IntrS) : (modIntr s f).mem = s.mem := rfl
@[simp] theorem modIntr_freeCtr (s : State) (f : IntrS → IntrS) : (modIntr s f).freeCtr = s.freeCtr := rfl
@[simp] theorem modIntr_host (s : State) (f : IntrS → IntrS) : (modIntr s f).host = s.host := rfl
@[simp] theorem modIntr_intr (s : State) (f : IntrS → IntrS) : (modIntr s f).intr = f s.intr := rfl
@[simp] theorem modIntr_pg (s : State) (f : IntrS → IntrS) : (modIntr s f).pg = s.pg := rfl
@[simp] theorem modIntr_mt (s : State) (f : IntrS → IntrS) : (modIntr s f).mt = s.mt := rfl
@[simp] theorem modIntr_fab (s : State) (f : IntrS → IntrS) : (modIntr s f).fab = s.fab := rfl
@[simp] theorem modIntr_st (s : State) (f : IntrS → IntrS) : (modIntr s f).st = s.st := rfl
@[simp] theorem modIntr_ce (s : State) (f : IntrS → IntrS) : (modIntr s f).ce = s.ce := rfl
@[simp] theorem modIntr_gl (s : State) (f : IntrS → IntrS) : (modIntr s f).gl = s.gl := rfl
@[simp] theorem modIntr_pending (s : State) (f : IntrS → IntrS) : (modIntr s f).pending = s.pending := rfl

@[simp] theorem modPg_now (s : State) (f : PagesS → PagesS) : (modPg s f).now = s.now := rfl
@[simp] theorem modPg_regs (s : State) (f : PagesS → PagesS) : (modPg s f).regs = s.regs := rfl
@[simp] theorem modPg_mem (s : State) (f : PagesS → PagesS) : (modPg s f).mem = s.mem := rfl
@[simp] theorem modPg_freeCtr (s : State) (f : PagesS → PagesS) : (modPg s f).freeCtr = s.freeCtr := rfl
@[simp] theorem modPg_host (s : State) (f : PagesS → PagesS) : (modPg s f).host = s.host := rfl
@[simp] theorem modPg_intr (s : State) (f : PagesS → PagesS) : (modPg s f).intr = s.intr := rfl
@[simp] theorem modPg_pg (s : State) (f : PagesS → PagesS) : (modPg s f).pg = f s.pg := rfl
@[simp] theorem modPg_mt (s : State) (f : PagesS → PagesS) : (modPg s f).mt = s.mt := rfl
@[simp] theorem modPg_fab (s : State) (f : PagesS → PagesS) : (modPg s f).fab = s.fab := rfl
@[simp] theorem modPg_st (s : State) (f : PagesS → PagesS) : (modPg s f).st = s.st := rfl
@[simp] theorem modPg_ce (s : State) (f : PagesS → PagesS) : (modPg s f).ce = s.ce := rfl
@[simp] theorem modPg_gl (s : State) (f : PagesS → PagesS) : (modPg s f).gl = s.gl := rfl
@[simp] theorem modPg_pending (s : State) (f : PagesS → PagesS) : (modPg s f).pending = s.pending := rfl

@[simp] theorem modMt_now (s : State) (f : ShareS → ShareS) : (modMt s f).now = s.now := rfl
@[simp] theorem modMt_regs (s : State) (f : ShareS → ShareS) : (modMt s f).regs = s.regs := rfl
@[simp] theorem modMt_mem (s : State) (f : ShareS → ShareS) : (modMt s f).mem = s.mem := rfl
@[simp] theorem modMt_freeCtr (s : State) (f : ShareS → ShareS) : (modMt s f).freeCtr = s.freeCtr := rfl
@[simp] theorem modMt_host (s : State) (f : ShareS → ShareS) : (modMt s f).host = s.host := rfl
@[simp] theorem modMt_intr (s : State) (f : ShareS → ShareS) : (modMt s f).intr = s.intr := rfl
@[simp] theorem modMt_pg (s : State) (f : ShareS → ShareS) : (modMt s f).pg = s.pg := rfl
@[simp] theorem modMt_mt (s : State) (f : ShareS → ShareS) : (modMt s f).mt = f s.mt := rfl
@[simp] theorem modMt_fab (s : State) (f : ShareS → ShareS) : (modMt s f).fab = s.fab := rfl
@[simp] theorem modMt_st (s : State) (f : ShareS → ShareS) : (modMt s f).st = s.st := rfl
@[simp] theorem modMt_ce (s : State) (f : ShareS → ShareS) : (modMt s f).ce = s.ce := rfl
@[simp] theorem modMt_gl (s : State) (f : ShareS → ShareS) : (modMt s f).gl = s.gl := rfl
@[simp] theorem modMt_pending (s : State) (f : ShareS → ShareS) : (modMt s f).pending = s.pending := rfl

@[simp] theorem modFab_now (s : State) (f : FabS → FabS) : (modFab s f).now = s.now := rfl
@[simp] theorem modFab_regs (s : State) (f : FabS → FabS) : (modFab s f).regs = s.regs := rfl
@[simp] theorem modFab_mem (s : State) (f : FabS → FabS) : (modFab s f).mem = s.mem := rfl
@[simp] theorem modFab_freeCtr (s : State) (f : FabS → FabS) : (modFab s f).freeCtr = s.freeCtr := rfl
@[simp] theorem modFab_host (s : State) (f : FabS → FabS) : (modFab s f).host = s.host := rfl
@[simp] theorem modFab_intr (s : State) (f : FabS → FabS) : (modFab s f).intr = s.intr := rfl
@[simp] theorem modFab_pg (s : State) (f : FabS → FabS) : (modFab s f).pg = s.pg := rfl
@[simp] theorem modFab_mt (s : State) (f : FabS → FabS) : (modFab s f).mt = s.mt := rfl
@[simp] theorem modFab_fab (s : State) (f : FabS → FabS) : (modFab s f).fab = f s.fab := rfl
@[simp] theorem modFab_st (s : State) (f : FabS → FabS) : (modFab s f).st = s.st := rfl
@[simp] theorem modFab_ce (s : State) (f : FabS → FabS) : (modFab s f).ce = s.ce := rfl
@[simp] theorem modFab_gl (s : State) (f : FabS → FabS) : (modFab s f).gl = s.gl := rfl
@[simp] theorem modFab_pending (s : State) (f : FabS → FabS) : (modFab s f).pending = s.pending := rfl

@[simp] theorem modSt_now (s : State) (f : StepS → StepS) : (modSt s f).now = s.now := rfl
@[simp] theorem modSt_regs (s : State) (f : StepS → StepS) : (modSt s f).regs = s.regs := rfl
@[simp] theorem modSt_mem (s : State) (f : StepS → StepS) : (modSt s f).mem = s.mem := rfl
@[simp] theorem modSt_freeCtr (s : State) (f : StepS → StepS) : (modSt s f).freeCtr = s.freeCtr := rfl
@[simp] theorem modSt_host (s : State) (f : StepS → StepS) : (modSt s f).host = s.host := rfl
@[simp] theorem modSt_intr (s : State) (f : StepS → StepS) : (modSt s f).intr = s.intr := rfl
@[simp] theorem modSt_pg (s : State) (f : StepS → StepS) : (modSt s f).pg = s.pg := rfl
@[simp] theorem modSt_mt (s : State) (f : StepS → StepS) : (modSt s f).mt = s.mt := rfl
@[simp] theorem modSt_fab (s : State) (f : StepS → StepS) : (modSt s f).fab = s.fab := rfl
@[simp] theorem modSt_st (s : State) (f : StepS → StepS) : (modSt s f).st = f s.st := rfl
@[simp] theorem modSt_ce (s : State) (f : StepS → StepS) : (modSt s f).ce = s.ce := rfl
@[simp] theorem modSt_gl (s : State) (f : StepS → StepS) : (modSt s f).gl = s.gl := rfl
@[simp] theorem modSt_pending (s : State) (f : StepS → StepS) : (modSt s f).pending = s.pending := rfl

@[simp] theorem modCe_now (s : State) (f : CellS → CellS) : (modCe s f).now = s.now := rfl
@[simp] theorem modCe_regs (s : State) (f : CellS → CellS) : (modCe s f).regs = s.regs := rfl
@[simp] theorem modCe_mem (s : State) (f : CellS → CellS) : (modCe s f).mem = s.mem := rfl
@[simp] theorem modCe_freeCtr (s : State) (f : CellS → CellS) : (modCe s f).freeCtr = s.freeCtr := rfl
@[simp] theorem modCe_host (s : State) (f : CellS → CellS) : (modCe s f).host = s.host := rfl
@[simp] theorem modCe_intr (s : State) (f : CellS → CellS) : (modCe s f).intr = s.intr := rfl
@[simp] theorem modCe_pg (s : State) (f : CellS → CellS) : (modCe s f).pg = s.pg := rfl
@[simp] theorem modCe_mt (s : State) (f : CellS → CellS) : (modCe s f).mt = s.mt := rfl
@[simp] theorem modCe_fab (s : State) (f : CellS → CellS) : (modCe s f).fab = s.fab := rfl
@[simp] theorem modCe_st (s : State) (f : CellS → CellS) : (modCe s f).st = s.st := rfl
@[simp] theorem modCe_ce (s : State) (f : CellS → CellS) : (modCe s f).ce = f s.ce := rfl
@[simp] theorem modCe_gl (s : State) (f : CellS → CellS) : (modCe s f).gl = s.gl := rfl
@[simp] theorem modCe_pending (s : State) (f : CellS → CellS) : (modCe s f).pending = s.pending := rfl

@[simp] theorem modGl_now (s : State) (f : GlobalS → GlobalS) : (modGl s f).now = s.now := rfl
@[simp] theorem modGl_regs (s : State) (f : GlobalS → GlobalS) : (modGl s f).regs = s.regs := rfl
@[simp] theorem modGl_mem (s : State) (f : GlobalS → GlobalS) : (modGl s f).mem = s.mem := rfl
@[simp] theorem modGl_freeCtr (s : State) (f : GlobalS → GlobalS) : (modGl s f).freeCtr = s.freeCtr := rfl
@[simp] theorem modGl_host (s : State) (f : GlobalS → GlobalS) : (modGl s f).host = s.host := rfl
@[simp] theorem modGl_intr (s : State) (f : GlobalS → GlobalS) : (modGl s f).intr = s.intr := rfl
@[simp] theorem modGl_pg (s : State) (f : GlobalS → GlobalS) : (modGl s f).pg = s.pg := rfl
@[simp] theorem modGl_mt (s : State) (f : GlobalS → GlobalS) : (modGl s f).mt = s.mt := rfl
@[simp] theorem modGl_fab (s : State) (f : GlobalS → GlobalS) : (modGl s f).fab = s.fab := rfl
@[simp] theorem modGl_st (s : State) (f : GlobalS → GlobalS) : (modGl s f).st = s.st := rfl
@[simp] theorem modGl_ce (s : State) (f : GlobalS → GlobalS) : (modGl s f).ce = s.ce := rfl
@[simp] theorem modGl_gl (s : State) (f : GlobalS → GlobalS) : (modGl s f).gl = f s.gl := rfl
@[simp] theorem modGl_pending (s : State) (f : GlobalS → GlobalS) : (modGl s f).pending = s.pending := rfl

@[simp] theorem wrReg_now (s : State) (d : RegDesc) (i k : Nat) (w : Word) : (wrReg s d i k w).now = s.now := rfl
@[simp] theorem wrReg_mem (s : State) (d : RegDesc) (i k : Nat) (w : Word) : (wrReg s d i k w).mem = s.mem := rfl
@[simp] theorem wrReg_freeCtr (s : State) (d : RegDesc) (i k : Nat) (w : Word) : (wrReg s d i k w).freeCtr = s.freeCtr := rfl
@[simp] theorem wrReg_host (s : State) (d : RegDesc) (i k : Nat) (w : Word) : (wrReg s d i k w).host = s.host := rfl
@[simp] theorem wrReg_intr (s : State) (d : RegDesc) (i k : Nat) (w : Word) : (wrReg s d i k w).intr = s.intr := rfl
@[simp] theorem wrReg_pg (s : State) (d : RegDesc) (i k : Nat) (w : Word) : (wrReg s d i k w).pg = s.pg := rfl
@[simp] theorem wrReg_mt (s : State) (d : RegDesc) (i k : Nat) (w : Word) : (wrReg s d i k w).mt = s.mt := rfl
@[simp] theorem wrReg_fab (s : State) (d : RegDesc) (i k : Nat) (w : Word) : (wrReg s d i k w).fab = s.fab := rfl
@[simp] theorem wrReg_st (s : State) (d : RegDesc) (i k : Nat) (w : Word) : (wrReg s d i k w).st = s.st := rfl
@[simp] theorem wrReg_ce (s : State) (d : RegDesc) (i k : Nat) (w : Word) : (wrReg s d i k w).ce = s.ce := rfl
@[simp] theorem wrReg_gl (s : State) (d : RegDesc) (i k : Nat) (w : Word) : (wrReg s d i k w).gl = s.gl := rfl
@[simp] theorem wrReg_pending (s : State) (d : RegDesc) (i k : Nat) (w : Word) : (wrReg s d i k w).pending = s.pending := rfl

@[simp] theorem wf_now (s : State) (d : RegDesc) (i hi lo v : Nat) : (wf s d i hi lo v).now = s.now := rfl
@[simp] theorem wf_mem (s : State) (d : RegDesc) (i hi lo v : Nat) : (wf s d i hi lo v).mem = s.mem := rfl
@[simp] theorem wf_freeCtr (s : State) (d : RegDesc) (i hi lo v : Nat) : (wf s d i hi lo v).freeCtr = s.freeCtr := rfl
@[simp] theorem wf_host (s : State) (d : RegDesc) (i hi lo v : Nat) : (wf s d i hi lo v).host = s.host := rfl
@[simp] theorem wf_intr (s : State) (d : RegDesc) (i hi lo v : Nat) : (wf s d i hi lo v).intr = s.intr := rfl
@[simp] theorem wf_pg (s : State) (d : RegDesc) (i hi lo v : Nat) : (wf s d i hi lo v).pg = s.pg := rfl
@[simp] theorem wf_mt (s : State) (d : RegDesc) (i hi lo v : Nat) : (wf s d i hi lo v).mt = s.mt := rfl
@[simp] theorem wf_fab (s : State) (d : RegDesc) (i hi lo v : Nat) : (wf s d i hi lo v).fab = s.fab := rfl
@[simp] theorem wf_st (s : State) (d : RegDesc) (i hi lo v : Nat) : (wf s d i hi lo v).st = s.st := rfl
@[simp] theorem wf_ce (s : State) (d : RegDesc) (i hi lo v : Nat) : (wf s d i hi lo v).ce = s.ce := rfl
@[simp] theorem wf_gl (s : State) (d : RegDesc) (i hi lo v : Nat) : (wf s d i hi lo v).gl = s.gl := rfl
@[simp] theorem wf_pending (s : State) (d : RegDesc) (i hi lo v : Nat) : (wf s d i hi lo v).pending = s.pending := rfl

@[simp] theorem resetReg_now (s : State) (d : RegDesc) (i k : Nat) : (resetReg s d i k).now = s.now := rfl
@[simp] theorem resetReg_mem (s : State) (d : RegDesc) (i k : Nat) : (resetReg s d i k).mem = s.mem := rfl
@[simp] theorem resetReg_freeCtr (s : State) (d : RegDesc) (i k : Nat) : (resetReg s d i k).freeCtr = s.freeCtr := rfl
@[simp] theorem resetReg_host (s : State) (d : RegDesc) (i k : Nat) : (resetReg s d i k).host = s.host := rfl
@[simp] theorem resetReg_intr (s : State) (d : RegDesc) (i k : Nat) : (resetReg s d i k).intr = s.intr := rfl
@[simp] theorem resetReg_pg (s : State) (d : RegDesc) (i k : Nat) : (resetReg s d i k).pg = s.pg := rfl
@[simp] theorem resetReg_mt (s : State) (d : RegDesc) (i k : Nat) : (resetReg s d i k).mt = s.mt := rfl
@[simp] theorem resetReg_fab (s : State) (d : RegDesc) (i k : Nat) : (resetReg s d i k).fab = s.fab := rfl
@[simp] theorem resetReg_st (s : State) (d : RegDesc) (i k : Nat) : (resetReg s d i k).st = s.st := rfl
@[simp] theorem resetReg_ce (s : State) (d : RegDesc) (i k : Nat) : (resetReg s d i k).ce = s.ce := rfl
@[simp] theorem resetReg_gl (s : State) (d : RegDesc) (i k : Nat) : (resetReg s d i k).gl = s.gl := rfl
@[simp] theorem resetReg_pending (s : State) (d : RegDesc) (i k : Nat) : (resetReg s d i k).pending = s.pending := rfl

@[simp] theorem bump_now (s : State) (d : RegDesc) (i hi lo n : Nat) : (bump s d i hi lo n).now = s.now := rfl
@[simp] theorem bump_mem (s : State) (d : RegDesc) (i hi lo n : Nat) : (bump s d i hi lo n).mem = s.mem := rfl
@[simp] theorem bump_freeCtr (s : State) (d : RegDesc) (i hi lo n : Nat) : (bump s d i hi lo n).freeCtr = s.freeCtr := rfl
@[simp] theorem bump_host (s : State) (d : RegDesc) (i hi lo n : Nat) : (bump s d i hi lo n).host = s.host := rfl
@[simp] theorem bump_intr (s : State) (d : RegDesc) (i hi lo n : Nat) : (bump s d i hi lo n).intr = s.intr := rfl
@[simp] theorem bump_pg (s : State) (d : RegDesc) (i hi lo n : Nat) : (bump s d i hi lo n).pg = s.pg := rfl
@[simp] theorem bump_mt (s : State) (d : RegDesc) (i hi lo n : Nat) : (bump s d i hi lo n).mt = s.mt := rfl
@[simp] theorem bump_fab (s : State) (d : RegDesc) (i hi lo n : Nat) : (bump s d i hi lo n).fab = s.fab := rfl
@[simp] theorem bump_st (s : State) (d : RegDesc) (i hi lo n : Nat) : (bump s d i hi lo n).st = s.st := rfl
@[simp] theorem bump_ce (s : State) (d : RegDesc) (i hi lo n : Nat) : (bump s d i hi lo n).ce = s.ce := rfl
@[simp] theorem bump_gl (s : State) (d : RegDesc) (i hi lo n : Nat) : (bump s d i hi lo n).gl = s.gl := rfl
@[simp] theorem bump_pending (s : State) (d : RegDesc) (i hi lo n : Nat) : (bump s d i hi lo n).pending = s.pending := rfl

@[simp] theorem wrMem_now (s : State) (a : Nat) (bs : List Byte) : (wrMem s a bs).now = s.now := rfl
@[simp] theorem wrMem_regs (s : State) (a : Nat) (bs : List Byte) : (wrMem s a bs).regs = s.regs := rfl
@[simp] theorem wrMem_freeCtr (s : State) (a : Nat) (bs : List Byte) : (wrMem s a bs).freeCtr = s.freeCtr := rfl
@[simp] theorem wrMem_host (s : State) (a : Nat) (bs : List Byte) : (wrMem s a bs).host = s.host := rfl
@[simp] theorem wrMem_intr (s : State) (a : Nat) (bs : List Byte) : (wrMem s a bs).intr = s.intr := rfl
@[simp] theorem wrMem_pg (s : State) (a : Nat) (bs : List Byte) : (wrMem s a bs).pg = s.pg := rfl
@[simp] theorem wrMem_mt (s : State) (a : Nat) (bs : List Byte) : (wrMem s a bs).mt = s.mt := rfl
@[simp] theorem wrMem_fab (s : State) (a : Nat) (bs : List Byte) : (wrMem s a bs).fab = s.fab := rfl
@[simp] theorem wrMem_st (s : State) (a : Nat) (bs : List Byte) : (wrMem s a bs).st = s.st := rfl
@[simp] theorem wrMem_ce (s : State) (a : Nat) (bs : List Byte) : (wrMem s a bs).ce = s.ce := rfl
@[simp] theorem wrMem_gl (s : State) (a : Nat) (bs : List Byte) : (wrMem s a bs).gl = s.gl := rfl
@[simp] theorem wrMem_pending (s : State) (a : Nat) (bs : List Byte) : (wrMem s a bs).pending = s.pending := rfl

@[simp] theorem zeroMem_now (s : State) (a n : Nat) : (zeroMem s a n).now = s.now := rfl
@[simp] theorem zeroMem_regs (s : State) (a n : Nat) : (zeroMem s a n).regs = s.regs := rfl
@[simp] theorem zeroMem_freeCtr (s : State) (a n : Nat) : (zeroMem s a n).freeCtr = s.freeCtr := rfl
@[simp] theorem zeroMem_host (s : State) (a n : Nat) : (zeroMem s a n).host = s.host := rfl
@[simp] theorem zeroMem_intr (s : State) (a n : Nat) : (zeroMem s a n).intr = s.intr := rfl
@[simp] theorem zeroMem_pg (s : State) (a n : Nat) : (zeroMem s a n).pg = s.pg := rfl
@[simp] theorem zeroMem_mt (s : State) (a n : Nat) : (zeroMem s a n).mt = s.mt := rfl
@[simp] theorem zeroMem_fab (s : State) (a n : Nat) : (zeroMem s a n).fab = s.fab := rfl
@[simp] theorem zeroMem_st (s : State) (a n : Nat) : (zeroMem s a n).st = s.st := rfl
@[simp] theorem zeroMem_ce (s : State) (a n : Nat) : (zeroMem s a n).ce = s.ce := rfl
@[simp] theorem zeroMem_gl (s : State) (a n : Nat) : (zeroMem s a n).gl = s.gl := rfl
@[simp] theorem zeroMem_pending (s : State) (a n : Nat) : (zeroMem s a n).pending = s.pending := rfl

@[simp] theorem copyMem_now (s : State) (a b n : Nat) : (copyMem s a b n).now = s.now := rfl
@[simp] theorem copyMem_regs (s : State) (a b n : Nat) : (copyMem s a b n).regs = s.regs := rfl
@[simp] theorem copyMem_freeCtr (s : State) (a b n : Nat) : (copyMem s a b n).freeCtr = s.freeCtr := rfl
@[simp] theorem copyMem_host (s : State) (a b n : Nat) : (copyMem s a b n).host = s.host := rfl
@[simp] theorem copyMem_intr (s : State) (a b n : Nat) : (copyMem s a b n).intr = s.intr := rfl
@[simp] theorem copyMem_pg (s : State) (a b n : Nat) : (copyMem s a b n).pg = s.pg := rfl
@[simp] theorem copyMem_mt (s : State) (a b n : Nat) : (copyMem s a b n).mt = s.mt := rfl
@[simp] theorem copyMem_fab (s : State) (a b n : Nat) : (copyMem s a b n).fab = s.fab := rfl
@[simp] theorem copyMem_st (s : State) (a b n : Nat) : (copyMem s a b n).st = s.st := rfl
@[simp] theorem copyMem_ce (s : State) (a b n : Nat) : (copyMem s a b n).ce = s.ce := rfl
@[simp] theorem copyMem_gl (s : State) (a b n : Nat) : (copyMem s a b n).gl = s.gl := rfl
@[simp] theorem copyMem_pending (s : State) (a b n : Nat) : (copyMem s a b n).pending = s.pending := rfl

@[simp] theorem wrMem_mem (s : State) (a : Nat) (bs : List Byte) : (wrMem s a bs).mem = writeBytes s.mem a bs := rfl
@[simp] theorem zeroMem_mem (s : State) (a n : Nat) : (zeroMem s a n).mem = zeroBytes s.mem a n := rfl
@[simp] theorem wrReg_regs (s : State) (d : RegDesc) (i k : Nat) (w : Word) : (wrReg s d i k w).regs = tput s.regs (ra2 d i k) w := rfl
@[simp] theorem toHost_now (s : State) (o : HostOut) : (toHost s o).now = s.now := rfl
@[simp] theorem toHost_regs (s : State) (o : HostOut) : (toHost s o).regs = s.regs := rfl
@[simp] theorem toHost_mem (s : State) (o : HostOut) : (toHost s o).mem = s.mem := rfl
@[simp] theorem toHost_freeCtr (s : State) (o : HostOut) : (toHost s o).freeCtr = s.freeCtr := rfl
@[simp] theorem toHost_intr (s : State) (o : HostOut) : (toHost s o).intr = s.intr := rfl
@[simp] theorem toHost_pg (s : State) (o : HostOut) : (toHost s o).pg = s.pg := rfl
@[simp] theorem toHost_mt (s : State) (o : HostOut) : (toHost s o).mt = s.mt := rfl
@[simp] theorem toHost_fab (s : State) (o : HostOut) : (toHost s o).fab = s.fab := rfl
@[simp] theorem toHost_st (s : State) (o : HostOut) : (toHost s o).st = s.st := rfl
@[simp] theorem toHost_ce (s : State) (o : HostOut) : (toHost s o).ce = s.ce := rfl
@[simp] theorem toHost_gl (s : State) (o : HostOut) : (toHost s o).gl = s.gl := rfl
@[simp] theorem toHost_pending (s : State) (o : HostOut) : (toHost s o).pending = s.pending := rfl

@[simp] theorem setRing_now (s : State) (q : Nat) (r : RingS) : (setRing s q r).now = s.now := rfl
@[simp] theorem setRing_regs (s : State) (q : Nat) (r : RingS) : (setRing s q r).regs = s.regs := rfl
@[simp] theorem setRing_mem (s : State) (q : Nat) (r : RingS) : (setRing s q r).mem = s.mem := rfl
@[simp] theorem setRing_freeCtr (s : State) (q : Nat) (r : RingS) : (setRing s q r).freeCtr = s.freeCtr := rfl
@[simp] theorem setRing_intr (s : State) (q : Nat) (r : RingS) : (setRing s q r).intr = s.intr := rfl
@[simp] theorem setRing_pg (s : State) (q : Nat) (r : RingS) : (setRing s q r).pg = s.pg := rfl
@[simp] theorem setRing_mt (s : State) (q : Nat) (r : RingS) : (setRing s q r).mt = s.mt := rfl
@[simp] theorem setRing_fab (s : State) (q : Nat) (r : RingS) : (setRing s q r).fab = s.fab := rfl
@[simp] theorem setRing_st (s : State) (q : Nat) (r : RingS) : (setRing s q r).st = s.st := rfl
@[simp] theorem setRing_ce (s : State) (q : Nat) (r : RingS) : (setRing s q r).ce = s.ce := rfl
@[simp] theorem setRing_gl (s : State) (q : Nat) (r : RingS) : (setRing s q r).gl = s.gl := rfl
@[simp] theorem setRing_pending (s : State) (q : Nat) (r : RingS) : (setRing s q r).pending = s.pending := rfl

@[simp] theorem setEvq_now (s : State) (e : Nat) (q : EqS) : (setEvq s e q).now = s.now := rfl
@[simp] theorem setEvq_regs (s : State) (e : Nat) (q : EqS) : (setEvq s e q).regs = s.regs := rfl
@[simp] theorem setEvq_mem (s : State) (e : Nat) (q : EqS) : (setEvq s e q).mem = s.mem := rfl
@[simp] theorem setEvq_freeCtr (s : State) (e : Nat) (q : EqS) : (setEvq s e q).freeCtr = s.freeCtr := rfl
@[simp] theorem setEvq_intr (s : State) (e : Nat) (q : EqS) : (setEvq s e q).intr = s.intr := rfl
@[simp] theorem setEvq_pg (s : State) (e : Nat) (q : EqS) : (setEvq s e q).pg = s.pg := rfl
@[simp] theorem setEvq_mt (s : State) (e : Nat) (q : EqS) : (setEvq s e q).mt = s.mt := rfl
@[simp] theorem setEvq_fab (s : State) (e : Nat) (q : EqS) : (setEvq s e q).fab = s.fab := rfl
@[simp] theorem setEvq_st (s : State) (e : Nat) (q : EqS) : (setEvq s e q).st = s.st := rfl
@[simp] theorem setEvq_ce (s : State) (e : Nat) (q : EqS) : (setEvq s e q).ce = s.ce := rfl
@[simp] theorem setEvq_gl (s : State) (e : Nat) (q : EqS) : (setEvq s e q).gl = s.gl := rfl
@[simp] theorem setEvq_pending (s : State) (e : Nat) (q : EqS) : (setEvq s e q).pending = s.pending := rfl

@[simp] theorem countRequest_now (s : State) (v : Nat) : (countRequest s v).now = s.now := rfl
@[simp] theorem countRequest_regs (s : State) (v : Nat) : (countRequest s v).regs = s.regs := rfl
@[simp] theorem countRequest_mem (s : State) (v : Nat) : (countRequest s v).mem = s.mem := rfl
@[simp] theorem countRequest_freeCtr (s : State) (v : Nat) : (countRequest s v).freeCtr = s.freeCtr := rfl
@[simp] theorem countRequest_host (s : State) (v : Nat) : (countRequest s v).host = s.host := rfl
@[simp] theorem countRequest_pg (s : State) (v : Nat) : (countRequest s v).pg = s.pg := rfl
@[simp] theorem countRequest_mt (s : State) (v : Nat) : (countRequest s v).mt = s.mt := rfl
@[simp] theorem countRequest_fab (s : State) (v : Nat) : (countRequest s v).fab = s.fab := rfl
@[simp] theorem countRequest_st (s : State) (v : Nat) : (countRequest s v).st = s.st := rfl
@[simp] theorem countRequest_ce (s : State) (v : Nat) : (countRequest s v).ce = s.ce := rfl
@[simp] theorem countRequest_gl (s : State) (v : Nat) : (countRequest s v).gl = s.gl := rfl
@[simp] theorem countRequest_pending (s : State) (v : Nat) : (countRequest s v).pending = s.pending := rfl


/-- A command has no effect on the queue. -/
@[simp] theorem done_eq (s r : State) : done s r = .next { r with pending := s.pending } := rfl

/-- Outside operation the end of a command changes nothing. -/
theorem settle_stopped (s : State) (h : s.gl.phase ≠ 2) : settle s = s := by simp [settle, h]

/-- With nothing due the end of a command changes nothing. -/
theorem settle_quiet (s : State) (h : quiet s = true) : settle s = s := by
  unfold settle
  split
  · simp [settleN, h]
  · rfl

/-- Device time after tick. -/
@[simp] theorem tick_now (s : State) (t : Nat) : (tick s t).now = Nat.max s.now t := by
  simp only [tick]
  split <;> rfl

end Sys2Proof.Machine
end

