-- ==== Sys2Proof/Laws/Ops.lean ====
section
/-! SUPPORT. What each shared operation of Ops.lean and Operands.lean can change, said once: which parts of the state differ after it,
and the value read back from a table or a register just written. -/
namespace Sys2Proof.Machine

/-! ### Tables -/

@[simp] theorem tget_tput_self {α : Type} (t : NTable α) (n : Nat) (v : α) : tget (tput t n v) n = some v := by
  induction t with
  | nil => simp [tput, tget]
  | cons x t ih => obtain ⟨k, w⟩ := x; simp only [tput]; split <;> (try split) <;> simp_all [tget]

theorem tget_tput_ne {α : Type} (t : NTable α) (n m : Nat) (v : α) (h : m ≠ n) : tget (tput t n v) m = tget t m := by
  induction t with
  | nil => simp [tput, tget, h]
  | cons x t ih => obtain ⟨k, w⟩ := x; simp only [tput]; split <;> (try split) <;> simp_all [tget]

@[simp] theorem tgetD_tput_self {α : Type} (t : NTable α) (n : Nat) (v d : α) : tgetD (tput t n v) n d = v := by
  simp [tgetD]

theorem tgetD_tput_ne {α : Type} (t : NTable α) (n m : Nat) (v d : α) (h : m ≠ n) : tgetD (tput t n v) m d = tgetD t m d := by
  simp [tgetD, tget_tput_ne t n m v h]

theorem tget_tdel_ne {α : Type} (t : NTable α) (n m : Nat) (h : m ≠ n) : tget (tdel t n) m = tget t m := by
  induction t with
  | nil => rfl
  | cons x t ih =>
    obtain ⟨k, w⟩ := x
    simp only [tdel]
    split
    · subst_vars; simp [tget, h]
    · simp only [tget]; split <;> simp_all

/-- Change of the value at a key. -/
theorem tget_tmod {α : Type} (t : NTable α) (n m : Nat) (f : α → α) :
    tget (tmod t n f) m = if m = n then (tget t m).map f else tget t m := by
  induction t with
  | nil => simp [tmod, tget]
  | cons x t ih =>
    obtain ⟨k, w⟩ := x
    simp only [tmod, List.map_cons] at *
    by_cases hk : k = n
    · subst hk
      simp only [if_true, tget]
      by_cases hm : m = k <;> simp_all
    · simp only [hk, if_false, tget]
      by_cases hm : m = k
      · subst hm; simp [hk]
      · simp [hm, ih]

/-! ### Registers -/

@[simp] theorem rdReg_wrReg (s : State) (d : RegDesc) (i k : Nat) (w : Word) : rdReg (wrReg s d i k w) d i k = w := by
  simp [rdReg, wrReg]

/-- Another register keeps its value: its place in the register file is another one. -/
theorem rdReg_wrReg_ne (s : State) (d e : RegDesc) (i k j l : Nat) (w : Word) (h : ra2 e j l ≠ ra2 d i k) :
    rdReg (wrReg s d i k w) e j l = rdReg s e j l := by
  simp [rdReg, wrReg, tgetD_tput_ne _ _ _ _ _ h]

/-- A field just put into a register, cut to its width. -/
@[simp] theorem rf_wf (s : State) (d : RegDesc) (i hi lo v : Nat) (hhi : hi < 64) (hl : lo ≤ hi) :
    rf (wf s d i hi lo v) d i hi lo = v % 2 ^ (hi + 1 - lo) := by
  simp [rf, wf, fld_setFld _ _ _ _ hhi hl]

/-- Another field of the register keeps its value. -/
theorem rf_wf_other (s : State) (d : RegDesc) (i hi lo v hi' lo' : Nat) (hhi : hi < 64) (hl : lo ≤ hi) (h : hi' < lo ∨ hi < lo') :
    rf (wf s d i hi lo v) d i hi' lo' = rf s d i hi' lo' := by
  simp [rf, wf, fld_setFld_other _ _ _ _ _ _ hhi hl h]

/-- A field of another register. -/
theorem rf_wf_ne (s : State) (d e : RegDesc) (i j hi lo v hi' lo' : Nat) (h : ra2 e j 0 ≠ ra2 d i 0) :
    rf (wf s d i hi lo v) e j hi' lo' = rf s e j hi' lo' := by
  simp [rf, wf, rdReg_wrReg_ne _ _ _ _ _ _ _ _ h]

/-! ### What an operation can change -/

/-- Time: only the device time and the held time of composition tags. -/
theorem tick_eq (s : State) (t : Nat) : ∃ m, tick s t = { s with now := Nat.max s.now t, mt := m } := by
  simp only [tick]
  split
  · exact ⟨_, rfl⟩
  · exact ⟨_, rfl⟩

@[simp] theorem tick_regs (s : State) (t : Nat) : (tick s t).regs = s.regs := by obtain ⟨m, h⟩ := tick_eq s t; rw [h]
@[simp] theorem tick_mem (s : State) (t : Nat) : (tick s t).mem = s.mem := by obtain ⟨m, h⟩ := tick_eq s t; rw [h]
@[simp] theorem tick_freeCtr (s : State) (t : Nat) : (tick s t).freeCtr = s.freeCtr := by obtain ⟨m, h⟩ := tick_eq s t; rw [h]
@[simp] theorem tick_host (s : State) (t : Nat) : (tick s t).host = s.host := by obtain ⟨m, h⟩ := tick_eq s t; rw [h]
@[simp] theorem tick_intr (s : State) (t : Nat) : (tick s t).intr = s.intr := by obtain ⟨m, h⟩ := tick_eq s t; rw [h]
@[simp] theorem tick_pg (s : State) (t : Nat) : (tick s t).pg = s.pg := by obtain ⟨m, h⟩ := tick_eq s t; rw [h]
@[simp] theorem tick_fab (s : State) (t : Nat) : (tick s t).fab = s.fab := by obtain ⟨m, h⟩ := tick_eq s t; rw [h]
@[simp] theorem tick_st (s : State) (t : Nat) : (tick s t).st = s.st := by obtain ⟨m, h⟩ := tick_eq s t; rw [h]
@[simp] theorem tick_ce (s : State) (t : Nat) : (tick s t).ce = s.ce := by obtain ⟨m, h⟩ := tick_eq s t; rw [h]
@[simp] theorem tick_gl (s : State) (t : Nat) : (tick s t).gl = s.gl := by obtain ⟨m, h⟩ := tick_eq s t; rw [h]
@[simp] theorem tick_pending (s : State) (t : Nat) : (tick s t).pending = s.pending := by obtain ⟨m, h⟩ := tick_eq s t; rw [h]

theorem countRequest_of (s u : State) (v : Nat) (h : ∃ i, u = { s with intr := i }) : ∃ i, countRequest u v = { s with intr := i } := by
  obtain ⟨i, rfl⟩ := h; exact ⟨_, rfl⟩

theorem wakeCore_of (s u : State) (n : Nat) (h : ∃ i, u = { s with intr := i }) : ∃ i, wakeCore u n = { s with intr := i } := by
  obtain ⟨i, rfl⟩ := h
  unfold wakeCore; split
  · exact ⟨_, rfl⟩
  · exact ⟨_, rfl⟩

/-- An edge source touches the interrupt controller only. -/
theorem raiseEdge_eq (s : State) (n : Nat) : ∃ i, raiseEdge s n = { s with intr := i } := by
  simp only [raiseEdge]
  generalize (if n < 0x300 then addSorted n s.intr.hostPend else s.intr.hostPend) = l
  refine wakeCore_of _ _ _ ?_
  split
  · exact countRequest_of _ _ _ ⟨_, rfl⟩
  · exact ⟨_, rfl⟩

/-- Sampling a level source touches the interrupt controller only. -/
theorem sampleLevel_eq (s : State) (n : Nat) : ∃ i, sampleLevel s n = { s with intr := i } := by
  simp only [sampleLevel]
  split
  · refine wakeCore_of _ _ _ ?_
    split
    · exact countRequest_of _ _ _ ⟨_, rfl⟩
    · exact ⟨_, rfl⟩
  · split
    · exact ⟨_, rfl⟩
    · exact ⟨s.intr, rfl⟩

theorem raiseEdge_of (s u : State) (n : Nat) (h : ∃ a i, u = { s with host := a, intr := i }) :
    ∃ a i, raiseEdge u n = { s with host := a, intr := i } := by
  obtain ⟨a, i, rfl⟩ := h
  obtain ⟨j, e⟩ := raiseEdge_eq { s with host := a, intr := i } n
  exact ⟨a, j, e⟩

/-- A reply touches the host interface and its interrupt source only. -/
theorem putReply_eq (s : State) (q gen : Nat) (r : Reply) : ∃ h i, putReply s q gen r = { s with host := h, intr := i } := by
  simp only [putReply]
  split
  · exact raiseEdge_of _ _ _ ⟨_, _, rfl⟩
  · exact ⟨s.host, s.intr, rfl⟩

theorem putReply_of (s u : State) (q gen : Nat) (r : Reply) (h : ∃ a i, u = { s with host := a, intr := i }) :
    ∃ a i, putReply u q gen r = { s with host := a, intr := i } := by
  obtain ⟨a, i, rfl⟩ := h
  obtain ⟨b, j, e⟩ := putReply_eq { s with host := a, intr := i } q gen r
  exact ⟨b, j, e⟩

/-- The end of an open command touches the host interface and its interrupt source only. -/
theorem finish_eq (s : State) (id status detail r0 r1 : Nat) :
    ∃ h i, finish s id status detail r0 r1 = { s with host := h, intr := i } := by
  unfold finish
  split
  · exact ⟨s.host, s.intr, rfl⟩
  · exact putReply_of _ _ _ _ _ ⟨_, _, rfl⟩

theorem pend_eq (s : State) (id : Nat) (w : Wait) : ∃ h i, pend s id w = { s with host := h, intr := i } := by
  unfold pend
  split
  · exact ⟨s.host, s.intr, rfl⟩
  · simp only
    split
    · exact ⟨_, s.intr, rfl⟩
    · exact putReply_of _ _ _ _ _ ⟨_, _, rfl⟩

theorem waitFor_eq (s : State) (id : Nat) (w : Wait) : ∃ h, waitFor s id w = { s with host := h } := ⟨_, rfl⟩

/-- An event entry touches the host interface and its interrupt source only. -/
theorem putEvent_eq (s : State) (e : Nat) (ev : Event) : ∃ h i, putEvent s e ev = { s with host := h, intr := i } := by
  simp only [putEvent]
  exact raiseEdge_of _ _ _ ⟨_, _, rfl⟩

theorem deliver_eq (s : State) (e : Nat) (ev : Event) : ∃ h i, deliver s e ev = { s with host := h, intr := i } := by
  simp only [deliver]
  split
  · exact putEvent_eq s e ev
  · split
    · exact ⟨_, s.intr, rfl⟩
    · exact ⟨_, s.intr, rfl⟩

/-- An event touches the host interface, its interrupt source and, for PREDICTIVE, the time of the last such event. -/
theorem raise_eq (s : State) (source type ctx status a0 a1 : Nat) :
    ∃ h i g, raise s source type ctx status a0 a1 = { s with host := h, intr := i, gl := { s.gl with predictAt := g } } := by
  simp only [raise]
  have key : ∀ u : State, (∃ h i g, u = { s with host := h, intr := i, gl := { s.gl with predictAt := g } }) → ∀ e ev,
      ∃ h i g, deliver u e ev = { s with host := h, intr := i, gl := { s.gl with predictAt := g } } := by
    rintro u ⟨h, i, g, rfl⟩ e ev
    obtain ⟨h', i', hd⟩ := deliver_eq { s with host := h, intr := i, gl := { s.gl with predictAt := g } } e ev
    exact ⟨h', i', g, hd⟩
  split_ifs
  all_goals first
    | exact key _ ⟨_, _, _, rfl⟩ _ _
    | exact ⟨_, _, _, rfl⟩

/-! ### The same, field by field -/

@[simp] theorem raiseEdge_now (s : State) (n : Nat) : (raiseEdge s n).now = s.now := by obtain ⟨i, h⟩ := raiseEdge_eq s n; rw [h]
@[simp] theorem raiseEdge_regs (s : State) (n : Nat) : (raiseEdge s n).regs = s.regs := by obtain ⟨i, h⟩ := raiseEdge_eq s n; rw [h]
@[simp] theorem raiseEdge_mem (s : State) (n : Nat) : (raiseEdge s n).mem = s.mem := by obtain ⟨i, h⟩ := raiseEdge_eq s n; rw [h]
@[simp] theorem raiseEdge_freeCtr (s : State) (n : Nat) : (raiseEdge s n).freeCtr = s.freeCtr := by obtain ⟨i, h⟩ := raiseEdge_eq s n; rw [h]
@[simp] theorem raiseEdge_host (s : State) (n : Nat) : (raiseEdge s n).host = s.host := by obtain ⟨i, h⟩ := raiseEdge_eq s n; rw [h]
@[simp] theorem raiseEdge_pg (s : State) (n : Nat) : (raiseEdge s n).pg = s.pg := by obtain ⟨i, h⟩ := raiseEdge_eq s n; rw [h]
@[simp] theorem raiseEdge_mt (s : State) (n : Nat) : (raiseEdge s n).mt = s.mt := by obtain ⟨i, h⟩ := raiseEdge_eq s n; rw [h]
@[simp] theorem raiseEdge_fab (s : State) (n : Nat) : (raiseEdge s n).fab = s.fab := by obtain ⟨i, h⟩ := raiseEdge_eq s n; rw [h]
@[simp] theorem raiseEdge_st (s : State) (n : Nat) : (raiseEdge s n).st = s.st := by obtain ⟨i, h⟩ := raiseEdge_eq s n; rw [h]
@[simp] theorem raiseEdge_ce (s : State) (n : Nat) : (raiseEdge s n).ce = s.ce := by obtain ⟨i, h⟩ := raiseEdge_eq s n; rw [h]
@[simp] theorem raiseEdge_gl (s : State) (n : Nat) : (raiseEdge s n).gl = s.gl := by obtain ⟨i, h⟩ := raiseEdge_eq s n; rw [h]
@[simp] theorem raiseEdge_pending (s : State) (n : Nat) : (raiseEdge s n).pending = s.pending := by obtain ⟨i, h⟩ := raiseEdge_eq s n; rw [h]

@[simp] theorem sampleLevel_now (s : State) (n : Nat) : (sampleLevel s n).now = s.now := by obtain ⟨i, h⟩ := sampleLevel_eq s n; rw [h]
@[simp] theorem sampleLevel_regs (s : State) (n : Nat) : (sampleLevel s n).regs = s.regs := by obtain ⟨i, h⟩ := sampleLevel_eq s n; rw [h]
@[simp] theorem sampleLevel_mem (s : State) (n : Nat) : (sampleLevel s n).mem = s.mem := by obtain ⟨i, h⟩ := sampleLevel_eq s n; rw [h]
@[simp] theorem sampleLevel_freeCtr (s : State) (n : Nat) : (sampleLevel s n).freeCtr = s.freeCtr := by obtain ⟨i, h⟩ := sampleLevel_eq s n; rw [h]
@[simp] theorem sampleLevel_host (s : State) (n : Nat) : (sampleLevel s n).host = s.host := by obtain ⟨i, h⟩ := sampleLevel_eq s n; rw [h]
@[simp] theorem sampleLevel_pg (s : State) (n : Nat) : (sampleLevel s n).pg = s.pg := by obtain ⟨i, h⟩ := sampleLevel_eq s n; rw [h]
@[simp] theorem sampleLevel_mt (s : State) (n : Nat) : (sampleLevel s n).mt = s.mt := by obtain ⟨i, h⟩ := sampleLevel_eq s n; rw [h]
@[simp] theorem sampleLevel_fab (s : State) (n : Nat) : (sampleLevel s n).fab = s.fab := by obtain ⟨i, h⟩ := sampleLevel_eq s n; rw [h]
@[simp] theorem sampleLevel_st (s : State) (n : Nat) : (sampleLevel s n).st = s.st := by obtain ⟨i, h⟩ := sampleLevel_eq s n; rw [h]
@[simp] theorem sampleLevel_ce (s : State) (n : Nat) : (sampleLevel s n).ce = s.ce := by obtain ⟨i, h⟩ := sampleLevel_eq s n; rw [h]
@[simp] theorem sampleLevel_gl (s : State) (n : Nat) : (sampleLevel s n).gl = s.gl := by obtain ⟨i, h⟩ := sampleLevel_eq s n; rw [h]
@[simp] theorem sampleLevel_pending (s : State) (n : Nat) : (sampleLevel s n).pending = s.pending := by obtain ⟨i, h⟩ := sampleLevel_eq s n; rw [h]

@[simp] theorem putReply_now (s : State) (q gen : Nat) (r : Reply) : (putReply s q gen r).now = s.now := by obtain ⟨a, i, h⟩ := putReply_eq s q gen r; rw [h]
@[simp] theorem putReply_regs (s : State) (q gen : Nat) (r : Reply) : (putReply s q gen r).regs = s.regs := by obtain ⟨a, i, h⟩ := putReply_eq s q gen r; rw [h]
@[simp] theorem putReply_mem (s : State) (q gen : Nat) (r : Reply) : (putReply s q gen r).mem = s.mem := by obtain ⟨a, i, h⟩ := putReply_eq s q gen r; rw [h]
@[simp] theorem putReply_freeCtr (s : State) (q gen : Nat) (r : Reply) : (putReply s q gen r).freeCtr = s.freeCtr := by obtain ⟨a, i, h⟩ := putReply_eq s q gen r; rw [h]
@[simp] theorem putReply_pg (s : State) (q gen : Nat) (r : Reply) : (putReply s q gen r).pg = s.pg := by obtain ⟨a, i, h⟩ := putReply_eq s q gen r; rw [h]
@[simp] theorem putReply_mt (s : State) (q gen : Nat) (r : Reply) : (putReply s q gen r).mt = s.mt := by obtain ⟨a, i, h⟩ := putReply_eq s q gen r; rw [h]
@[simp] theorem putReply_fab (s : State) (q gen : Nat) (r : Reply) : (putReply s q gen r).fab = s.fab := by obtain ⟨a, i, h⟩ := putReply_eq s q gen r; rw [h]
@[simp] theorem putReply_st (s : State) (q gen : Nat) (r : Reply) : (putReply s q gen r).st = s.st := by obtain ⟨a, i, h⟩ := putReply_eq s q gen r; rw [h]
@[simp] theorem putReply_ce (s : State) (q gen : Nat) (r : Reply) : (putReply s q gen r).ce = s.ce := by obtain ⟨a, i, h⟩ := putReply_eq s q gen r; rw [h]
@[simp] theorem putReply_gl (s : State) (q gen : Nat) (r : Reply) : (putReply s q gen r).gl = s.gl := by obtain ⟨a, i, h⟩ := putReply_eq s q gen r; rw [h]
@[simp] theorem putReply_pending (s : State) (q gen : Nat) (r : Reply) : (putReply s q gen r).pending = s.pending := by obtain ⟨a, i, h⟩ := putReply_eq s q gen r; rw [h]

@[simp] theorem finish_now (s : State) (id st d a b : Nat) : (finish s id st d a b).now = s.now := by obtain ⟨c, i, h⟩ := finish_eq s id st d a b; rw [h]
@[simp] theorem finish_regs (s : State) (id st d a b : Nat) : (finish s id st d a b).regs = s.regs := by obtain ⟨c, i, h⟩ := finish_eq s id st d a b; rw [h]
@[simp] theorem finish_mem (s : State) (id st d a b : Nat) : (finish s id st d a b).mem = s.mem := by obtain ⟨c, i, h⟩ := finish_eq s id st d a b; rw [h]
@[simp] theorem finish_freeCtr (s : State) (id st d a b : Nat) : (finish s id st d a b).freeCtr = s.freeCtr := by obtain ⟨c, i, h⟩ := finish_eq s id st d a b; rw [h]
@[simp] theorem finish_pg (s : State) (id st d a b : Nat) : (finish s id st d a b).pg = s.pg := by obtain ⟨c, i, h⟩ := finish_eq s id st d a b; rw [h]
@[simp] theorem finish_mt (s : State) (id st d a b : Nat) : (finish s id st d a b).mt = s.mt := by obtain ⟨c, i, h⟩ := finish_eq s id st d a b; rw [h]
@[simp] theorem finish_fab (s : State) (id st d a b : Nat) : (finish s id st d a b).fab = s.fab := by obtain ⟨c, i, h⟩ := finish_eq s id st d a b; rw [h]
@[simp] theorem finish_st (s : State) (id st d a b : Nat) : (finish s id st d a b).st = s.st := by obtain ⟨c, i, h⟩ := finish_eq s id st d a b; rw [h]
@[simp] theorem finish_ce (s : State) (id st d a b : Nat) : (finish s id st d a b).ce = s.ce := by obtain ⟨c, i, h⟩ := finish_eq s id st d a b; rw [h]
@[simp] theorem finish_gl (s : State) (id st d a b : Nat) : (finish s id st d a b).gl = s.gl := by obtain ⟨c, i, h⟩ := finish_eq s id st d a b; rw [h]
@[simp] theorem finish_pending (s : State) (id st d a b : Nat) : (finish s id st d a b).pending = s.pending := by obtain ⟨c, i, h⟩ := finish_eq s id st d a b; rw [h]

@[simp] theorem pend_now (s : State) (id : Nat) (w : Wait) : (pend s id w).now = s.now := by obtain ⟨a, i, h⟩ := pend_eq s id w; rw [h]
@[simp] theorem pend_regs (s : State) (id : Nat) (w : Wait) : (pend s id w).regs = s.regs := by obtain ⟨a, i, h⟩ := pend_eq s id w; rw [h]
@[simp] theorem pend_mem (s : State) (id : Nat) (w : Wait) : (pend s id w).mem = s.mem := by obtain ⟨a, i, h⟩ := pend_eq s id w; rw [h]
@[simp] theorem pend_freeCtr (s : State) (id : Nat) (w : Wait) : (pend s id w).freeCtr = s.freeCtr := by obtain ⟨a, i, h⟩ := pend_eq s id w; rw [h]
@[simp] theorem pend_pg (s : State) (id : Nat) (w : Wait) : (pend s id w).pg = s.pg := by obtain ⟨a, i, h⟩ := pend_eq s id w; rw [h]
@[simp] theorem pend_mt (s : State) (id : Nat) (w : Wait) : (pend s id w).mt = s.mt := by obtain ⟨a, i, h⟩ := pend_eq s id w; rw [h]
@[simp] theorem pend_fab (s : State) (id : Nat) (w : Wait) : (pend s id w).fab = s.fab := by obtain ⟨a, i, h⟩ := pend_eq s id w; rw [h]
@[simp] theorem pend_st (s : State) (id : Nat) (w : Wait) : (pend s id w).st = s.st := by obtain ⟨a, i, h⟩ := pend_eq s id w; rw [h]
@[simp] theorem pend_ce (s : State) (id : Nat) (w : Wait) : (pend s id w).ce = s.ce := by obtain ⟨a, i, h⟩ := pend_eq s id w; rw [h]
@[simp] theorem pend_gl (s : State) (id : Nat) (w : Wait) : (pend s id w).gl = s.gl := by obtain ⟨a, i, h⟩ := pend_eq s id w; rw [h]
@[simp] theorem pend_pending (s : State) (id : Nat) (w : Wait) : (pend s id w).pending = s.pending := by obtain ⟨a, i, h⟩ := pend_eq s id w; rw [h]

@[simp] theorem raise_now (s : State) (source type ctx status a0 a1 : Nat) : (raise s source type ctx status a0 a1).now = s.now := by obtain ⟨a, i, g, h⟩ := raise_eq s source type ctx status a0 a1; rw [h]
@[simp] theorem raise_regs (s : State) (source type ctx status a0 a1 : Nat) : (raise s source type ctx status a0 a1).regs = s.regs := by obtain ⟨a, i, g, h⟩ := raise_eq s source type ctx status a0 a1; rw [h]
@[simp] theorem raise_mem (s : State) (source type ctx status a0 a1 : Nat) : (raise s source type ctx status a0 a1).mem = s.mem := by obtain ⟨a, i, g, h⟩ := raise_eq s source type ctx status a0 a1; rw [h]
@[simp] theorem raise_freeCtr (s : State) (source type ctx status a0 a1 : Nat) : (raise s source type ctx status a0 a1).freeCtr = s.freeCtr := by obtain ⟨a, i, g, h⟩ := raise_eq s source type ctx status a0 a1; rw [h]
@[simp] theorem raise_pg (s : State) (source type ctx status a0 a1 : Nat) : (raise s source type ctx status a0 a1).pg = s.pg := by obtain ⟨a, i, g, h⟩ := raise_eq s source type ctx status a0 a1; rw [h]
@[simp] theorem raise_mt (s : State) (source type ctx status a0 a1 : Nat) : (raise s source type ctx status a0 a1).mt = s.mt := by obtain ⟨a, i, g, h⟩ := raise_eq s source type ctx status a0 a1; rw [h]
@[simp] theorem raise_fab (s : State) (source type ctx status a0 a1 : Nat) : (raise s source type ctx status a0 a1).fab = s.fab := by obtain ⟨a, i, g, h⟩ := raise_eq s source type ctx status a0 a1; rw [h]
@[simp] theorem raise_st (s : State) (source type ctx status a0 a1 : Nat) : (raise s source type ctx status a0 a1).st = s.st := by obtain ⟨a, i, g, h⟩ := raise_eq s source type ctx status a0 a1; rw [h]
@[simp] theorem raise_ce (s : State) (source type ctx status a0 a1 : Nat) : (raise s source type ctx status a0 a1).ce = s.ce := by obtain ⟨a, i, g, h⟩ := raise_eq s source type ctx status a0 a1; rw [h]
@[simp] theorem raise_pending (s : State) (source type ctx status a0 a1 : Nat) : (raise s source type ctx status a0 a1).pending = s.pending := by obtain ⟨a, i, g, h⟩ := raise_eq s source type ctx status a0 a1; rw [h]

@[simp] theorem raise_phase (s : State) (source type ctx status a0 a1 : Nat) : (raise s source type ctx status a0 a1).gl.phase = s.gl.phase := by
  obtain ⟨a, i, g, h⟩ := raise_eq s source type ctx status a0 a1; rw [h]

end Sys2Proof.Machine
end

