-- ==== Sys2Proof/Laws/Commands.lean ====
section
/-! SUPPORT. How a command reaches its own effect: the running controller, the checks of R341 and the check of R271. -/
namespace Sys2Proof.Machine

theorem hosted_runs (op : Nat) (c : Cmd) (s : State) (h : s.gl.phase = 2) : hosted op c s = .next (after s (opRun op c s)) := by
  simp [hosted, done, after, h]

theorem running_runs (s : State) (t : Nat) (f : State → State) (h : s.gl.phase = 2) :
    running s t f = .next (after s (f (tick s t))) := by
  simp [running, done, after, h]

theorem txnCheck_none (s : State) (op : Nat) (c : Cmd) (h : cTxn c = 0 ∨ op = 0x09 ∨ op = 0x0A) : txnCheck s op c = none := by
  simp [txnCheck, h]

theorem runOp_passed (op : Nat) (range : Cmd → State → Option (Nat × Nat)) (act : Nat → Cmd → State → State) (c : Cmd) (s : State)
    (h : passes op c s) (hr : range (withOpcode c op) (taken op c s) = none) :
    runOp op range act c s = act s.host.cmdCtr (withOpcode c op) (taken op c s) := by
  obtain ⟨_, hc, ht⟩ := h
  have htx := txnCheck_none (taken op c s) op (withOpcode c op) ht
  unfold runOp
  have hid : takeCmd s op (withOpcode c op) .none = (s.host.cmdCtr, taken op c s) := rfl
  simp only [hid, hc, htx, hr]
  have : ¬(cTxn (withOpcode c op) ≠ 0 ∧ transactable op = true) := by
    rintro ⟨h1, h2⟩
    rcases ht with h | h | h
    · exact h1 h
    · subst h; simp [transactable] at h2
    · subst h; simp [transactable] at h2
  rw [if_neg this]

theorem openCmd_taken (op : Nat) (c : Cmd) (s : State) : openCmd (taken op c s) s.host.cmdCtr =
    some { id := s.host.cmdCtr, gen := (ring s c.ring).gen, opcode := op, cmd := withOpcode c op, pended := false, wait := .none } := by
  simp [openCmd, taken, takeCmd, withOpcode]

theorem latched_here (op id : Nat) (k : Cmd) (r : State) (x : Seq) (g : Nat) (hop : op ≠ 0x5A) (hop' : op ≠ 0x5C)
    (ho : ownedHere r k (fld k.w1 31 0) x) (h : openCmd r id = some { id := id, gen := g, opcode := op, cmd := k, pended := false, wait := .none }) :
    latched op id k r = actSeq op id k x r := by
  obtain ⟨hx, hh, hc, h', hl, hw, he⟩ := ho
  simp [latched, objOf, hop, hop', knownHome, hx, hh, ownRecord, lvOf, hl, latchAnswered, h, homeAnswer, lmsg, sOk, hw, he, hc]

theorem always_runs (s : State) (t : Nat) (f : State → State) : always s t f = .next (after s (f (tick s t))) := by
  simp [always, done, after]

theorem powered_runs (s : State) (t : Nat) (f : State → State) (h : s.gl.phase ≠ 3) :
    powered s t f = .next (after s (f (tick s t))) := by
  simp [powered, done, after, h]

theorem latchIn_heard (u : State) (src sub : Nat) (b : List Byte) (f : State → LMsg → State) (m : LMsg) (h : heardL u src b m)
    (hs : m.sub = sub) : latchIn u src sub b f = f u m := by
  obtain ⟨h1, h2⟩ := h
  subst hs
  simp [latchIn, h1, h2]

theorem cellIn_heard (u : State) (sub : Nat) (b : List Byte) (f : State → CMsg → State) (m : CMsg) (h : heardC u b m)
    (hs : m.sub = sub) : cellIn u sub b f = f u m := by
  obtain ⟨h1, h2⟩ := h
  simp [cellIn, h1, h2, hs]

end Sys2Proof.Machine
end

