-- ==== Sys2Proof/Laws/Memory.lean ====
section
/-! SUPPORT. Memory: a byte read is the byte written, other bytes stay, and every operation keeps the canonical form. -/
namespace Sys2Proof.Machine

/-- Every listed address is at least a. -/
def memFrom (a : Nat) (m : List Host.Cell) : Prop := ∀ c ∈ m, a ≤ c.1

theorem memWf_iff (m : List Host.Cell) :
    memWf m = true ↔ m.Pairwise (fun c d => c.1 < d.1) ∧ ∀ c ∈ m, c.2 ≠ unlistedByte := by
  induction m with
  | nil => simp [memWf]
  | cons c t ih =>
    obtain ⟨a, v⟩ := c
    cases t with
    | nil => simp [memWf]
    | cons d t =>
      obtain ⟨b, w⟩ := d
      simp only [memWf, Bool.and_eq_true, bne_iff_ne, ne_eq, decide_eq_true_eq, ih, List.pairwise_cons, List.mem_cons, forall_eq_or_imp]
      constructor
      · rintro ⟨⟨hv, hab⟩, ⟨hb, hp⟩, hw, ht⟩
        exact ⟨⟨⟨hab, fun c hc => lt_trans hab (hb c hc)⟩, hb, hp⟩, hv, hw, ht⟩
      · rintro ⟨⟨⟨hab, _⟩, hb, hp⟩, hv, hw, ht⟩
        exact ⟨⟨hv, hab⟩, ⟨hb, hp⟩, hw, ht⟩

theorem mem_writeByte (m : List Host.Cell) (a : Nat) (b : Byte) (c : Host.Cell) (h : c ∈ writeByte m a b) :
    c ∈ m ∨ (c = (a, b) ∧ b ≠ unlistedByte) := by
  induction m with
  | nil =>
    simp only [writeByte] at h
    split at h
    · simp at h
    · simp only [List.mem_singleton] at h; exact .inr ⟨h, ‹_›⟩
  | cons d t ih =>
    obtain ⟨k, v⟩ := d
    simp only [writeByte] at h
    split at h
    · split at h
      · exact .inl h
      · rcases List.mem_cons.1 h with h | h
        · exact .inr ⟨h, ‹_›⟩
        · exact .inl h
    · split at h
      · split at h
        · exact .inl (List.mem_cons_of_mem _ h)
        · rcases List.mem_cons.1 h with h | h
          · exact .inr ⟨h, ‹_›⟩
          · exact .inl (List.mem_cons_of_mem _ h)
      · rcases List.mem_cons.1 h with h | h
        · exact .inl (by simp [h])
        · rcases ih h with h | h
          · exact .inl (List.mem_cons_of_mem _ h)
          · exact .inr h

/-- Writing a byte keeps the canonical form. -/
theorem memWf_writeByte (m : List Host.Cell) (a : Nat) (b : Byte) (h : memWf m = true) : memWf (writeByte m a b) = true := by
  rw [memWf_iff] at h ⊢
  refine ⟨?_, ?_⟩
  · have hp := h.1
    clear h
    induction m with
    | nil => simp only [writeByte]; split <;> simp
    | cons d t ih =>
      obtain ⟨k, v⟩ := d
      have ht := List.pairwise_cons.1 hp
      simp only [writeByte]
      split
      · split
        · exact hp
        · refine List.pairwise_cons.2 ⟨?_, hp⟩
          intro c hc
          rcases List.mem_cons.1 hc with rfl | hc
          · assumption
          · exact lt_trans ‹a < k› (ht.1 c hc)
      · split
        · split
          · exact ht.2
          · subst_vars; exact List.pairwise_cons.2 ⟨ht.1, ht.2⟩
        · refine List.pairwise_cons.2 ⟨?_, ih ht.2⟩
          intro c hc
          rcases mem_writeByte t a b c hc with hc | ⟨rfl, _⟩
          · exact ht.1 c hc
          · simp only; omega
  · intro c hc
    rcases mem_writeByte m a b c hc with hc | ⟨rfl, hb⟩
    · exact h.2 c hc
    · exact hb

theorem memWf_writeBytes (bs : List Byte) (m : List Host.Cell) (a : Nat) (h : memWf m = true) :
    memWf (writeBytes m a bs) = true := by
  induction bs generalizing m a with
  | nil => exact h
  | cons b bs ih => exact ih _ _ (memWf_writeByte m a b h)

theorem memWf_zeroBytes (m : List Host.Cell) (a n : Nat) (h : memWf m = true) : memWf (zeroBytes m a n) = true := by
  rw [memWf_iff] at h ⊢
  exact ⟨h.1.filter _, fun c hc => h.2 c (List.mem_of_mem_filter hc)⟩

theorem memWf_copyBytes (m : List Host.Cell) (src dst n : Nat) (h : memWf m = true) :
    memWf (copyBytes m src dst n) = true := by
  unfold copyBytes
  generalize (m.filter fun c => src ≤ c.1 && c.1 < src + n) = l
  have h0 := memWf_zeroBytes m dst n h
  revert h0
  generalize zeroBytes m dst n = m0
  induction l generalizing m0 with
  | nil => exact id
  | cons c l ih => exact fun h => ih _ (memWf_writeByte _ _ _ h)

/-- Reading the byte just written gives it. -/
theorem readByte_writeByte_self (m : List Host.Cell) (a : Nat) (b : Byte) (h : memWf m = true) :
    readByte (writeByte m a b) a = b := by
  have hp := ((memWf_iff m).1 h).1
  clear h
  have hnone : ∀ t : List Host.Cell, (∀ c ∈ t, a < c.1) → readByte t a = unlistedByte := by
    intro t ht
    induction t with
    | nil => rfl
    | cons d t ih =>
      have := ht d (by simp)
      simp only [readByte]
      rw [if_neg (by omega)]
      exact ih fun c hc => ht c (List.mem_cons_of_mem _ hc)
  induction m with
  | nil => simp only [writeByte]; split <;> simp_all [readByte]
  | cons d t ih =>
    obtain ⟨k, v⟩ := d
    have ht := List.pairwise_cons.1 hp
    simp only [writeByte]
    split
    · split
      · subst_vars
        refine hnone _ fun c hc => ?_
        rcases List.mem_cons.1 hc with rfl | hc
        · assumption
        · exact lt_trans ‹a < k› (ht.1 c hc)
      · simp [readByte]
    · split
      · split
        · subst_vars; exact hnone _ ht.1
        · simp [readByte]
      · simp only [readByte]
        rw [if_neg ‹¬a = k›]
        exact ih ht.2

/-- A byte written leaves every other byte as it was. -/
theorem readByte_writeByte_ne (m : List Host.Cell) (a x : Nat) (b : Byte) (hx : x ≠ a) (h : memWf m = true) :
    readByte (writeByte m a b) x = readByte m x := by
  have hp := ((memWf_iff m).1 h).1
  clear h
  induction m with
  | nil => simp only [writeByte]; split <;> simp [readByte, hx]
  | cons d t ih =>
    obtain ⟨k, v⟩ := d
    have ht := List.pairwise_cons.1 hp
    simp only [writeByte]
    split
    · split <;> simp [readByte, hx]
    · split
      · subst_vars
        split <;> simp [readByte, hx]
      · simp only [readByte]; rw [ih ht.2]

/-- Bytes written leave every byte outside them as it was. -/
theorem readByte_writeBytes_out (bs : List Byte) (m : List Host.Cell) (a x : Nat) (hx : x < a ∨ a + bs.length ≤ x)
    (h : memWf m = true) : readByte (writeBytes m a bs) x = readByte m x := by
  induction bs generalizing m a with
  | nil => rfl
  | cons b bs ih =>
    simp only [writeBytes]
    rw [ih (writeByte m a b) (a + 1) (by simp only [List.length_cons] at hx; omega) (memWf_writeByte m a b h)]
    exact readByte_writeByte_ne m a x b (by simp only [List.length_cons] at hx; omega) h

/-- Bytes written read back. -/
theorem readBytes_writeBytes (bs : List Byte) (m : List Host.Cell) (a : Nat) (h : memWf m = true) :
    readBytes (writeBytes m a bs) a bs.length = bs := by
  induction bs generalizing m a with
  | nil => rfl
  | cons b bs ih =>
    have hw := memWf_writeByte m a b h
    simp only [writeBytes, List.length_cons, readBytes]
    rw [readByte_writeBytes_out bs _ (a + 1) a (by omega) hw, readByte_writeByte_self m a b h, ih _ _ hw]

end Sys2Proof.Machine
end

