-- ==== Sys2Proof/Tests/Slice0.lean ====
section
/-! SUPPORT. Tests of single steps on small states, of WellFormed, and of the hypotheses of the obligations. -/
namespace Sys2Proof.Tests
open Sys2Proof Sys2Proof.Machine
set_option Elab.async false

/-! ### Small states -/

/-- A running controller with nothing due, contexts 0 and 1 ACTIVE and ring 0 enabled, its Shutter CLOSED. -/
def base : State :=
  let s := { State.reset with gl := { State.reset.gl with phase := 2, sec := { State.reset.gl.sec with deadbolt := true } } }
  let s := wrReg (wrReg (wrReg s rCqCtrl 0 0 (word (1 + 6 * 2 ^ 16 + 6 * 2 ^ 24))) rMtCtx 0 0 (word 1)) rMtCtx 1 0 (word 1)
  setRing s 0 ⟨1, 0, 4, 0, 0, false, false, false⟩

/-- As base, endpoint 5 with its Shutter OPEN, its frame table built, DEPLOYED, with 4,096 frames
and 8,192 KiB for context 1. -/
def up : State :=
  let s := wrReg (wf base rGlStatus 0 2 0 5) rEpSelf 0 0 (word (5 + 2 ^ 20))
  let s := wrReg (wrReg s rMtAlloc 1 0 (word (4096 + 8192 * 2 ^ 25 + 8 * 2 ^ 44))) rScLc 0 0 (word 3)
  modPg s fun p => { p with tableBuilt := true }

/-- The next state of an outcome. -/
def nextOf (o : Out) : State := match o with | .next s => s | _ => State.reset

def cmd (w0 w1 w2 w3 w4 w7 : Nat) : Cmd := ⟨0, word w0, word w1, word w2, word w3, word w4, 0, 0, word w7, none, none⟩

/-- A header: opcode, tag 7, context, PARAM_LEN 56 (R340). -/
def hdr (op ctx : Nat) : Nat := op + 7 * 2 ^ 16 + ctx * 2 ^ 32 + 56 * 2 ^ 48

/-- A sequence of context 1: one layer, one head group, 100 tokens, at this controller as home and owner. -/
def seqA : Seq :=
  { ctx := 1, st := .runnable, priority := 0, endStatus := 0, length := 100, kvLength := 90, pauseCause := 0, imageId := 0,
    adapterId := 0, adapterVer := 0, hasImage := false, hasAdapter := false, degradable := false, noSpill := false, draft := false,
    geo := ⟨1, 1, 1, 128, 1, 0⟩, btRoot := 0, logRep := [], latchRef := 0, epoch := 3, home := 5, ttl := 0, expiry := 0, stripeRef := 0,
    partner := 0, created := 0, log := [], pages := [], reserve := [], choice := ⟨true, 0, false, 0, 4, 0, 8, 0⟩, lossy := false,
    summarised := 0, mirror := 0, holders := [], group := 0, admitNo := 0, before := .runnable, ttlAsked := 0, pauseAsk := false,
    hintAsk := false, cancelAsk := [], nextStripe := 0, unstriped := [], dropNext := [], prefill := false, early := false }

def homeA : Home :=
  { ctx := 1, owner := 5, st := 0, prefill := false, epoch := 3, offeredTo := 0, assigning := false, offerTime := 0, hingeId := 0,
    mirror := 0, reps := [], logs := [], group := 0, done := (0, 0), expired := false, lost := false, desc := [], bt := [],
    stripes := [], notices := [], noticeFrom := 0, noticeAt := 0, asked := 0, frame := 0 }

/-- The controller with sequence 9 and its home's record. -/
def withSeq (s : State) (x : Seq) (h : Home) : State :=
  modCe (modPg s fun p => { p with seqs := [(9, x)] }) fun c => { c with homes := [(9, h)] }

/-! ### Hypotheses as Booleans -/

def passesB (op : Nat) (c : Cmd) (s : State) : Bool :=
  decide (s.gl.phase = 2) && (checkCmd (taken op c s) op (withOpcode c op)).isNone &&
    (cTxn (withOpcode c op) == 0 || op == 0x09 || op == 0x0A)

theorem passes_of (op : Nat) (c : Cmd) (s : State) (h : passesB op c s = true) : passes op c s := by
  simp only [passesB, Bool.and_eq_true, decide_eq_true_eq, Option.isNone_iff_eq_none, Bool.or_eq_true, beq_iff_eq] at h
  exact ⟨h.1.1, h.1.2, or_assoc.1 h.2⟩

/-- What the hypotheses of a command's statement ask of it: its checks pass, and P holds of its entry and the state it was taken in. -/
def passing (op : Nat) (c : Cmd) (s : State) (P : Cmd → State → Bool) : Bool :=
  passesB op c s && P (withOpcode c op) (taken op c s)

/-- The sequence the check of R271 finds. -/
def ownedB (r : State) (k : Cmd) (q : Nat) : Option Seq :=
  match seqOf r q, homeOf r q with
  | some x, some h => if x.home = self r ∧ x.ctx = cCtx k ∧ h.owner = self r ∧ h.epoch = x.epoch then some x else none
  | _, _ => none

theorem owned_of (r : State) (k : Cmd) (q : Nat) (x : Seq) (h : ownedB r k q = some x) : ownedHere r k q x := by
  unfold ownedB at h
  split at h
  · rename_i y hh h1 h2
    split at h
    · rename_i h3
      cases h
      exact ⟨h1, h3.1, h3.2.1, hh, h2, h3.2.2.1, h3.2.2.2⟩
    · cases h
  · cases h

/-- Whether P holds of what an option holds. -/
def holds {α : Type} (o : Option α) (P : α → Bool) : Bool := match o with | some x => P x | none => false

/-! ### Free choices -/

/-- A scan of a whole circle finds a number that passes. -/
theorem scan_finds (p : Nat → Bool) (lo n : Nat) (f a : Nat) (h : scan p lo n a f = none) : ∀ j, j < f → p (lo + (a + j) % n) = false := by
  induction f generalizing a with
  | zero => intro j hj; omega
  | succ f ih =>
    intro j hj
    unfold scan at h
    split at h
    · cases h
    · rename_i hp
      cases j with
      | zero => simpa using hp
      | succ j => rw [show a + (j + 1) = a + 1 + j by omega]; exact ih (a + 1) h j (by omega)

theorem pick_finds (s : State) (p : Nat → Bool) (lo n i : Nat) (h : i < n) (hp : p (lo + i) = true) :
    ∃ k, pick s p lo n = (some k, { s with freeCtr := s.freeCtr + 1 }) := by
  unfold pick fresh
  simp only
  cases hs : scan p lo n ((Config.freeValue s.freeCtr).toNat % n) n with
  | some k => exact ⟨k, rfl⟩
  | none =>
    exfalso
    generalize ha : (Config.freeValue s.freeCtr).toNat % n = a at hs
    have hlt : a < n := ha ▸ Nat.mod_lt _ (by omega)
    have key := scan_finds p lo n n a hs ((i + n - a) % n) (Nat.mod_lt _ (by omega))
    have : (a + (i + n - a) % n) % n = i := by
      rw [Nat.add_mod_mod, show a + (i + n - a) = i + n by omega, Nat.add_mod_right, Nat.mod_eq_of_lt h]
    rw [this, hp] at key
    cases key

/-- One frame can be taken when some frame is free. -/
theorem one_frame (s : State) (st : FState) (c : Nat) (use : SysUse) (o f : Nat) (h : f < numFrames) (hf : isFree s f = true) :
    ∃ k t, takeFrames s st c use o 1 = some ([k], t) := by
  obtain ⟨k, e⟩ := pick_finds s (isFree s) 0 numFrames f h (by simpa using hf)
  unfold takeFrames takeFrame
  rw [e]
  exact ⟨k, _, rfl⟩

/-- One reserve can be taken when enough frames are free and the context has room. -/
theorem one_reserve (s : State) (c q : Nat) (p : Nat × Nat) (f : Nat) (h : f < numFrames) (hf : isFree s f = true)
    (h1 : lowMark s + 1 ≤ freeFrames s) (h2 : mayTake s c 1 = true) : ∃ rs t, takeReserve s c q [p] = some (rs, t) := by
  obtain ⟨k, t, e⟩ := one_frame s .reserved c .none q f h hf
  unfold takeReserve
  simp only [List.length_singleton, h2]
  rw [if_neg (by simp; omega), e]
  exact ⟨_, _, rfl⟩

theorem pick_none (s : State) (p : Nat → Bool) (lo n i : Nat) (h : (pick s p lo n).1 = none) (hi : i < n) : p (lo + i) ≠ true := by
  intro hp
  obtain ⟨k, e⟩ := pick_finds s p lo n i hi hp
  rw [e] at h
  cases h

/-- A transfer engine is found when one of the 64 is usable and no busier than the others. -/
theorem xe_found (s : State) (i : Nat) (h : i < 64)
    (hp : (let ok := ((List.range 64).map (0 + ·)).filter (xeUsable s)
      ok.contains (0 + i) && qpsOn s (0 + i) == ok.foldl (fun m x => Nat.min m (qpsOn s x)) 2 ^ 32) = true) :
    ∃ x u, chooseXe s 2 = (some x, u) := by
  obtain ⟨x, e⟩ := pick_finds s (fun x => (((List.range 64).map (0 + ·)).filter (xeUsable s)).contains x &&
    qpsOn s x == (((List.range 64).map (0 + ·)).filter (xeUsable s)).foldl (fun m x => Nat.min m (qpsOn s x)) 2 ^ 32) 0 64 i h hp
  exact ⟨x, _, by unfold chooseXe; exact e⟩

/-- A window entry is found while window 1 is free. -/
theorem win_found (s : State) (w : Win) (h : winOf s 1 = none) : ∃ i t x, winAlloc s w = (some i, t) ∧ winOf t i = some x := by
  unfold winAlloc
  split
  · rename_i h1
    exact absurd (by simp [h]) (pick_none _ _ _ _ 0 (congrArg Prod.fst h1) (by decide))
  · exact ⟨_, _, _, rfl, tget_tput_self _ _ _⟩

def qpA (st : Nat) : Qp := { blankQp 1 0 with st := st, remoteEp := 6, remoteQp := 600, tc := 1, rx := (1, 0x4000), rxLog := 4 }

def winA : Win := ⟨true, 1, 0, 4096, true, true, true, none, none, 2, [], none, []⟩

/-- The state a timed command sees, with P asked of it. -/
def run (s : State) (t : Nat) (P : State → Bool) : Bool := s.gl.phase == 2 && P (tick s t)

/-- The region at local address 0, homed, owned and held here. -/
def regionA : RegionR := ⟨5, 0, 0, 1, 4, 0, 0, false, [], none, true, 0, 0, (0, 0), false, none⟩

def homeSt (h : Home) : State := modCe up fun c => { c with homes := [(9, h)] }

def seq9 : Obj := ⟨false, 9⟩
def reg0 : Obj := ⟨true, 5 * 2 ^ 44⟩
def reg6 : Obj := ⟨true, 6 * 2 ^ 44⟩
def offered (st : Nat) (assigning : Bool) : Home := { homeA with owner := 6, st := st, offeredTo := 7, hingeId := 88, assigning := assigning }

/-- The controller as a party of a handoff. -/
def withHinge (offerer : Bool) (phase : Nat) (o : Obj) : State := modCe (withSeq up seqA homeA) fun c =>
  { c with hinges := [⟨o, offerer, none, phase, 88, 6, 7, 3, 1, 0, 0, none, .runnable, false, 0, false, false, false⟩] }

/-- The controller with a request about sequence 9 outstanding at endpoint 6. -/
def withUse (use : ReqUse) : State := modCe up fun c => { c with reqs := [(4, ⟨6, 0, 9, 0, 0, 0, use⟩)] }

def groupA : Group := ⟨2, [5, 6, 7, 8], [], [], [], [9]⟩

/-- The manager of a cell with one group, of which it is a member with HOME_EN set. -/
def mgrG : State := modCe (wrReg up rLtCtrl 0 0 (word 7)) fun c =>
  { c with groups := [(3, groupA)], ledger := [(9, ⟨1, 6, 3, 0, 0, [6, 7, 8]⟩)] }

/-- An index entry of sequence 9: page 0 of layer 0 in frame 0 of this controller. -/
def holdingA : Holding := ⟨9, 0, 0, word (5 * 2 ^ 44), 0, 64, false, 2, 0, 6, 1, 0⟩
/-- A pane job whose page is read. -/
def jobA : PaneJob := ⟨2, 6, [], 1, 0, [], [holdingA], [], [0], [], [], true, 0⟩
def stripeA : StripeE := ⟨2, [0, 1, 2], false, 0, 1, 2, 3, [5 * 2 ^ 44, 6 * 2 ^ 44, 7 * 2 ^ 44, 0], []⟩

def adapterA : Adapter := ⟨1, 2, 0, 0, false, 64, 0, [], (0, 0), 0, true, false, false, false, 0, false, []⟩

/-- An image header: one layer, one head of 128, FP8, 64 bytes of weights. -/
def imageHdr : List Byte :=
  toLE 8 (0x494D4731 + 2 ^ 32) ++ toLE 8 32 ++ toLE 8 (4 + 4 * 16 + 4 * 256 + 2 ^ 12 + 2 ^ 28 + 2 ^ 40 + 128 * 2 ^ 45) ++ toLE 8 (100 + 2 ^ 19) ++
    toLE 8 64 ++ List.replicate 216 0

/-- The controller with transaction 1 open on ring 0. -/
def txnA : Txn := ⟨0, 0, 0, [], false, 0⟩
def upTxn : State := modHost up fun h => { h with txns := [(1, txnA)] }

def late : Nat := 10 ^ 13

/-- The controller with every stack qualified for sprint, and nothing else in its way. -/
def upSprint : State :=
  wrReg (wrReg (wrReg ((List.range 24).foldl (fun s k => wrReg s rMcStatus k 0 (word 18)) up) rPmSprintRemain 0 0 (word (100 * 2 ^ 24))) rPmElec 0 0
    (word 560)) rPmStatus 0 0 (word 16)

def mgr : State := wrReg up rLtCtrl 0 0 (word 7)

/-- A packet of a type, from a source for a queue pair, with a message number, length and payload. -/
def pktA (type src dst qp msn len : Nat) (b : List Byte) : Pkt := ⟨type, 1, 0, 8, false, src, dst, qp, msn, 0, 0, len, 0, 0, 0, 0, b⟩

/-- The controller with queue pair n as given. -/
def withQp (n : Nat) (q : Qp) : State := modFab up fun f => { f with qps := [(n, q)] }

/-- A packet of message 3, offset 0, sent at 0, of a queue pair. -/
def txA (qp : Option Nat) (busy : Bool) (tries : Nat) : TxPkt :=
  ⟨1, pktA ptWrite 5 6 600 3 64 (List.replicate 64 0), qp, 1, 0, 192, 2, 0, tries, busy, 5⟩
def msgA (kind : Nat) : TxMsg := ⟨600, 3, 0, kind, ptWrite, 0, 64, 0, 64, false⟩
def fwA (id : Nat) (qp : Option Nat) : FwMsg := ⟨id, 6, 1, qp, 4, 0, 0, 0, 0, some 9, [], .pane, .plain⟩
def trackA : Track := ⟨6, 600, 2, ptWrite, 64, 64, [], none, 0, 0, 0, 0, []⟩

def accA (kind : Nat) (pend : Option Nat) : RackAcc := ⟨8, kind, 64, 6 * 2 ^ 44, 1, .firmware, pktA ptLoadReq 5 6 0 8 64 [], 0, 0, 1, pend⟩
def upAcc (kind : Nat) (pend : Option Nat) (dead : Nat) : State :=
  modFab up fun f => { f with accs := [(6, ⟨9, [accA kind pend], [], dead⟩)] }

/-! ### Hypotheses of the obligations: a state and operands for each clause -/

/-- A SEQ_CREATE entry: one layer, one head of 128 FP8 elements. -/
def createCmd : Cmd := cmd (hdr 0x10 1) (1 + 2 ^ 16 + 2 ^ 28 + 128 * 2 ^ 33 + 4 * 2 ^ 49) 0 0 0 0

/-- SequenceCommandsComplete, SEQ_CREATE. -/
theorem hyp_seqCreate : passing 0x10 createCmd up (fun k r =>
    let g := createGeo k
    (geometryCheck g.layers g.kvHeads g.hpp g.headDim g.format).isNone && cCtx k == 1 && fld k.w1 54 53 != 3 && partnerOk r k &&
      !wbit k.w1 60 && !wbit k.w1 61 && r.pg.seqs.isEmpty && cells g == [(0, 0)] && isFree r 0 &&
      decide (lowMark r + 1 ≤ freeFrames r) && mayTake r 1 1) = true ∧
    ∃ rs t, takeReserve (taken 0x10 createCmd up) 1 0 [(0, 0)] = some (rs, t) :=
  ⟨by decide +kernel, one_reserve _ _ _ _ 0 (by decide) (by decide +kernel) (by decide +kernel) (by decide +kernel)⟩

/-- SequenceCommandsComplete, the other commands. -/
theorem hyp_sequences : ([
  passing 0x11 { cmd (hdr 0x11 1) 9 0x1000 1 0 0 with buf := some [5, 0, 0, 0] } (withSeq up seqA homeA) (fun k r =>
    holds (ownedB r k 9) fun x => (x.st == .runnable || x.st == .starved) && holds (cmdBytes r k 2 4 k.buf) fun b =>
      decide (fld k.w3 22 0 = 1 ∧ leAt b 0 4 ≤ 262143 ∧ x.length + 0 + 1 ≤ maxLength) && r.ce.logJobs.isEmpty),
  passing 0x12 (cmd (hdr 0x12 1) 9 90 2 0 0) (withSeq up seqA homeA) (fun k r =>
    holds (ownedB r k 9) fun x => x.st == .runnable && decide (fld k.w2 22 0 ≠ 0 ∧ fld k.w2 22 0 ≤ x.kvLength ∧ fld k.w3 1 0 ≠ 3)),
  passing 0x13 (cmd (hdr 0x13 1) 9 86400 0 0 0) (withSeq up seqA homeA) (fun k r =>
    holds (ownedB r k 9) fun x => decide (fld k.w2 16 0 ≤ 86400) && !x.pauseAsk && x.st == .runnable),
  passing 0x14 (cmd (hdr 0x14 1) 9 0 0 0 0) (withSeq up { seqA with st := .paused, reserve := [⟨0, 0, 7⟩] } homeA) (fun k r =>
    holds (ownedB r k 9) fun x => x.st == .paused && x.pauseCause == 0 && holds (fillReserve r 9) fun t => jrRoom (pend t 1 (.resume 9))),
  passing 0x15 (cmd (hdr 0x15 1) 9 0 0 0 0) (withSeq up { seqA with st := .paused } homeA) (fun k r =>
    holds (ownedB r k 9) fun x => x.st == .paused && x.summarised == 0 && !thas r.pg.reports 9),
  passing 0x16 (cmd (hdr 0x16 1) 9 0 0 0 0) (withSeq up seqA homeA) (fun k r =>
    holds (ownedB r k 9) fun x => seqLive x && x.st != .offered),
  passing 0x17 (cmd (hdr 0x17 1) 9 0 0 0 0) (withSeq up { seqA with st := .ended } homeA) (fun k r =>
    holds (ownedB r k 9) fun x => !seqLive x),
  passing 0x18 (cmd (hdr 0x18 1) 9 0x1000 0 0 0) (withSeq up seqA homeA) (fun k r => holds (seqOf r 9) fun x => x.ctx == cCtx k)
  ] : List Bool).all id = true := by decide +kernel

/-- A plan of one WAIT stage with one slot. -/
def planA : List Byte :=
  let stage := toLE 8 (7 + 2 ^ 10) ++ toLE 8 1000 ++ toLE 8 0 ++ List.replicate 40 0
  toLE 8 (0x504C414E + 2 ^ 32) ++ toLE 8 (1 + 2 ^ 16) ++ toLE 8 1000 ++ toLE 8 0 ++ List.replicate 24 0 ++ toLE 8 (192 + crc32c stage * 2 ^ 32) ++
    List.replicate 64 0 ++ stage

def planCmd : Cmd := { cmd (hdr 0x30 1) 0x1000 192 0 0 0 with buf := some planA }

/-- Weights of context 1 in every class. -/
def upW : State := wrReg up rMtShare 1 0 (word (100 * (1 + 2 ^ 16 + 2 ^ 32 + 2 ^ 48)))

/-- PlanAndStepCommandsComplete, PLAN_LOAD. -/
theorem hyp_planLoad : passing 0x30 planCmd upW (fun k r =>
    let p := planOf (cCtx k) planA []
    (cmdBytes r k 1 192 k.buf == some planA) && planForm planA 192 p && planFormats p && planShapes r 1 p && mayTake r 1 1 &&
      decide (1 ≤ freeFrames r) && (p.stages.all fun g => (stageTiles g).all fun d => decide (d.accKib ≤ rf r rMtAlloc 1 52 44)) &&
      ((List.range 4).all fun j => !exceeds (planFrac p j) (weight r j 1) (weightSum r j 1 (weight r j 1)))) = true ∧
    ∃ i t fs u, pick (taken 0x30 planCmd upW) (fun i => !thas (taken 0x30 planCmd upW).st.plans i) 0 4096 = (some i, t) ∧
      takeFrames t .system 1 .plan i 1 = some (fs, u) := by
  refine ⟨by decide +kernel, ?_⟩
  obtain ⟨i, e⟩ := pick_finds (taken 0x30 planCmd upW) (fun i => !thas (taken 0x30 planCmd upW).st.plans i) 0 4096 0 (by decide) (by decide +kernel)
  obtain ⟨k, t, e2⟩ := one_frame { taken 0x30 planCmd upW with freeCtr := (taken 0x30 planCmd upW).freeCtr + 1 } .system 1 .plan i 0 (by decide) (by decide +kernel)
  exact ⟨i, _, _, t, e, e2⟩

/-- The controller with that plan loaded as plan 3. -/
def upPlan : State := modSt upW fun t => { t with plans := [(3, planOf 1 planA [])] }

/-- PlanAndStepCommandsComplete, PLAN_UNLOAD and STEP_SUBMIT. -/
theorem hyp_steps : ([
  passing 0x31 (cmd (hdr 0x31 1) 3 0 0 0 0) upPlan (fun k r => holds (tget r.st.plans 3) fun p => p.ctx == cCtx k && !p.unloading),
  passing 0x32 { cmd (hdr 0x32 1) 3 0x1000 0x2000 0 0 with buf := some (toLE 8 9 ++ List.replicate 120 0) } upPlan (fun k r =>
    holds (tget r.st.plans 3) fun p => p.ctx == cCtx k && !p.unloading && cKind k 3 == 0 && p.slots == 1 &&
      holds (cmdBytes r k 2 (128 * p.slots) k.buf) fun b => bits (w64At b 0) 63 33 == 0 && (slice b 8 56).all (· == 0))
  ] : List Bool).all id = true := by decide +kernel

def imgCmd : Cmd := { cmd (hdr 0x40 1) 0x1000 (1 + 100 * 2 ^ 16) 0 0 0 with buf := some imageHdr }

/-- LoadCommandsComplete, IMG_LOAD. -/
theorem hyp_imgLoad : passing 0x40 imgCmd up (fun k r =>
    let h := slice imageHdr 0 256
    (imageCheck h).isNone && k.buf == some imageHdr && decide (fld k.w2 15 0 ≠ 0 ∧ fld k.w2 38 16 ≤ maxLength ∧ fld k.w2 40 39 ≠ 3) &&
      decide (imageStack h 1 100 ≤ framesAlloc r 1 - framesUsed r 1) && decide (w64At h 0x30 ≤ rf r rMtAlloc 1 43 25 * 1024 - sramInUse r 1) &&
      tfree r.st.images 0 256 == some 0 && imageFrames h == 1) = true ∧
    ∃ fs t u, takeFrames (taken 0x40 imgCmd up) .system 1 .image 0 1 = some (fs, t) ∧ backupSlots t 1 0 1 = some ([], u) := by
  refine ⟨by decide +kernel, ?_⟩
  obtain ⟨k, t, e⟩ := one_frame (taken 0x40 imgCmd up) .system 1 .image 0 0 (by decide) (by decide +kernel)
  exact ⟨_, t, t, e, rfl⟩

/-- An adapter's header: adapter 2, the version given, rank 1, FP8, 64 bytes. -/
def adapterHdr (v : Nat) : List Byte := toLE 8 (2 + v * 2 ^ 16 + 2 ^ 32 + 4 * 2 ^ 41) ++ toLE 8 64 ++ List.replicate 48 0

def adpCmd (op v : Nat) : Cmd := { cmd (hdr op 1) 0x1000 0 0 0 0 with buf := some (adapterHdr v) }

/-- The controller with version 0 of adapter 2 resident, and image 3. -/
def upAdp : State := modSt up fun t => { t with
  adapters := [(7, adapterA)], current := [(2 ^ 16 + 2, 7)], images := [(3, ⟨1, 2, imageHdr, [], 0, 0, 4, 1, 1, 1, 128, [], false, []⟩)] }

/-- LoadCommandsComplete, ADP_LOAD and ADP_REPLACE. -/
theorem hyp_adpLoad (replace : Bool) :
    let op := if replace then 0x45 else 0x44
    let c := adpCmd op (if replace then 1 else 0)
    let s := if replace then upAdp else up
    let r := taken op c s
    passing op c s (fun k r => k.buf == some (adapterHdr (if replace then 1 else 0)) && fld k.w2 1 0 != 3 &&
      (adapterCheck r 1 replace (slice (adapterHdr (if replace then 1 else 0)) 0 64)).isNone && mayTake r 1 1 && decide (1 ≤ freeFrames r)) = true ∧
    ∃ i fs t v, pick r (fun i => !thas r.st.adapters i) 0 4096 = (some i, t) ∧ adapterRun t false 1 = (some 0, t) ∧
      takeFrames t .system 1 .adapter i 1 = some (fs, v) ∧ backupSlots v 1 0 1 = some ([], v) := by
  cases replace
  · refine ⟨by decide +kernel, ?_⟩
    obtain ⟨i, e⟩ := pick_finds (taken 0x44 (adpCmd 0x44 0) up) (fun i => !thas (taken 0x44 (adpCmd 0x44 0) up).st.adapters i) 0 4096 0 (by decide) (by decide +kernel)
    obtain ⟨k, t, e2⟩ := one_frame { taken 0x44 (adpCmd 0x44 0) up with freeCtr := (taken 0x44 (adpCmd 0x44 0) up).freeCtr + 1 } .system 1 .adapter i 0 (by decide) (by decide +kernel)
    exact ⟨i, _, _, t, e, rfl, e2, rfl⟩
  · refine ⟨by decide +kernel, ?_⟩
    obtain ⟨i, e⟩ := pick_finds (taken 0x45 (adpCmd 0x45 1) upAdp) (fun i => !thas (taken 0x45 (adpCmd 0x45 1) upAdp).st.adapters i) 0 4096 0 (by decide) (by decide +kernel)
    obtain ⟨k, t, e2⟩ := one_frame { taken 0x45 (adpCmd 0x45 1) upAdp with freeCtr := (taken 0x45 (adpCmd 0x45 1) upAdp).freeCtr + 1 } .system 1 .adapter i 0 (by decide) (by decide +kernel)
    exact ⟨i, _, _, t, e, rfl, e2, rfl⟩

/-- A grammar of one state and no entry. -/
def grammarA : List Byte :=
  toLE 8 (0x47524D31 + 2 ^ 32) ++ toLE 8 1 ++ toLE 8 1 ++ toLE 8 (crc32c (List.replicate 16 0)) ++ List.replicate 48 0

def gramCmd : Cmd := { cmd (hdr 0x48 1) 0x1000 (80 + 63 * 2 ^ 32) 0 0 0 with buf := some grammarA }

/-- LoadCommandsComplete, GRAMMAR_LOAD. -/
theorem hyp_grammar : passing 0x48 gramCmd up (fun k r =>
    fld k.w2 31 0 == 80 && fld k.w2 37 32 == 63 && cmdBytes r k 1 80 k.buf == some grammarA && grammarA.length == 80 && gramOk grammarA &&
      r.st.grammars.isEmpty && r.pg.seqs.isEmpty && mayTake r 1 1 && decide (cdiv 80 frameBytes = 1 ∧ 1 ≤ freeFrames r)) = true ∧
    ∃ fs t, takeFrames (taken 0x48 gramCmd up) .system 1 .grammar 127 1 = some (fs, t) := by
  refine ⟨by decide +kernel, ?_⟩
  obtain ⟨k, t, e⟩ := one_frame (taken 0x48 gramCmd up) .system 1 .grammar 127 0 (by decide) (by decide +kernel)
  exact ⟨_, t, e⟩

/-- The controller with queue pair 600. -/
def upQp (st : Nat) : State := modFab up fun f => { f with qps := [(600, qpA st)] }

def qpCmd : Cmd := cmd (hdr 0x50 1) 0x1000 0x2000 0 (4 + 16 * 2 ^ 5 + 8 * 2 ^ 15 + 2 * 2 ^ 20) 0

/-- QueuePairCommandsComplete, QP_CREATE. -/
theorem hyp_qpCreate : passing 0x50 qpCmd up (fun k r =>
    let w := k.w4
    decide (4 ≤ fld w 4 0 ∧ fld w 4 0 ≤ 16 ∧ 4 ≤ fld w 9 5 ∧ fld w 9 5 ≤ 16 ∧ 8 ≤ fld w 19 15 ∧ fld w 19 15 ≤ 16 ∧ fld w 21 20 ≠ 3 ∧ k.w3 = 0 ∧
      fld w 14 10 = 0) && Machine.ringOk r 1 (cKind k 1) k.w1.toNat (64 * 2 ^ 4) && Machine.ringOk r 1 (cKind k 2) k.w2.toNat (32 * 2 ^ 16)) = true ∧
    ∃ n x t u, pick (taken 0x50 qpCmd up) (fun n => !thas (taken 0x50 qpCmd up).fab.qps n) 512 65024 = (some n, t) ∧ chooseXe t 2 = (some x, u) := by
  refine ⟨by decide +kernel, ?_⟩
  obtain ⟨n, e⟩ := pick_finds (taken 0x50 qpCmd up) (fun n => !thas (taken 0x50 qpCmd up).fab.qps n) 512 65024 0 (by decide) (by decide +kernel)
  obtain ⟨x, u, e2⟩ := xe_found { taken 0x50 qpCmd up with freeCtr := (taken 0x50 qpCmd up).freeCtr + 1 } 63 (by decide) (by decide +kernel)
  exact ⟨n, x, _, u, e, e2⟩

/-- QueuePairCommandsComplete, the other commands. -/
theorem hyp_queuePairs : ([
  passing 0x51 (withAction (cmd (hdr 0x51 1) 600 (6 + 600 * 2 ^ 20 + 6 * 2 ^ 36) (500 + 7 * 2 ^ 10 + 256 * 2 ^ 13) 0 0) 0) (upQp 0) (fun k r =>
    holds (cmdQp r k (fld k.w1 15 0)) fun q => q.st == 0 && q.connect.isNone && connectOk k),
  passing 0x51 (withAction (cmd (hdr 0x51 1) 600 0 0 0 0) 1) (upQp 1) (fun k r =>
    holds (cmdQp r k (fld k.w1 15 0)) fun q => q.st == 1 && k.w2 == 0 && k.w3 == 0),
  passing 0x51 (withAction (cmd (hdr 0x51 1) 600 0 0 0 0) 2) (upQp 2) (fun k r =>
    holds (cmdQp r k (fld k.w1 15 0)) fun q => q.st == 2 && k.w2 == 0 && k.w3 == 0),
  passing 0x51 (withAction (cmd (hdr 0x51 1) 600 0 0 0 0) 3) (upQp 3) (fun k r =>
    holds (cmdQp r k (fld k.w1 15 0)) fun q => q.st == 3 && k.w2 == 0 && k.w3 == 0),
  passing 0x52 (cmd (hdr 0x52 1) 600 0 0 0 0) (upQp 1) (fun k r => (cmdQp r k (fld k.w1 15 0)).isSome),
  passing 0x41 (cmd (hdr 0x41 1) 3 0 0 0 0) upAdp (fun k r =>
    holds (tget r.st.images (fld k.w1 7 0)) fun im => im.ctx == cCtx k && decide (2 ≤ im.st) && !imageNamed r (cCtx k) 3),
  passing 0x46 (cmd (hdr 0x46 1) 2 0 0 0 0) upAdp (fun k r =>
    (tget r.st.current (cCtx k * 2 ^ 16 + fld k.w1 15 0)).isSome && !adapterMoving r (cCtx k) (fld k.w1 15 0) &&
      !(r.st.adapters.any fun kv => kv.2.ctx == cCtx k && kv.2.id == fld k.w1 15 0 && kv.2.pendingSwitch)),
  passing 0x46 (cmd (hdr 0x46 1) 2 0 0 0 0) (modSt upAdp fun t => { t with adapters := [(7, { adapterA with pendingSwitch := true })] }) (fun k r =>
    thas r.st.current (cCtx k * 2 ^ 16 + fld k.w1 15 0) && (r.st.adapters.any fun kv =>
      kv.2.ctx == cCtx k && kv.2.id == fld k.w1 15 0 && kv.2.pendingSwitch))
  ] : List Bool).all id = true := by decide +kernel

/-- The controller with frame 0 held by context 1, and window 5. -/
def upWin : State := modFab (setFrame up 0 ⟨.opened, 0, 1, 0, 0, 1, .none, 9⟩) fun f => { f with wins := [(5, winA)] }

def winCmd : Cmd := cmd (hdr 0x54 1) 0 64 7 0 1

/-- WindowCommandsComplete, WINDOW_CREATE. -/
theorem hyp_winCreate : passing 0x54 winCmd upWin (fun k r => decide (64 ≤ k.w2.toNat ∧ k.w2.toNat ≤ 2 ^ 32 ∧ k.w1.toNat % 64 = 0) &&
      localOk r 1 k.w1.toNat k.w2.toNat && !wbit k.w3 3) = true ∧
    ∀ w : Win, ∃ i t x, winAlloc (taken 0x54 winCmd upWin) w = (some i, t) ∧ winOf t i = some x :=
  ⟨by decide +kernel, fun w => win_found _ w (by decide +kernel)⟩

/-- WindowCommandsComplete, the other commands. -/
theorem hyp_windows : ([
  passing 0x55 (cmd (hdr 0x55 1) (5 + 2 * 2 ^ 24) 0 0 0 0) upWin (fun k r => cmdWin r k == some 5),
  passing 0x56 (cmd (hdr 0x56 1) (5 + 2 * 2 ^ 24) 0 0 0 0) upWin (fun k r => cmdWin r k == some 5)
  ] : List Bool).all id = true := by decide +kernel

def upReg : State := modCe (modFab up fun f => { f with regions := [(0, regionA)] }) fun c => { c with regs := [(5 * 2 ^ 44, ⟨1, 4, 0⟩)] }

/-- RegionAndLatchCommandsComplete. -/
theorem hyp_regions : ([
  passing 0x58 (cmd (hdr 0x58 1) 0 0 0 0 1) up (fun k r =>
    let base := k.w1.toNat
    base % 0x200000 == 0 && decide (base / frameBytes < numFrames ∧ fld k.w2 21 20 = 0) && cCtx k == 1 && mayTake r (cCtx k) 32 &&
      (List.range 32).all fun i => isFree r (base / frameBytes + i)),
  passing 0x59 (cmd (hdr 0x59 1) (5 * 2 ^ 44) (4 * 2 ^ 32 + 2) 0 0 2) upReg (fun k r =>
    let a := k.w1.toNat
    a / 2 ^ 44 == self r && !wbit k.w2 0 && (regionModCheck r (self r) (cCtx k) a (fld k.w2 63 32) false (fld k.w2 2 1)).isNone &&
      (cachedLines r (a % 2 ^ 44)).isEmpty),
  (let c := cmd (hdr 0x59 1) (5 * 2 ^ 44) (4 * 2 ^ 32) 0 0 2
   passing 0x59 { c with w2 := setFld c.w2 0 0 1 } upReg (fun k r =>
    let a := k.w1.toNat
    a / 2 ^ 44 == self r && (regionModCheck r (self r) (cCtx k) a (fld k.w2 63 32) true (fld k.w2 2 1)).isNone &&
      (cachedLines r (a % 2 ^ 44)).isEmpty)),
  passing 0x5A (cmd (hdr 0x5A 1) 9 0 0 0 0) (withSeq up seqA homeA) (fun k r =>
    knownHome r (cmdObj k) == some (self r) && (lvOf r (cmdObj k)).isSome),
  passing 0x5B (cmd (hdr 0x5B 1) 9 (6 * 2) 3 0 0) (modCe (wrReg up rLtCtrl 0 0 (word 7)) fun c => { c with ledger := [(9, ⟨1, 6, 0, 0, 0, []⟩)] })
    (fun k r => isMgr r && !(cmdObj k).region && ((tget r.ce.ledger (cmdObj k).id).map (·.home)) == some 6),
  passing 0x5B (cmd (hdr 0x5B 1) (5 * 2 ^ 44) (6 * 2 + 1) 4 0 2) (wrReg upReg rLtCtrl 0 0 (word 7))
    (fun k r => isMgr r && (cmdObj k).region),
  passing 0x5C (cmd (hdr 0x5C 1) 9 (6 * 2) 3 0 0) (withSeq up seqA homeA) (fun k r =>
    holds (ownedB r k 9) fun x => k.w1.toNat % 2 ^ 32 == 9 && !wbit k.w2 0 && fld k.w2 20 1 != self r && fld k.w3 31 0 == x.epoch && x.st == .runnable),
  passing 0x5C (cmd (hdr 0x5C 1) (5 * 2 ^ 44) (6 * 2 + 1) 4 0 2) upReg (fun k r =>
    let o := cmdObj k
    o.region && o.id / 2 ^ 44 == self r && holds (lvOf r o) fun v => v.owner == self r && holds (tget r.ce.regs o.id) fun g =>
      g.ctx == cCtx k && v.epoch == g.epoch && fld k.w2 20 1 != self r && fld k.w3 31 0 == g.epoch)
  ] : List Bool).all id = true := by decide +kernel

/-- AdminCommandsComplete. -/
theorem hyp_admin : ([
  passing 0x00 (cmd (hdr 0 0) 0x1000 0 0 0 0) base (fun k _ => cKind k 1 == 0),
  passing 0x01 (cmd (hdr 1 0) 2 0 0 0 0) base (fun k r => fld k.w1 1 0 != 3 && shutter r == 0),
  passing 0x02 (cmd (hdr 2 0) 3 0 0 0 0) base (fun _ _ => true),
  passing 0x08 (cmd (hdr 8 0) 0 0 0 0 0) up (fun _ r => decide (txnsOpen r < 8) && r.host.txns.isEmpty && tfree r.host.txns 1 255 == some 1),
  passing 0x09 (cmd (hdr 9 0 + 2 ^ 40) 0 0 0 0 0) upTxn (fun k r =>
    holds (tget r.host.txns (cTxn k)) fun x => x.ring == k.ring && !x.committing),
  passing 0x0A (cmd (hdr 10 0 + 2 ^ 40) 0 0 0 0 0) upTxn (fun k r =>
    holds (tget r.host.txns (cTxn k)) fun x => x.ring == k.ring && !x.committing),
  passing 0x0C (cmd (hdr 12 0) 600000 0 0 0 0) up (fun k r => decide (fld k.w1 31 0 ≤ 600000) && shutter r == 2),
  passing 0x0D (cmd (hdr 13 0) 0 0 0 0 0) (wrReg (wrReg base rEpSelf 0 0 (word (5 + 2 ^ 20))) rScLc 0 0 (word 3)) (fun _ r =>
    shutter r == 0 && (openCheck (pend r 1 .shutter)).isNone),
  passing 0x0E (cmd (hdr 14 0) 0 0 0 0 0) base (fun _ _ => true),
  passing 0x0F (cmd (hdr 15 0) 0 0 0 0 0) base (fun _ _ => true),
  passing 0xE0 (cmd (hdr 0xE0 0) 5 6 0 0 0) base (fun _ _ => true),
  passing 0xE1 (cmd (hdr 0xE1 0) 25165823 0x1000 0 0 0) base (fun k _ => decide (fld k.w1 24 0 < numFrames))
  ] : List Bool).all id = true := by decide +kernel

/-- SharingAndPowerCommandsComplete. -/
theorem hyp_sharing : ([
  passing 0x70 (cmd (hdr 0x70 0) (31 + 7 * 2 ^ 5 + 2 ^ 8 + 2 ^ 9 + 2 ^ 10) (256 + 100000 * 2 ^ 19 + 4176 * 2 ^ 36) (1 + 4176 * 2 ^ 17) 0 0) up
    (fun k r => (shaperCheck k r).isNone),
  passing 0x71 (cmd (hdr 0x71 0) 23 (10 + 4176 * 2 ^ 17) (10 + 4176 * 2 ^ 17) 100 0) up (fun k r => (policerCheck k r).isNone),
  passing 0x72 (cmd (hdr 0x72 0) 1 (1 + 2 ^ 16 + 2 ^ 32 + 2 ^ 48) 1 0 0) up (fun k r => (shareCheck k r).isNone && shareFits r k),
  passing 0x73 (cmd (hdr 0x73 0) (1 + 2 * 2 ^ 8) (86400 * 2 ^ 26) 0 0 0) up (fun k r => (tierCheck k r).isNone),
  passing 0x74 (cmd (hdr 0x74 0) 2 (1 + 2 ^ 16 + 2 ^ 32 + 2 ^ 48) (1 + 4096 * 2 ^ 16) 512 0)
    (wrReg up rMtPool 0 0 (word (25165824 + 221184 * 2 ^ 25))) (fun k r =>
    let x := fld k.w1 7 0
    !ctxLeaving r x && x != 0 && ctxState r x != 1 && match ctxCheck r x k with | .inr _ => true | .inl _ => false),
  passing 0x75 (cmd (hdr 0x75 0) 1 0 0 0 0) up (fun k r =>
    let x := fld k.w1 7 0
    !ctxLeaving r x && x != 0 && ctxState r x != 0 && ctxState r x != 2 && !ctxInUse r x),
  passing 0x75 (cmd (hdr 0x75 0) 1 0 0 0 0) (withSeq up seqA homeA) (fun k r =>
    let x := fld k.w1 7 0
    !ctxLeaving r x && x != 0 && ctxState r x != 0 && ctxState r x != 2 && ctxInUse r x),
  passing 0x80 (cmd (hdr 0x80 0) 1000 0 0 0 0) (wrReg up rPmStatus 0 0 (word 1)) (fun _ r => !windDown r && inSprint r),
  passing 0x80 (cmd (hdr 0x80 0) 1000 0 0 0 0) upSprint (fun _ r => !windDown r && !inSprint r && (sprintCheck r).isNone),
  passing 0x81 (cmd (hdr 0x81 0) 0 0 0 0 0) up (fun _ _ => true),
  passing 0x82 (cmd (hdr 0x82 0) 1100 0 0 0 0) up (fun k r => (capCheck k r).isNone)
  ] : List Bool).all id = true := by decide +kernel

/-- StagedCommandsWait, with 63 commands staged: one for each opcode. -/
theorem hyp_staged : ([
  (0x02, 3, 0, 0, 0), (0x70, 31 + 2 ^ 8, 256, 0, 0), (0x71, 31, 0, 0, 10), (0x72, 1, 0, 0, 0), (0x73, 1, 0, 0, 0), (0x82, 400, 0, 0, 0)
  ].all fun (a : Nat × Nat × Nat × Nat × Nat) =>
    let op := a.1
    let c := cmd (hdr op 0 + 2 ^ 40) a.2.1 a.2.2.1 a.2.2.2.1 a.2.2.2.2 0
    let s := modHost up fun h => { h with txns := [(1, { txnA with staged := List.replicate 63 (2, c) })] }
    let k := withOpcode c op
    let r := taken op c s
    s.gl.phase == 2 && (checkCmd r op k).isNone && cTxn k == 1 &&
      (holds (tget r.host.txns (cTxn k)) fun t => t.ring == k.ring && !t.committing && decide (t.staged.length < 64)) &&
      (op != 0x70 || (shaperCheck k r).isNone) && (op != 0x71 || (policerCheck k r).isNone) && (op != 0x72 || (shareCheck k r).isNone) &&
      (op != 0x73 || (tierCheck k r).isNone) && (op != 0x82 || (capCheck k r).isNone)) = true := by decide +kernel

/-- StepRunsFrontCommand, StepPopsOneCommand and StepKeepsQueueWf. -/
theorem hyp_step :
    let s := { base with pending := [.epSelfLock 7, .d3hotEntry 8] }
    (queueWf s && decide (s.pending = [.epSelfLock 7, .d3hotEntry 8])) = true ∧ ∃ t, step s = .next t := by
  refine ⟨by decide +kernel, ?_⟩
  exact ⟨_, rfl⟩

/-- The controller with four entries waiting on ring 0, and one reply. -/
def upRing : State := setRing up 0 ⟨1, 0, 4, 0, 1, false, false, false⟩

/-- RingRowsComplete. -/
theorem hyp_ringRows : ([
  run upRing 7 (fun u => ringLive u 0 && doorbellOk (ring u 0).sqTail (ring u 0).sqHead (2 ^ rf u rCqCtrl 0 20 16) 64),
  run upRing 7 (fun u => ringLive u 0 && !doorbellOk (ring u 0).sqTail (ring u 0).sqHead (2 ^ rf u rCqCtrl 0 20 16) 65),
  run upRing 7 (fun u => ringLive u 0 && doorbellOk (ring u 0).cqHead (ring u 0).cqTail (2 ^ rf u rCqCtrl 0 28 24) 1),
  run upRing 7 (fun u => ringLive u 0 && !doorbellOk (ring u 0).cqHead (ring u 0).cqTail (2 ^ rf u rCqCtrl 0 28 24) (2 ^ 31)),
  run upRing 7 (fun u => mayTakeCmd u 0 { cmd (hdr 0xE0 0) 5 6 0 0 0 with ring := 0 }),
  run (setRing upRing 255 ⟨0, 0, 0, 0, 0, false, false, false⟩) 7 (fun u =>
    let w := word (1 + 4 * 2 ^ 16 + 16 * 2 ^ 24)
    decide (w.toNat &&& definedMask rCqCtrl = w.toNat) && !rbit u rCqCtrl 255 0 && wbit w 0 && decide (4 ≤ fld w 20 16 ∧ fld w 20 16 ≤ 16) &&
      decide (4 ≤ fld w 28 24 ∧ fld w 28 24 ≤ 16)),
  run up 7 (fun u =>
    let w := word (1 + 16 * 2)
    decide (w.toNat &&& definedMask rEqCtrl = w.toNat) && !rbit u rEqCtrl 63 0 && wbit w 0 && decide (4 ≤ fld w 5 1 ∧ fld w 5 1 ≤ 16)),
  run (wrReg up rEqCtrl 3 0 (word (1 + 4 * 2))) 7 (fun u => rbit u rEqCtrl 3 0)
  ] : List Bool).all id = true := by decide +kernel

/-- The controller with aperture 3 open for reading and writing, counting its last doorbell, over frame 0 of context 1. -/
def upApt : State :=
  wrReg (wrReg (wrReg (setFrame up 0 ⟨.opened, 0, 1, 0, 0, 1, .none, 9⟩) rSpApt0 3 0 (word (2 ^ 18))) rSpApt1 3 0 (word 0)) rSpApt2 3 0
    (word (7 + 8 + 2 ^ 11))

/-- RegisterRowsComplete. -/
theorem hyp_registerRows : ([
  run (wrReg up rTeContext 63 0 (word (256 + 1))) 7 (fun u => rbit u (contextReg 0) 63 8),
  run (wrReg up rCuContext 23 0 (word (256 + 1))) 7 (fun u => rbit u (contextReg 3) 23 8),
  run up 7 (fun u => rbit u rEpCtrl 23 0),
  run base 7 (fun u => !rbit u rEpSelf 0 20),
  run upApt 7 (fun u => rbit u rSpApt2 3 0 && aptFor u 0 8 false == some 3 && aptFor u (65536 - 8) 8 true == some 3 &&
    rbit u rSpApt2 3 11 && aptOk u 3 1),
  run (wrReg upApt rSpApt2 3 0 (word 0)) 7 (fun u => !rbit u rSpApt2 3 0 && aptOk u 3 (bits ((7 + 8 + 2 ^ 11) % 2 ^ 16) 10 3)),
  run up 7 (fun _ => rangesOk rPmHoldupReq (rdReg base rPmHoldupReq 0 0) && rangesOk rPmHoldupCfg (rdReg base rPmHoldupCfg 0 0)),
  run up 7 (fun _ => decide ((word 5).toNat &&& definedMask rXeArmCtr = (word 5).toNat)),
  run up 7 (fun _ => decide (rPgFreeWm.base % 8 = 0 ∧ rPgFreeWm.base < 0x4000000) && (findReg rPgFreeWm.base allRegs).isSome),
  run (modGlobal (wrReg up rGlStatus 0 0 (setFld (rdReg up rGlStatus 0 0) 0 0 1)) fun g => { g with mbOffset := some 0 }) 7
    (fun u => u.gl.mbOffset == some 0 && mbServed 0 && rbit u rGlStatus 0 0 && (findReg 0 allRegs).isSome)
  ] : List Bool).all id = true := by decide +kernel

/-- A controller in a life-cycle state with a token for the next, whose signature holds. -/
theorem hyp_go (s : State)
    (h1 : w64At (lcToken s) 0 / 8 = 0) (h2 : slice (lcToken s) 0x18 8 = List.replicate 8 0) (h3 : slice (lcToken s) 0x110 16 = List.replicate 16 0)
    (h4 : slice (lcToken s) 0x20 48 = List.replicate 48 0) (h5 : leAt (lcToken s) 0 1 % 8 = lcState s + 1) (h6 : lcState s < 4)
    (h7 : w64At (lcToken s) 8 = (rdReg s rScDeviceId 0 0).toNat) (h8 : w64At (lcToken s) 0x10 = (rdReg s rScLcNonce 0 0).toNat)
    (h9 : Config.sha384 (slice (lcToken s) 0x50 96) = signerHash s)
    (h10 : Config.ecdsaVerify (slice (lcToken s) 0x50 96) (Config.sha384 (slice (lcToken s) 0 0x50)) (slice (lcToken s) 0xB0 96) = true)
    (h11 : s.gl.sec.conditions = []) : lcCheck s = none := by
  unfold lcCheck
  dsimp only
  rw [if_neg, if_neg (by simp [h7]), if_neg (by simp [h8]), if_neg (by simp [h9, h10]), if_neg (by simp [h11])]
  rw [h1, h2, h3, h4, h5]
  simp
  omega

/-- InterruptRowsComplete. -/
theorem hyp_interrupts : ([
  run up 7 (fun u => !isLevel u 0x100 && !isLevel u 0x22C),
  run up 7 (fun u => isLevel u 0x22D && srcType 0x22D != 2 && isLevel u 0x234),
  run (modIntr (wrReg (wrReg up rIcSrc 0x230 0 (word (2 ^ 31 + 5 * 2 ^ 8 + 2 * 2 ^ 28))) rIcCoreMask 2 0 (word (255 * 2 ^ 8))) fun i =>
    { i with corePend := [0x230] }) 7 (fun u => claimOf u 2 == some 0x230),
  run up 7 (fun u => claimOf u 2 == none && !(u.intr.corePend.any fun n => rbit u rIcSrc n 31 && rf u rIcSrc n 30 28 == 2)),
  run (modIntr up fun i => { i with active := [(2, [(1, 0x230)])] }) 7 (fun u => coreStack u 2 == [(1, 0x230)] && !isLevel u 0x230),
  run (wrReg up rIcVec 9 0 (word (2 ^ 19))) 7 (fun u => rbit u rIcVec 9 19),
  run (modIntr (wrReg up rCqCtrl 0 0 (word (1 + 6 * 2 ^ 16 + 6 * 2 ^ 24 + 9 * 2 ^ 32 + 2 ^ 43))) fun i =>
    { i with hostPend := [0], unmasked := [9], vecs := [(9, ⟨1, 0, false⟩)] }) 7 (fun u =>
    let vs := ((u.intr.hostPend ++ u.intr.asserted).map fun n => (hostRoute u n).1).eraseDups
    (sortBy (vecBefore u) (vs.filter (vecSendable u))).head? == some 9),
  run (modIntr (wrReg up rIcVec 9 0 (word (3 + 2 * 2 ^ 8))) fun i => { i with vecs := [(9, ⟨1, 0, false⟩)] }) 2000 (fun u =>
    (vecS u 9).count != 0 && rf u rIcVec 9 17 8 != 0 && decide ((vecS u 9).firstAt + rf u rIcVec 9 17 8 * 1000 ≤ u.now))
  ] : List Bool).all id = true := by decide +kernel

def wrA (op : Nat) (armed dl : Bool) : WorkReq := ⟨op, true, false, armed, dl, false, 2, 0, 0, 0, 0, 77, 0, 0, 64, 5, 0, 0, 0, 0, 9⟩
def runA (op st : Nat) (armed held dl : Bool) (msgs : List Nat) : WrRun := ⟨wrA op armed dl, st, msgs, 0, 0, 0, 0, held, 0⟩

/-- WorkRequestRowsComplete. -/
theorem hyp_workRequests : ([
  run (withQp 600 { qpA 1 with sqLog := 4, pi := 3, ci := 0 }) 7 (fun u => holds (qpOf u 600) fun q =>
    q.st != 3 && decide (sub32 16 q.pi ≤ 2 ^ 31 ∧ sub32 16 q.ci ≤ 2 ^ q.sqLog)),
  run (withQp 600 { qpA 1 with cqTail := 2 }) 7 (fun u => holds (qpOf u 600) fun q => decide (sub32 2 q.cqCi ≤ sub32 q.cqTail q.cqCi)),
  run (withQp 600 { qpA 1 with rxNext := 2 }) 7 (fun u => holds (qpOf u 600) fun q => decide (sub32 2 q.rxCi ≤ sub32 q.rxNext q.rxCi)),
  [1, 2, 3, 5, 7, 9].all fun op => run (withQp 600 { qpA 1 with wrs := [(0, runA op 0 false false false [])] }) 7 (fun u =>
    holds (qpOf u 600) fun q => holds (sqHeadWr q) fun kr => !kr.2.held && kr.2.wr.opcode == op),
  run (wrReg (withQp 600 { qpA 1 with wrs := [(0, runA 1 0 true true false [])] }) rXeArmCtr 18 0 (word 5)) 7 (fun u =>
    holds (qpOf u 600) fun q => holds (sqHeadWr q) fun kr => kr.2.held && armedReady u q.ctx kr.2.wr)
  ] : List Bool).all id = true := by decide +kernel

/-- The controller with queue pair 600, message 3 in flight on it, and message 2 arrived. -/
def upFlight (q : Qp) (kind : Nat) (busy : Bool) (tries : Nat) : State := modFab (withQp 600 q) fun f =>
  { f with txs := [txA (some 600) busy tries], msgs := [msgA kind], tracks := [trackA], wins := [(5, winA)] }

/-- QueuePairTimersComplete. -/
theorem hyp_queuePairTimers : ([
  run (withQp 600 { qpA 1 with wrs := [(0, runA 1 1 false false true [3])] }) 9 (fun u => holds (qpOf u 600) fun q => holds (tget q.wrs 0) fun r =>
    r.st == 1 && r.wr.hasDeadline && decide (r.wr.deadline ≤ u.now)),
  run (modFab (withQp 7 (qpA 1)) fun f => { f with fw := [fwA 1 (some 7)] }) 9 (fun u => (qpOf u 7).isSome &&
    holds (u.fab.fw.find? (fun m => m.qp == some 7 && m.msn == 4)) fun m => holds m.deadline fun d => decide (d ≤ u.now)),
  [(0, 0), (7, 3999999)].all fun a => run (upFlight (qpA 1) 0 false a.1) 4000000 (fun u => holds (qpOf u 600) fun q =>
    holds (u.fab.txs.find? (fun x => x.qp == some 600 && x.pkt.msn == 3 && x.pkt.offset == 0 && x.st == 2 && !x.busy)) fun p =>
    holds (u.fab.msgs.find? (fun m => m.qp == 600 && m.msn == 3 && (m.kind == 4) == (p.pkt.type == ptReadResp))) fun m =>
      m.kind == 0 && (atomicOver u 600 3).isNone && decide (p.sentAt + q.timeoutUs * 1000 ≤ u.now) && (a.1 != 7 || decide (q.retry ≤ p.tries))),
  run (upFlight (qpA 1) 0 false 6) 3999999 (fun u => holds (qpOf u 600) fun q =>
    holds (u.fab.txs.find? (fun x => x.qp == some 600 && x.pkt.msn == 3 && x.pkt.offset == 0 && x.st == 2 && !x.busy)) fun p =>
    holds (u.fab.msgs.find? (fun m => m.qp == 600 && m.msn == 3 && (m.kind == 4) == (p.pkt.type == ptReadResp))) fun m =>
      m.kind == 0 && (atomicOver u 600 3).isNone && decide (p.sentAt + q.timeoutUs * 1000 ≤ u.now) && decide (p.tries < q.retry) && decide (u.now < m.firstAt + 4000000)),
  run (upFlight (qpA 1) 0 false 0) 4000000 (fun u => holds (u.fab.msgs.find? (fun m => m.qp == 600 && m.msn == 3)) fun m =>
    m.kind == 0 && decide (m.firstAt + 4000000 ≤ u.now) &&
      u.fab.txs.any fun p => p.qp == some 600 && p.pkt.msn == 3 && (p.tries != 0 || p.st == 2)),
  run (upFlight (qpA 1) 0 true 0) 7 (fun u =>
    holds (u.fab.txs.find? (fun x => x.qp == some 600 && x.pkt.msn == 3 && x.pkt.offset == 0 && x.busy)) fun p => decide (p.busyAt ≤ u.now)),
  run (withQp 600 { qpA 0 with connect := some 1, lastPkt := some 0 }) 8000000 (fun u => holds (qpOf u 600) fun q => q.connect.isSome && guardOver u q),
  run (withQp 7 { qpA 0 with connect := some 1 }) 7 (fun u => holds (qpOf u 7) fun q => q.connect.isSome && guardOver u q),
  run (upFlight (qpA 1) 0 false 0) 7 (fun u => (winOf u 5).isSome),
  run (withQp 600 { qpA 1 with seen := [(4, 0)], rxBase := 2 }) 8000000 (fun u => holds (qpOf u 600) fun q => holds (tget q.seen 4) fun since =>
    msnPlace q 4 == 1 && decide (since + 8000000 ≤ u.now)),
  run (upFlight (qpA 1) 0 false 0) 7 (fun u => holds (trackOf u 600 2) fun x => x.count == x.length),
  run (withQp 7 (qpA 1)) 7 (fun u => serving (msgVisible u 7 4))
  ] : List Bool).all id = true := by decide +kernel

/-- The controller with port 2 training, or up. -/
def upPort (st tries : Nat) : State := setPort (wrReg up rEpStatus 2 0 (word (st + 2 ^ 4))) 2 ⟨tries, [], 0, true, [0, 0], 0⟩

/-- PortRowsComplete. -/
theorem hyp_ports : ([
  [([0, 1], 0), ([0, 1, 2, 3], 0), ([0], 3)].all fun a => run (upPort 1 a.2) 7 (fun u => rf u rEpStatus 2 1 0 == 1 && rbit u rEpCtrl 2 0 &&
    (let p := portS u 2
     let got := widthOf a.1 (maxLanes u 2)
     let best := if p.tries = 0 ∨ got.length > (widthOf p.best (maxLanes u 2)).length then a.1 else p.best
     let w := setPort u 2 { p with tries := p.tries + 1, best := best }
     let more := decide (got.length < maxLanes w 2 ∧ p.tries + 1 < rf w rEpLinkCtrl 2 19 16)
     if a.1 == [0, 1] then more else if a.1 == [0] then !more else !more && decide (4 ≤ (widthOf best (maxLanes w 2)).length))),
  run (upPort 2 0) 7 (fun u => portUp u 2 && rbit u rEpStatus 2 (4 + 0)),
  run (modFab up fun f => { f with dests := [(6, ⟨[(3, ⟨64, 1, 0, 0, 0, 0, 0, 0⟩)], [], 0⟩)] }) 1000000000 (fun u =>
    holds (tget u.fab.dests 6) fun x => decide (x.lastUsed + 100000000 ≤ u.now) && (x.paths.all fun p => p.2.inflight == 0) &&
      holds (tget x.paths 3) fun y => y.weight == 1 && decide (y.oneSince + rf u rEpCcPath 0 31 16 * 1000 ≤ u.now)),
  run (modFab up fun f => { f with keys := ⟨[(0, 1), (1, 2)], none, some 0, some 1⟩ }) 8000000 (fun u =>
    holds u.fab.keys.newSeen fun a => holds u.fab.keys.seenPhase fun p => decide (a + 8000000 ≤ u.now) && p == 1),
  run (upAcc 0 none 0) 1023000 (fun u => holds ((accSeq u 6).out.find? (fun a => a.msn == 8 && a.kind != 2)) fun a =>
    a.sends != 0 && decide (a.firstAt + rf u rFlLoadTimeout 0 10 0 * 1000 ≤ u.now)),
  run (wrReg (upAcc 1 none 0) rFlLoadTimeout 0 0 (word (50 + 10 * 2 ^ 16))) 49999 (fun u =>
    holds ((accSeq u 6).out.find? (fun a => a.msn == 8 && a.kind != 2)) fun a =>
      a.sends != 0 && decide (u.now < a.firstAt + rf u rFlLoadTimeout 0 10 0 * 1000 ∧ a.sentAt + rf u rFlLoadTimeout 0 24 16 * 1000 ≤ u.now)),
  run (upAcc 2 none 0) 1023000 (fun u => holds ((accSeq u 6).out.find? (fun a => a.msn == 8 && a.kind == 2)) fun a =>
    a.pendAt.isNone && a.sends != 0 && decide (a.sentAt + rf u rFlAtomicRetry 0 10 0 * 1000 ≤ u.now)),
  run (upAcc 2 (some 9) 0) 9 (fun u => holds ((accSeq u 6).out.find? (fun a => a.msn == 8 && a.kind == 2)) fun a =>
    holds a.pendAt fun p => decide (p ≤ u.now)),
  run (upAcc 2 none 9) 9 (fun u => (accSeq u 6).deadTo != 0 && decide ((accSeq u 6).deadTo ≤ u.now)),
  run (wrReg (wrReg (wrReg up rFlCtrl 0 0 (word 2)) rFlQuad 0 0 (word (6 + 2 ^ 20))) rFlQuad 1 0 (word (5 + 2 ^ 20))) 7 (fun u =>
    quadPos u 6 == some 0 && rbit u rFlCtrl 0 1 && self u != 6)
  ] : List Bool).all id = true := by decide +kernel

/-- The controller with CXL port 0 up with one device, or one device gone. -/
def upCxl (gone : List Nat) : State :=
  setCxl (wrReg up rMcTierPorts 0 0 (word (2 ^ 52))) 0 ⟨none, [1024, 1024], gone⟩

/-- LinkRowsComplete. -/
theorem hyp_links : ([
  run (modGlobal up fun g => { g with hp := .down }) 7 (fun u => u.gl.hp != .l0),
  run (modGlobal up fun g => { g with hp := .l0 }) 7 (fun u => u.gl.hp == .l0),
  run (modGlobal up fun g => { g with hp := .down, hpOutAt := some 0 }) 70000000000 (fun u => holds u.gl.hpOutAt fun a =>
    !u.gl.perst && !rbit u rGlStatus 0 6 && decide (a + rf u rGlHotplug 0 15 0 * 1000000 ≤ u.now)),
  run (upCxl []) 7 (fun u => cxlMode u 0 && rbit u rMcTierPorts 0 (52 + 0) && decide (1 < (cxlOf u 0).devices.length) && !(cxlOf u 0).gone.contains 1),
  run (upCxl [1]) 7 (fun u => cxlMode u 0 && rbit u rMcTierPorts 0 (52 + 0) && (cxlOf u 0).gone.contains 1 &&
    (u.pg.prefetches.find? (·.slot == 7)).isNone),
  run (modPg (upCxl []) fun p => { p with prefetches := [⟨7, 0, 9⟩] }) 7 (fun u => (u.pg.prefetches.find? (·.slot == 7)).isSome),
  run (wrReg up rGlStrap 0 0 (word 3)) 7 (fun u => !cxlMode u 2)
  ] : List Bool).all id = true := by decide +kernel

/-- The controller hears the latch message. -/
def heardLB (u : State) (src : Nat) (m : LMsg) : Bool :=
  serving u && decodeL (if toHome m.sub then self u else src) (encodeL m) == some m

/-- HomeMessagesComplete. -/
theorem hyp_homeMessages : ([
  run (homeSt { homeA with owner := 6 }) 7 (fun u => let m := { lmsg mHingeOffer seq9 3 with receiver := 7 }
    heardLB u 6 m && holds (lvOf (bump u rLtHingeCnt 0 15 0 1) m.obj) fun v => v.st == 0 && v.owner == 6 && v.epoch == m.epoch),
  run (homeSt (offered 1 false)) 7 (fun u => let m := { lmsg mHingeOffer seq9 3 with receiver := 7 }
    heardLB u 6 m && holds (lvOf (bump u rLtHingeCnt 0 15 0 1) m.obj) fun v => v.st != 0),
  run (homeSt (offered 1 false)) 7 (fun u => let m := { lmsg mHingeAccept seq9 3 with hingeId := 88 }
    heardLB u 7 m && holds (lvOf u m.obj) fun v => v.st == 1 && v.hingeId == m.hingeId && v.offeredTo == 7 && mayAdvance u m.obj v),
  run (modFab up fun f => { f with regions := [(0, { regionA with latch := 1, owner := 6, offeredTo := 7, hingeId := 88 })] }) 7 (fun u =>
    let m := { lmsg mHingeAccept reg0 4 with hingeId := 88 }
    heardLB u 7 m && holds (lvOf u m.obj) fun v => v.st == 1 && v.hingeId == m.hingeId && v.offeredTo == 7 && mayAdvance u m.obj v),
  run (homeSt (offered 1 true)) 7 (fun u => let m := { lmsg mHingeDecline seq9 3 with hingeId := 88, status := sLostState }
    heardLB u 7 m && holds (lvOf u m.obj) fun v => v.st == 1 && v.assigning && v.hingeId == m.hingeId && v.offeredTo == 7),
  run (homeSt homeA) 7 (fun u => heardLB u 6 (lmsg mEpochAck seq9 3) && heardLB u 6 (lmsg mLatchQuery seq9 3) && (lvOf u seq9).isSome &&
    heardLB u 6 (lmsg mLeaseRenew ⟨false, 0⟩ 0) && (tget u.ce.leases 6).isNone),
  run (homeSt { homeA with owner := 6, st := 2 }) 7 (fun u => let m := { lmsg mLatchAssign seq9 3 with receiver := 7 }
    heardLB u 6 m && (holds (lvOf u m.obj) fun v => v.epoch == m.epoch && v.st == 2 && !v.prefill) && holds (homeOf u 9) fun h => !h.lost),
  run (homeSt { homeA with owner := 6 }) 7 (fun u => let m := lmsg mLatchRelease seq9 3
    heardLB u 6 m && holds (lvOf u m.obj) fun v => v.owner == 6 && v.epoch == m.epoch && v.st == 0 && mayAdvance u m.obj v)
  ] : List Bool).all id = true := by decide +kernel

/-- The forwarded offer of sequence 9 at epoch 3. -/
def forwardA : LMsg := { lmsg mHingeForward seq9 3 with hingeId := 88, offerer := 6, receiver := 5, body := descBytes 9 seqA ++ List.replicate 32 0 }

/-- OwnerMessagesComplete, the offer of a sequence. -/
theorem hyp_forward : run up 7 (fun u => let x := forwardedSeq u 6 forwardA
      heardLB u 6 forwardA && forwardA.offerer != 0 && (hingeOf u seq9).isNone && (seqOf u 9).isNone && (receiveCheck u x).isNone && x.ctx == 1 &&
        cells x.geo == [(0, 0)]) = true ∧
    ∃ rs w, takeReserve (tick up 7) 1 9 [(0, 0)] = some (rs, w) :=
  ⟨by decide +kernel, one_reserve _ _ _ _ 0 (by decide) (by decide +kernel) (by decide +kernel) (by decide +kernel)⟩

/-- OwnerMessagesComplete, the other messages. -/
theorem hyp_ownerMessages : ([
  run up 7 (fun u => let m := { lmsg mHingeForward reg6 3 with hingeId := 88, offerer := 7, receiver := 5 }
    heardLB u 6 m && shutter u != 1 && (hingeOf u m.obj).isNone),
  run (withHinge true 1 seq9) 7 (fun u => let m := { lmsg mHingeDone seq9 4 with owner := 7, hingeId := 88 }
    heardLB u 6 m && !isMgr u && holds (hingeOf u m.obj) fun h => h.offerer && h.phase == 1),
  run (withHinge false 2 seq9) 7 (fun u => let m := { lmsg mHingeDone seq9 4 with owner := 5, hingeId := 88 }
    heardLB u 6 m && !isMgr u && holds (hingeOf u m.obj) fun h => !h.offerer && h.phase == 2),
  run (withHinge false 2 reg6) 7 (fun u => let m := { lmsg mHingeReverted reg6 3 with hingeId := 88, status := sTargetDead }
    heardLB u 6 m && !isMgr u && holds (hingeOf u m.obj) fun h => !h.offerer && h.phase == 2 && m.hingeId == h.hingeId),
  run (withHinge true 1 seq9) 7 (fun u => let m := { lmsg mHingeReverted seq9 3 with hingeId := 88, status := sTargetDead }
    heardLB u 6 m && !isMgr u && holds (hingeOf u m.obj) fun h => h.offerer && h.phase == 1 && m.hingeId == h.hingeId),
  run up 7 (fun u => heardLB u 6 (lmsg mEpochNotice seq9 3)),
  run (modCe up fun c => { c with own := [(6, ⟨[3, 5], none, false⟩)] }) 7 (fun u =>
    heardLB u 6 (lmsg mLeaseAck ⟨false, 0⟩ 0) && (lmsg mLeaseAck ⟨false, 0⟩ 0).status == sOk &&
      holds (tget u.ce.own 6) fun l => l.sent == [3, 5]),
  run (withUse (.query seq9)) 7 (fun u => heardLB u 6 { lmsg mLatchReply seq9 3 with owner := 7 } && (homeOf u 9).isNone &&
    (u.ce.reqs.find? (fun kv => kv.2.use == .release seq9 && kv.2.dst == 6)).isNone &&
    ((u.ce.reqs.find? (fun kv => kv.2.use == .query seq9 && kv.2.dst == 6)).map (·.1)) == some 4 &&
    (waiters (modCe u fun c => { c with reqs := tdel c.reqs 4 }) 4).isEmpty),
  run (withUse (.release seq9)) 7 (fun u => heardLB u 6 (lmsg mLatchReply seq9 3) && (homeOf u 9).isNone &&
    ((u.ce.reqs.find? (fun kv => kv.2.use == .release seq9 && kv.2.dst == 6)).map (·.1)) == some 4),
  run mgr 7 (fun u => isMgr u && heardLB u 6 (lmsg mOrphanNotice reg6 3) && heardLB u 6 (lmsg mOrphanNotice seq9 3)),
  run (withSeq up seqA homeA) 7 (fun u => heardLB u 6 (lmsg mHomeMoved seq9 3) && !isMgr u && (seqOf u 9).isSome)
  ] : List Bool).all id = true := by decide +kernel

/-- The controller hears the cell message. -/
def heardCB (u : State) (m : CMsg) : Bool := serving u && decodeC (encodeC m) == some m

def cmsg (sub req obj a b c : Nat) : CMsg := ⟨sub, sOk, req, obj, a, b, c⟩

/-- A choice from a list that is not empty. -/
theorem pickOf_finds {α : Type} (s : State) (l : List α) (h : l ≠ []) : ∃ x, pickOf s l = (some x, { s with freeCtr := s.freeCtr + 1 }) := by
  have hl : 0 < l.length := List.length_pos_iff.mpr h
  unfold pickOf fresh
  simp only [List.isEmpty_iff, h, if_false]
  rw [List.getElem?_eq_getElem (Nat.mod_lt _ hl)]
  exact ⟨_, rfl⟩

theorem mgr_cands : admitCands (tick mgrG 7) 20 ≠ [] := by
  refine List.ne_nil_of_mem (List.mem_flatMap.mpr ⟨(3, groupA), by decide +kernel, List.mem_map.mpr ⟨5, ?_, rfl⟩⟩)
  refine List.mem_filterMap.mpr ⟨0, by decide, ?_⟩
  have h : homeEligible (tick mgrG 7) 5 = true := by
    have : self (tick mgrG 7) = self mgrG := rfl
    unfold homeEligible
    rw [this, if_pos (by decide +kernel)]
    show rbit mgrG rLtCtrl 0 0 = true
    decide +kernel
  show (if groupA.failed.contains 0 || !homeEligible (tick mgrG 7) 5 || decide ((placeAfter groupA 5 20).length < 3) then none else some 5) = some 5
  rw [h]
  decide +kernel

/-- ManagerRequestsComplete. -/
theorem hyp_managerRequests : ([
  run mgrG 7 (fun u => let m := cmsg mAdmitReq 4 0 1 0 0
    isMgr u && heardCB u m && ctxState u (bits m.a 7 0) == 1 && decide (u.ce.ledger.length < 8388608)),
  run mgrG 7 (fun u => heardCB u (cmsg mSeqRetire 4 9 0 0 0) && holds (tget u.ce.ledger 9) fun e => e.state != 1),
  run mgrG 7 (fun u => heardCB u (cmsg mJoined 4 0 1 0 0) && heardCB u (cmsg mLeaving 4 0 0 0 0) &&
    heardCB u (cmsg mHomeUnreachable 4 9 6 0 0) && heardCB u (cmsg mHomeLookup 4 9 0 0 0)),
  run mgrG 7 (fun u => heardCB u (cmsg mLogReplicaReq 4 9 6 0 0) && holds (tget u.ce.ledger 9) fun e => nextReplica u e 6 == some 5),
  run up 7 (fun u => !isMgr u && heardCB u (cmsg mAdmitReq 4 0 1 0 0) && heardCB u (cmsg mSeqRetire 4 9 0 0 0) &&
    heardCB u (cmsg mLogReplicaReq 4 9 6 0 0))
  ] : List Bool).all id = true := by decide +kernel

/-- ManagerRequestsComplete, the free choices of an admission. -/
theorem hyp_admission :
    ∃ gid home q v w, pickOf (tick mgrG 7) (admitCands (tick mgrG 7) 20) = (some (gid, home), v) ∧
      pick v (fun n => !thas v.ce.ledger n) 1 0xFFFFFFFE = (some q, w) := by
  obtain ⟨x, e⟩ := pickOf_finds _ _ mgr_cands
  obtain ⟨q, e2⟩ := pick_finds { tick mgrG 7 with freeCtr := (tick mgrG 7).freeCtr + 1 } (fun n => !thas mgrG.ce.ledger n) 1 0xFFFFFFFE 0
    (by decide) (by decide +kernel)
  exact ⟨x.1, x.2, q, _, _, e, e2⟩

/-- A home and holder in that group. -/
def holder : State := modPg (modCe (homeSt { homeA with group := 3, owner := 6, reps := [7], stripes := [(2, stripeA)], bt := [(0, 6 * 2 ^ 44)] }) fun c =>
  { c with groups := [(3, groupA)] }) fun p => { p with index := [holdingA] }

/-- HolderRequestsComplete. -/
theorem hyp_holderRequests : ([
  run holder 7 (fun u => heardCB u (cmsg mPromote 4 0 6 0 0)),
  run holder 7 (fun u => let m := cmsg mMirrorReq 4 9 20 0 0
    heardCB u m && holds (homeOf u m.obj) fun h => holds (tget u.ce.groups h.group) fun g =>
      (membersAfter g (self u) (h.owner :: m.a :: h.reps)).head? == some 8),
  run holder 7 (fun u => heardCB u (cmsg mProbe 4 0 0 0 0) && heardCB u (cmsg mProbeAck 4 0 0 0 0)),
  run holder 7 (fun u => [1, 257].all fun a => let m := cmsg mSpillReq 4 9 a 0 0
    heardCB u m && bit m.a 8 == (a == 257)),
  run holder 7 (fun u => [1, 768].all fun a => let m := cmsg mPrefetchReq 4 9 a 0 0
    heardCB u m && bits m.a 9 8 == (if a == 1 then 0 else 3)),
  run holder 7 (fun u => let m := cmsg mRefInc 4 9 10 64 0
    heardCB u m && (let hs := u.pg.index.filter fun h => h.seq == m.obj && !h.parity && decide (h.base < m.b)
      !hs.isEmpty && hs.all fun h => decide (pageRefs u h.entry < 65535))),
  run holder 7 (fun u => heardCB u (cmsg mRefDec 4 9 0 0 0)),
  run holder 7 (fun u => let m := cmsg mRefDrop 4 9 (5 * 2 ^ 44) 0 0
    heardCB u m && (u.pg.index.find? (fun h => h.seq == m.obj && h.entry.toNat == m.a)).isSome),
  run holder 7 (fun u => [(1, 6 * 2 ^ 44), (3, 0)].all fun a => let m := cmsg mStripeReplace 4 9 (2 + a.1 * 2 ^ 32) a.2 (9 * 2 ^ 44)
    heardCB u m && holds (homeOf u m.obj) fun h => holds (tget h.stripes (bits m.a 31 0)) fun e =>
      let j := bits m.a 35 32
      e.slots.getD j 0 == m.b && (m.b != 0 || !e.health.contains j))
  ] : List Bool).all id = true := by decide +kernel

/-- The controller with request 4 about sequence 9 asked of endpoint 6. -/
def asking (sub : Nat) (use : ReqUse) : State := modCe up fun c => { c with reqs := [(4, ⟨6, sub, 9, 0, 0, 0, use⟩)] }

/-- The answer with that request outstanding. -/
def replied (sub : Nat) (use : ReqUse) (m : CMsg) : Bool :=
  run (asking sub use) 7 fun u => heardCB u m && holds (tget u.ce.reqs m.req) fun r => r.dst == 6 && r.obj == m.obj && r.use == use

/-- CellRepliesComplete. -/
theorem hyp_cellReplies : ([
  run (modCe up fun c => { c with reqs := [(4, ⟨6, mAdmitReq, 0, 0, 0, 0, .admission 2⟩)] }) 7 (fun u =>
    let m := cmsg mAdmitReply 4 77 3 0 0
    heardCB u m && holds (tget u.ce.reqs m.req) fun r => r.dst == 6 && r.use == .admission 2),
  [sOk, sTargetDead].all fun st => replied mSeqRetire (.retire 9) { cmsg mMgrAck 4 9 0 0 0 with status := st },
  replied mLogReplicaReq (.logNew 9 1) (cmsg mLogReplicaReply 4 9 7 0 0),
  replied mMirrorReq (.mirrorNew 9) (cmsg mMirrorReply 4 9 7 0 0),
  replied mHomeLookup (.lookup 9) (cmsg mHomeLookupReply 4 9 7 0 0),
  replied mSpillReq (.spill 9) (cmsg mSpillReport 4 9 5 0 0),
  replied mPrefetchReq (.prefetch 9) (cmsg mPrefetchReport 4 9 5 0 0) && (seqOf up 9).isNone,
  replied mRefInc (.refInc 9) (cmsg mRefAck 4 9 5 0 0),
  run (modCe (asking mStripeReplace .replace) fun c => { c with rebuilds := [⟨3, 1, 2, [(9, 6)], 0, 2, some holdingA, 5⟩] }) 7 (fun u =>
    heardCB u (cmsg mStripeReply 4 9 0 0 0) && holds u.ce.rebuilds.head? fun x => x.pend.isSome)
  ] : List Bool).all id = true := by decide +kernel

/-- CellTimersComplete. -/
theorem hyp_cellTimers : ([
  run (homeSt (offered 1 false)) late (fun u => holds (lvOf u seq9) fun v => v.st == 1 && (holds (homeOf u 9) fun h => h.asked == 0) && decide (offerEnd u v ≤ u.now)),
  run (modCe up fun c => { c with leases := [(6, ⟨0, false⟩)] }) late (fun u => holds (tget u.ce.leases 6) fun l =>
    !l.expired && decide (l.last + leaseNs u ≤ u.now)),
  run (modCe up fun c => { c with own := [(6, ⟨[], some 0, false⟩)] }) late (fun u => holds (tget u.ce.own 6) fun l =>
    holds l.acked fun a => !l.lapsed && decide (a + leaseNs u ≤ u.now)),
  run up late (fun u => decide (u.ce.renewAt + renewNs u ≤ u.now)),
  run (withHinge false 3 seq9) 7 (fun u => holds (hingeOf u seq9) fun h => h.phase == 3 && decide (h.queryAt ≤ u.now)),
  run (withHinge false 2 seq9) 7 (fun u => holds (hingeOf u seq9) fun h => h.phase == 2 && decide (h.queryAt ≤ u.now) && h.askedAt.isNone),
  run (homeSt { homeA with notices := [7] }) 20000 (fun u => holds (homeOf u 9) fun h =>
    !h.notices.isEmpty && decide (h.noticeAt + 20000 ≤ u.now ∧ h.noticeFrom + leaseNs u > u.now)),
  run (homeSt { homeA with notices := [7] }) late (fun u => holds (homeOf u 9) fun h =>
    !h.notices.isEmpty && decide (h.noticeAt + 20000 ≤ u.now ∧ h.noticeFrom + leaseNs u ≤ u.now)),
  run (withUse (.query seq9)) late (fun u => holds (tget u.ce.reqs 4) fun r => r.fw != 2 ^ 40 && decide (r.sentAt + leaseNs u ≤ u.now)),
  run (modCe mgrG fun c => { c with members := [(6, ⟨1, 0, false⟩)] }) late (fun u => isMgr u && decide (u.ce.probeAt + renewNs u ≤ u.now) &&
    self u != 6 && holds (tget u.ce.members 6) fun x => !x.silent && decide (x.lastAck + homeDeadNs u ≤ u.now)),
  run (modCe up fun c => { c with unreach := [(6, 0)] }) late (fun u => holds (tget u.ce.unreach 6) fun a =>
    decide (a + homeDeadNs u + 100000000 ≤ u.now)),
  run (modFab up fun f => { f with regions := [(0, { regionA with renewed := false })] }) late (fun u => holds (tget u.fab.regions 0) fun r =>
    !r.renewed && r.latch == 0 && decide (r.createdAt + leaseNs u ≤ u.now) && holds (lvOf u reg0) fun v => mayAdvance u reg0 v)
  ] : List Bool).all id = true := by decide +kernel

def stageA (kind : Nat) : Stage := ⟨kind, 0, 1, 0, false, 1, 2, 1000, 3, List.replicate 128 0⟩
def planB (kinds : List Nat) : Plan := ⟨1, 0, 0, 1, 100, 0, 1000, 0, 0, 0, 0, 0, 0, 0, [], kinds.map stageA, [], false⟩
def slotA (seq run : Nat) : SlotRun := ⟨seq, run, false, false, [], 0, 0, 0, [], false, 0, 100, 90, 1, [], 0, false, [], 0, 0, [], 0, ⟨false, 0, false, 0, 0, 0, 0, 0⟩⟩
def stepA (running : Bool) (stage : Nat) : Step := ⟨0, 3, 1, running, 0, stage, [slotA 9 1], List.replicate 16 0, 0, 0, false, false, []⟩

/-- The controller with a step of a plan whose stages have these kinds. -/
def withStep (running : Bool) (stage : Nat) (kinds : List Nat) : State := modSt (withSeq up seqA homeA) fun t =>
  { t with plans := [(3, planB kinds)], steps := [(8, stepA running stage)] }

/-- P of the step and its plan. -/
def stepping (s : State) (t : Nat) (P : State → Step → Plan → Bool) : Bool :=
  run s t fun u => holds (stepOf u 8) fun x => holds (tget u.st.plans x.plan) fun p => P u x p

/-- As withStep, at an attention stage with one page of sequence 9 in a slot. -/
def spilled : State :=
  let s := modSt (withSeq up { seqA with pages := [⟨0, 0, word (1 + 7 * 2 ^ 18 + 5 * 2 ^ 44), 0, 64, false⟩] } homeA) fun t =>
    { t with plans := [(3, { planB [2] with stages := [{ stageA 2 with body := toLE 8 (2 ^ 32) ++ List.replicate 24 0 ++ toLE 8 (2 ^ 16) ++ List.replicate 88 0 }] })], steps := [(8, { stepA true 0 with units := [⟨0, 0, 0, [0], 0, 1, 0, 1, []⟩] })] }
  modMt s fun m => { m with work := [⟨0, 0, 1, 8, 0, 0, 100⟩] }

def paneA (st : Nat) : Pane := ⟨8, 0, 0, 0, 1, 0, 1, 6, false, 0, 0, 1, [], 9, 0, 5, st, []⟩

/-- The controller with no unit's power gated. -/
def awake : State := modSleep up fun x => { x with gated := [] }

/-- StepRowsComplete. -/
theorem hyp_steps2 : ([
  stepping (withStep false 0 [7, 2]) 7 (fun u x _ => mayDispatch u x),
  [1, 2, 4].all fun k => stepping (withStep true 0 [k]) 7 (fun u x p => holds p.stages[x.stage]? fun g => x.running && stageIdle u 8 x g && g.kind == k),
  stepping (wrReg (withStep true 0 [7]) rXeArmCtr 18 0 (word 3)) 7 (fun u x p => holds p.stages[x.stage]? fun g =>
    x.running && g.kind == 7 && decide (g.waitDelta ≤ sub32 (rf u rXeArmCtr (x.ctx * 16 + g.waitCtr) 31 0) (x.ctrs.getD g.waitCtr 0))),
  stepping (withStep true 1 [7]) 7 (fun u x p => stepReady u 8 x p),
  stepping (withStep true 0 [1]) 1000 (fun u x p => x.running && !x.overrun && decide (x.startAt + p.wcet ≤ u.now)),
  stepping spilled 1000 (fun u x p => (slotAt u 8 0).isSome && Nat.min 1 (slotSpilled u 8 0) != 0 && rf u rMcTierPolicy x.ctx 1 0 != 1 &&
    decide (x.startAt + (if p.tierDeadline = 0 then p.wcet * rf u rMcTierCtrl 0 7 1 / 100 else p.tierDeadline) ≤ u.now)),
  run (modSt up fun t => { t with panes := [(4, paneA 0)] }) 9 (fun u => holds (tget u.st.panes 4) fun p => p.st == 0 && decide (p.deadline ≤ u.now)),
  run (modSt up fun t => { t with jobs := [{ jobA with req := List.replicate 128 0, pages := [{ holdingA with entry := word (1 + 7 * 2 ^ 18 + 5 * 2 ^ 44) }], leases := [] }] }) 9 (fun u =>
    holds (u.st.jobs.find? (fun j => j.id == 2)) fun j => decide ((paneReqOf j.req).deadline ≤ u.now) && j.pages.any fun h => (localSlot u h.entry).isSome),
  [0, 2].all fun cls => run (modMt awake fun m => { m with work := [⟨cls, 0, 1, 8, 0, 0, 100⟩] }) 7 (fun u => unitServes u cls 0 && !u.gl.power.stopTiles &&
    pickCtx u cls (dieOf cls 0) [] == some 1 && (pickWork u cls (dieOf cls 0) 1 []).isSome && (wakeUnit u cls 0 0).1),
  [1, 3].all fun cls => run awake 7 (fun u => unitServes u cls 0 && ctxState u 1 == 1 && (wakeUnit u cls 0 0).1),
  stepping spilled 100000000 (fun u x _ => holds (slotAt u 8 0) fun r => Nat.min 1 (slotSpilled u 8 0) != 0 && rf u rMcTierPolicy x.ctx 1 0 != 1 &&
    decide (r.readAt + rf u rMcTierCtrl 0 17 8 * 1000 ≤ u.now))
  ] : List Bool).all id = true := by decide +kernel

def imageA (st : Nat) : Image := ⟨1, st, List.replicate 256 0, [], 0, 0, 4, 1, 1, 1, 128, [], false, []⟩
def imageBody : List Byte := List.replicate 64 0

def imageC : Image := { imageA 0 with header := imageHdr.take 0x40 ++ toLE 4 (crc32c imageBody) ++ List.replicate 188 0 }

/-- The controller rebuilding position 1 of group 3 with one sequence to walk. -/
def rebuilding (done : Nat) : State := modCe up fun c => { c with rebuilds := [⟨3, 1, 2, [(9, 6)], done, 0, none, 5⟩] }

/-- UpkeepRowsComplete. -/
theorem hyp_upkeep : ([
  run up late (fun u => decide (u.pg.lastTick + rf u rPgReclaim 0 16 0 * 1000 ≤ u.now) && !(u.st.steps.any fun kv => kv.2.running)),
  run (modPg (wrReg (wrReg up rPgCtrl 0 0 (word 3)) rPgFreeWm 0 0 (word 25165823)) fun p => { p with firmware := [(0, 25165000)] }) 7 (fun u =>
    rbit u rPgCtrl 0 1 && decide (freeFrames u < lowMark u)),
  run (withSeq up { seqA with st := .paused, pauseCause := 1, reserve := [⟨0, 0, 7⟩] } homeA) 7 (fun u =>
    (sortBy refillLe (u.pg.seqs.filter fun kv => kv.2.st == .paused && kv.2.pauseCause == 1)).map (·.1) == [9] && (fillReserve u 9).isSome),
  run (modCe (withSeq (wrReg (wrReg (wf up rGlMode 0 3 2 1) rPgCtrl 0 0 (word 3)) rPgTailCtrl 0 0 (word 1)) { seqA with group := 3, unstriped := [(0, 0, 0), (0, 0, 64), (0, 0, 128)] } homeA)
    fun c => { c with groups := [(3, groupA)] }) 7 (fun u => holds (seqOf u 9) fun x =>
      let tail := sortBy tailLe (x.unstriped.filter fun v => v.1 == 0)
      rbit u rPgCtrl 0 0 && role u != 0 && groupK u x != 0 && x.st == .runnable && decide (groups x.geo * rf u rPgTailCtrl 0 8 0 + groupK u x ≤ tail.length)),
  run (withSeq up { seqA with st := .paused, expiry := 5 } homeA) 7 (fun u => holds (seqOf u 9) fun x => x.st == .paused && x.expiry != 0 && decide (x.expiry ≤ u.now)),
  run (modPg up fun p => { p with spills := [⟨0, 7, 9, true⟩], prefetches := [⟨7, 0, 9⟩] }) 7 (fun u =>
    (u.pg.spills.find? (·.slot == 7)).isSome && (u.pg.prefetches.find? (·.slot == 7)).isSome),
  run (modPg up fun p => { p with reports := [(9, ⟨0, [4], 0, 0, 0, true⟩)] }) late (fun u => holds (tget u.pg.reports 9) fun r =>
    decide (r.sent + rf u rMcTierCtrl 0 33 18 * 1000000 ≤ u.now)),
  [0, 1].all fun n => run (rebuilding n) 7 (fun u => holds u.ce.rebuilds.head? fun r => r.op != 0 && r.pend.isNone && r.seqs[r.done]? == (if n = 0 then some (9, 6) else none)),
  run (modCe (modSt up fun t => { t with images := [(3, imageC)] }) fun c => { c with jrOps := [(5, .image 3)] }) 7 (fun u =>
    holds (tget u.st.images 3) fun im => jrFind u (.image 3) == some 5 && im.st == 0 &&
      (let wb := w64At im.header 0x20
       let b := slice imageBody 0 (wb + w64At im.header 0x28)
       let nw := cdiv wb frameBytes
       let w := jrPhase (fillFrames (fillFrames u (im.frames.take nw) (b.take wb)) (im.frames.drop nw) (b.drop wb)) 5 2 0
       crc32c b == leAt im.header 0x40 4 && (imageTilesCheck w im.ctx (b.drop wb)).isNone)),
  run (modSt up fun t => { t with adapters := [(7, { adapterA with cmd := 4, bytes := 64, crc := crc32c imageBody })] }) 7 (fun u =>
    holds (tget u.st.adapters 7) fun a => a.cmd != 0 && crc32c (slice imageBody 0 a.bytes) == a.crc),
  run (modFlash up fun f => { f with busy := some (.svn 3) }) 7 (fun u => u.gl.flash.busy == some (.svn 3)),
  run upTxn late (fun u => holds (tget u.host.txns 1) fun x => !x.committing && decide (x.opened + rf u rCqTxnCtrl 0 16 0 * 1000000 ≤ u.now))
  ] : List Bool).all id = true := by decide +kernel

/-- What a thermal evaluation's operands are. -/
def thermalA : Thermal := ⟨List.replicate 12 60, 700, 700, 300, 300, 700, 900, false⟩

def e5 (u : State) (x : Thermal) : State :=
  let a := dieTemps (wearAccrue u) x.temps
  let b := wf (wf a rPmStatus 0 27 16 (Nat.min 4095 x.pkgW)) rPmStatus 0 39 28 (Nat.min 4095 x.seA)
  let tj := Nat.max (rf b rPmDieTemp 0 7 0) (rf b rPmDieTemp 1 7 0)
  let l := rf b rPmTherm 0 6 0
  let ms := thermalMs (rf b rPmThermModel 0 15 0) (tj * 1000) (tSteady b (tj * 1000) 1330000 x.pf 211500 x.psef) (l * 1000)
  let c := wf b rPmSprintRemain 0 47 24 ms
  let d := wf c rPmSprintRemain 0 23 0 (Nat.min 0xFFFFFF (Nat.min (Nat.min ms (wearLeftMs c)) ((maxLeftMs c).getD 0xFFFFFF)))
  if d.gl.power.rearm && decide (tj + rf d rPmSprintCtrl 0 39 32 ≤ l) then modPower d fun y => { y with rearm := false } else d

/-- PowerRowsComplete. -/
theorem hyp_power : ([
  run (wrReg up rCuPwr 23 0 (word (1 + 5 * 2 ^ 4))) late (fun u => rbit u (pwrReg 3) 23 0 &&
    decide (unitIdleFrom u 3 23 + rf u (pwrReg 3) 23 23 4 * 1000 ≤ u.now)),
  run (modSleep up fun x => { x with waking := [(unitKey 0 7, 5)] }) 7 (fun u => holds (tget u.gl.sleep.waking (unitKey 0 7)) fun a =>
    decide (a ≤ u.now) && !u.gl.sleep.plls.contains (unitDie 0 7)),
  run (modSleep (wrReg up rPmSleep 0 0 (word (3 + 5 * 2 ^ 16))) fun x => { x with pllIdle := [(1, 0)] }) late (fun u => holds (tget u.gl.sleep.pllIdle 1) fun a =>
    rbit u rPmSleep 0 0 && decide (a + rf u rPmSleep 0 31 16 * 1000000 ≤ u.now) && !u.gl.sleep.plls.contains 1),
  run (modSleep up fun x => { x with pllWake := [(1, 5)], bankWake := [(70, 5)] }) 7 (fun u =>
    (holds (tget u.gl.sleep.pllWake 1) fun a => decide (a ≤ u.now)) && holds (tget u.gl.sleep.bankWake 70) fun a => decide (a ≤ u.now)),
  run (wrReg (wrReg up rPmSleep 0 0 (word (3 + 100 * 2 ^ 32))) rMcStatus 23 0 (word 2)) late (fun u => rbit u rPmSleep 0 1 && rf u rMcStatus 23 2 0 == 2 &&
    decide (tgetD u.mt.stackAt 23 0 + rf u rPmSleep 0 47 32 * 1000 ≤ u.now)),
  run (wrReg up rSpBankPwr 1 0 (word 64)) late (fun u => rbit u rSpBankPwr (70 / 64) (70 % 64) && !sramBusy u &&
    decide (Nat.max u.mt.sramAt (tgetD u.mt.bankAt 70 0) + rf u rSpRetCtrl 0 15 0 * 1000 ≤ u.now)),
  run up 7 (fun u => let f := 25165823
    let k := frameStack f
    decide (f < numFrames) && rbit u rMcCtrl k 0 && !stackDead u k && (tget u.gl.scrubAt f).isNone),
  run (wrReg up rPmVr0 5 0 (word (2 ^ 19))) 7 (fun u => vrValid u 5),
  run up 7 (fun u => !inSprint u && !dieHot u (rf u rPmTherm 0 6 0) && !stackHot u (rf u rPmTherm 0 14 8)),
  run (wrReg upSprint rPmSprintCtrl 0 0 (setFld (rdReg upSprint rPmSprintCtrl 0 0) 0 0 1)) 7 (fun u =>
    !inSprint (e5 u thermalA) && (endCauses (e5 u thermalA) thermalA).isEmpty),
  run up (10 ^ 14) (fun u => decide (u.gl.power.stepAt + 10000 ≤ u.now ∧ u.gl.power.slotAt + 900000000000 ≤ u.now ∧
    u.ce.decayAt + rf u rHlCtrl 0 15 0 * 225000000000 ≤ u.now ∧ u.gl.flash.retryAt + 60000000000 ≤ u.now)),
  run up 7 (fun u => !u.gl.pins.contains 0)
  ] : List Bool).all id = true := by decide +kernel

/-- What a bring-up finds where everything trains: one module run of firmware, an image in slot 0. -/
def bringUpA : BringUp :=
  ⟨List.replicate 21 65535, List.replicate 24 ⟨0, 900, 900, 0, 16⟩, true, some ⟨true, true, 1, false⟩, none, none, false, List.replicate 16 (2 ^ 19), 560, 0, [(0, 16)], []⟩

/-- The state READY leaves before GL_STATUS.READY. -/
def broughtUp (u : State) (b : BringUp) : State :=
  let v := (List.range 21).foldl (fun s n => d2dTrained s n (b.d2d.getD n 0)) (wf u rGlStatus 0 4 4 0)
  let w := (List.range 24).foldl (fun s k => stackTrained s k (b.trained.getD k ⟨2, 0, 0, 0, 0⟩)) v
  if w.gl.warm then warmReady w b else coldReady w b

/-- A controller whose Shutter is closing, at a step. -/
def closing (step : Nat) : State := modClose (wf up rGlStatus 0 2 1 1) fun x => { x with step := step }

/-- ResetRowsComplete. -/
theorem hyp_resets : ([
  run up 7 (fun u => !rbit u rGlStatus 0 5) && run (wf up rGlStatus 0 5 5 1) 7 (fun u => rbit u rGlStatus 0 5),
  (let linked := wf up rGlD2dStatus 20 7 5 3
   run linked 7 (fun u => rf u rGlD2dStatus 20 7 5 == 3 && rf u rGlD2dStatus 20 47 16 == 0) &&
   run linked 7 (fun u =>
    let x := bump u rGlD2dStatus 20 47 16 1
    x.gl.phase == 2 && !rbit x rGlStatus 0 5)),
  (let u := tick (wf up rGlStatus 0 3 3 1) 7
   rbit u rGlStatus 0 3 && !u.gl.pins.contains 0 && u.pg.tableBuilt),
  (let u := tick (wf State.reset rGlStatus 0 3 3 1) 7
   rbit u rGlStatus 0 3 && !u.gl.pins.contains 0 && !u.pg.tableBuilt),
  (let u := tick (wrReg up rScTamperCtrl 0 0 (word 1)) 7
   let w := fun d => tamperActive (modSec u fun x => { x with conditions := addSorted d x.conditions })
   rbit (w 0) rScTamperCtrl 0 0 && !rbit (w 3) rScTamperCtrl 0 3),
  (let u := tick (wrReg State.reset rScLc 0 0 (word 3)) 100000000
   u.gl.phase == 1 && !((List.range 24).any fun n => portWaits u n) && (broughtUp u bringUpA).gl.phase != 3),
  (let u := tick (modGlobal up fun g => { g with phase := 1, warm := true }) 100000000
   u.gl.phase == 1 && !((List.range 24).any fun n => portWaits u n) && (broughtUp u bringUpA).gl.phase != 3),
  run (closing 4) 7 (fun u => shutter u == 1 && !u.gl.close.drained && decide (u.gl.close.drainAt ≤ u.now)),
  run (closing 5) 10000000 (fun u => shutter u == 1 && u.gl.close.step == 5 && decide (u.gl.close.step5At + 10000000 ≤ u.now)),
  run (closing 7) 7 (fun u => shutter u == 1 && u.gl.close.step == 7 && egressEmpty u)
  ] : List Bool).all id = true := by decide +kernel

/-- A deployed controller with session 2, of the owner, finished or not, and a key of each phase. -/
def inSession (finished : Bool) : State := modFab (modSec (wrReg up rScLc 0 0 (word 3)) fun x =>
  { x with sessions := [(2, ⟨finished, true, 0⟩)] }) fun f => { f with keys := ⟨[(0, 11), (1, 22)], none, none, none⟩ }

/-- SecurityRowsComplete. -/
theorem hyp_security : ([
  run (inSession false) 7 (fun u => spdmOn u && u.gl.sec.deadbolt && decide (u.gl.sec.sessions.length < 4) &&
    holds (tget u.gl.sec.sessions 2) fun x => !x.finished),
  run (modSec (inSession true) fun x => { x with sessions := [1, 2, 3, 4].map fun i => (i, ⟨true, false, 0⟩) }) 7 (fun u =>
    decide (4 ≤ u.gl.sec.sessions.length) && spdmOn u && u.gl.sec.deadbolt),
  run (inSession true) 7 (fun u => spdmOn u && u.gl.sec.deadbolt && holds (tget u.gl.sec.sessions 2) fun x => x.finished && x.owner &&
    groupOk u (rf u rScKeyStatus 0 15 0) && (1 != rf u rScKeyStatus 0 18 18) && thas u.fab.keys.keys (1 - rf u rScKeyStatus 0 18 18))
  ] : List Bool).all id = true := by decide +kernel

/-- The packet arrives from the quad, and P holds of the state it is taken in. -/
def arrives (s : State) (t c : Nat) (p : Pkt) (P : State → Bool) : Bool :=
  run s t fun u => match receive u 24 (frameOf p) (rxCtx u c) with
  | (some x, v) => x == p && P v
  | _ => false

/-- The controller with queue pair n, window 5, and message 3 in flight. -/
def upTarget (n : Nat) (kind : Nat) : State := modFab (withQp n (qpA 1)) fun f =>
  { f with txs := [txA (some n) false 0], msgs := [{ msgA kind with qp := n }], tracks := [{ trackA with qp := n, msn := 3, type := ptReadResp, count := 0 }], wins := [(5, winA)] }

def dataA (type n op : Nat) (b : List Byte) : Pkt := { pktA type 6 5 n 3 b.length b with winIdx := 5, winGen := 2, opWord := op }

/-- QueuePairPacketsComplete. -/
theorem hyp_queuePairPackets : ([
  [(ptWrite, 600), (ptWriteImm, 600), (ptWriteImm, 7)].all fun a =>
    let p := dataA a.1 a.2 4032 (List.replicate 64 1)
    arrives (upTarget a.2 0) 7 0 p (fun v => holds (qpOf v a.2) fun q => serving v && q.st == 1 && p.src == q.remoteEp && msnPlace q p.msn == 1 &&
      (wholeMsg p || (trackOf v a.2 p.msn).isSome) && cqRoom q && holds (winOf v p.winIdx) fun w => w.live && w.gen == p.winGen && (winCheck q a.2 w p).isNone),
  [{ dataA ptReadReq 600 0 [] with length := 4096 }, dataA ptAtomicReq 600 (3 * 2 ^ 44) (List.replicate 16 0) |> fun p => { p with length := atomicSize 3 }].all fun p =>
    arrives (upTarget 600 0) 7 0 p (fun v => holds (qpOf v 600) fun q => serving v && q.st == 1 && p.src == q.remoteEp && msnPlace q p.msn == 1 &&
      q.held.isEmpty && !bit p.opWord 47 && holds (winOf v p.winIdx) fun w => w.live && w.gen == p.winGen && (winCheck q 600 w p).isNone),
  (let p := pktA ptFlushReq 6 5 600 3 0 []
   arrives (upTarget 600 0) 7 0 p (fun v => holds (qpOf v 600) fun q => serving v && q.st == 1 && p.src == q.remoteEp && msnPlace q p.msn == 1 && q.held.isEmpty)),
  (let p := pktA ptReadResp 6 5 600 3 64 (List.replicate 64 1)
   arrives (upTarget 600 1) 7 0 p (fun v => (v.fab.tracks.find? (fun t => t.qp == p.qp && t.msn == p.msn && t.type == ptReadResp && t.src == p.src)).isSome)),
  (let p := pktA ptAtomicResp 6 5 600 3 8 (List.replicate 8 1)
   arrives (upTarget 600 2) 7 0 p (fun v => (v.fab.msgs.find? (fun m => m.qp == p.qp && m.msn == p.msn && m.kind == 2)).isSome && bits p.opWord 15 0 == sOk &&
     holds (qpOf v 600) fun q => p.src == q.remoteEp)),
  (let p := pktA ptFlushResp 6 5 600 3 0 []
   arrives (upTarget 600 3) 7 0 p (fun v => (v.fab.msgs.any fun m => m.qp == p.qp && m.msn == p.msn && m.kind == 3) && bits p.opWord 15 0 == sOk)),
  (let p := pktA ptAck 6 5 600 3 64 []
   arrives (upTarget 600 0) 7 0 p (fun v => !(matchTx v p.src (some p.qp) (p.winIdx == 1) p.msn p.offset p.length).isEmpty &&
     (v.fab.msgs.find? (fun m => m.qp == 600 && m.msn == p.msn && (m.kind == 4) == (p.winIdx == 1) && m.kind == 0)).isSome)),
  [sPending, sTargetDead].all fun st => let p := { pktA ptNak 6 5 600 3 64 [] with opWord := st }
    arrives (upTarget 600 0) 7 0 p (fun v => (v.fab.txs.find? (fun t =>
      t.pkt.dst == p.src && t.qp == some p.qp && t.pkt.msn == p.msn && t.pkt.offset == p.offset && t.st == 2 &&
        (t.pkt.type == ptReadResp) == (p.winIdx == 1))).isSome && bits p.opWord 15 0 == st)
  ] : List Bool).all id = true := by decide +kernel

/-- SendPacketsComplete. -/
theorem hyp_sendPackets :
    (let p := pktA ptSend 6 5 600 3 64 (List.replicate 64 1)
     arrives (withQp 600 (qpA 1)) 7 0 p (fun v => holds (qpOf v 600) fun q => serving v && q.st == 1 && p.src == q.remoteEp && msnPlace q p.msn == 1 &&
       q.rx.2 != 0 && q.rx.1 != 0 && decide (p.length ≤ 2 ^ q.slotLog) && wholeMsg p && (trackOf v p.qp p.msn).isNone &&
       decide (sub32 q.rxNext q.rxCi < 2 ^ q.rxLog) && cqRoom q)) = true := by decide +kernel

/-- The controller with FL_CTRL enabled, an access window of endpoint 6 that expects 8, and access 8 outstanding at it. -/
def upRack (type : Nat) : State := modFab (wrReg up rFlCtrl 0 0 (word 3)) fun f =>
  { f with accWins := [(6, ⟨8, [], []⟩)], accs := [(6, ⟨9, [{ accA 0 none with pkt := pktA type 5 6 0 8 64 [] }], [], 0⟩)] }

/-- AccessPacketsComplete. -/
theorem hyp_accessPackets : ([
  [(ptLoadReq, 2 ^ 47, 0), (ptStore, 2 ^ 47, 64), (ptAtomicReq, 2 ^ 47, 8), (ptCoherence, cGetS * 2 ^ 44, 0), (ptCoherence, cGetM * 2 ^ 44, 0),
   (ptCoherence, cPutM * 2 ^ 44, 64), (ptCoherence, cPutClean * 2 ^ 44, 0), (ptCoherence, cInv * 2 ^ 44, 0), (ptCoherence, cFwdS * 2 ^ 44, 0),
   (ptCoherence, cFwdM * 2 ^ 44, 0), (ptCoherence, cData * 2 ^ 44, 64), (ptCoherence, cAck * 2 ^ 44, 0)].all fun a =>
    (if a.1 == ptLoadReq then [8, 0] else [8]).all fun msn =>
      let p := { pktA a.1 6 5 0 msn 64 (List.replicate a.2.2 1) with opWord := a.2.1 }
      arrives (upRack ptLoadReq) 7 0 p (fun v => serving v && rbit v rFlCtrl 0 0 && holds (accWin v p.src) fun w =>
        (msn == 0 && !p.retx) || decide ((p.msn + 2 ^ 24 - w.expect) % 2 ^ 24 ≤ 255)),
  [(ptLoadReq, ptLoadResp, 64), (ptStore, ptStoreResp, 0)].all fun a =>
    let p := pktA a.2.1 6 5 0 8 64 (List.replicate a.2.2 1)
    arrives (upRack a.1) 7 0 p (fun v => bits p.opWord 15 0 != sTargetDead && holds ((accSeq v p.src).out.find? (fun a =>
      a.msn == p.msn && respType a.pkt.type == p.type)) fun a => a.kind != 2)
  ] : List Bool).all id = true := by decide +kernel

/-- A pane request: sequence 9 of context 1, layer 0, one query row and head of 128, tokens 0 to 63 with one page, of endpoint 6. -/
def paneBytes : List Byte :=
  toLE 8 9 ++ toLE 8 (2 ^ 16 + 2 ^ 24 + 2 ^ 32 + 128 * 2 ^ 41 + 1 * 2 ^ 50 + 2 ^ 54) ++ toLE 8 (6 + 2 ^ 20) ++ List.replicate 40 0 ++
    toLE 4 0 ++ toLE 4 64 ++ toLE 4 1 ++ toLE 4 0

def paneArg : PaneArg := ⟨⟨1, 1, 1, 128, 1, 0⟩, 0, [], [⟨9, 3, 2, 0, false, { noTrailer with seq := 9, fill := 64 }, [], 0⟩], false, false⟩

/-- FabricRowsComplete. -/
theorem hyp_fabric : ([
  run (wrReg (wrReg up rEpStatus 2 0 (word 18)) rEpRoute 7 0 (word (7 + 20 * 2 ^ 20 + 4 * 2 ^ 25 + 2 ^ 63))) 7 (fun u =>
    let p := pktA ptWrite 6 7 600 3 64 (List.replicate 64 1)
    match recvFrame u 2 (frameOf p) with
    | (some f, v) => match lifeCheck v 2 f.pkt with
      | (true, w) => rbit u rEpSelf 0 20 && portUp u 2 && f.pkt.dst != self w && f.pkt.hopTtl != 0 && holds (routeOf w f.pkt.dst) fun r =>
          !((List.range 24).filter fun n => wbit r (25 + n) && portUp w n).isEmpty
      | _ => false
    | _ => false),
  run (modFab (modMt (wrReg up rEpStatus 2 0 (word 18)) fun m => { m with drr := [(2, ⟨[⟨1, 1, 112, pktA ptAck 5 6 0 3 64 [], none, none⟩], [], [], 1⟩)] }) fun f =>
      { f with time := { f.time with locked := true } }) 7 (fun u =>
    portUp u 2 && !portEnc u 2 && match nextClass u 2 with
    | (some k, d) => holds (takeEgress u 2 k d).fab.wire.head? fun x => !x.pkt.retx
    | _ => false),
  run (modPg (wrReg up rTeAttnCtrl 0 0 (word 0x3C03)) fun p => { p with index := [holdingA] }) 7 (fun u =>
    serving u && (paneCheck u paneBytes paneArg).isNone && !(paneReqOf paneBytes).degraded && (panePages u (paneReqOf paneBytes)).length == 1),
  run (modSt up fun t => { t with jobs := [{ jobA with req := paneBytes }] }) 7 (fun u =>
    (u.st.jobs.find? (fun j => j.id == 2)).isSome && !(u.mt.work.any fun w => w.stage == paneMark && w.step == 2)),
  [ptTimeSync, ptTimeResp].all fun ty => let p := { pktA ty 6 5 0 0 0 [] with tc := 7 }
    arrives (modTime (wrReg up rLtMgrEp 0 0 (word 6)) fun t => { t with waiting := true }) 7 0 p (fun v =>
      !isMgr v && p.src == mgrEp v && v.fab.time.waiting),
  (let p := { pktA ptTimeReq 6 5 0 0 0 [] with tc := 7 }
   arrives (wf mgr rEpTimeStatus 0 1 0 2) 7 0 p (fun v => isMgr v && timeState v == 2)),
  run (wf mgr rEpTimeStatus 0 1 0 2) 7 (fun u => isMgr u && timeState u == 2),
  run (wf up rEpTimeStatus 0 1 0 2) late (fun u => !isMgr u && timeState u == 2 &&
    decide (u.fab.time.lastSample + 16 * rf u rEpTimeCtrl 0 15 0 * 1000 ≤ u.now)),
  run (wf up rEpTimeStatus 0 1 0 3) 10000000000 (fun u => timeState u == 3 && decide (u.fab.time.holdAt + 10000000000 ≤ u.now)),
  run (wf mgr rEpTimeCtrl 0 16 16 1) 500000000 (fun u => let v := raiseEdge u irqPps
    isMgr v && v.gl.phase == 2 && rbit v rEpTimeCtrl 0 16 && !v.fab.time.locked && timeState v != 2 && !v.gl.warm)
  ] : List Bool).all id = true := by decide +kernel

/-- One layer's copy of the running controller with queue 3 of events enabled, 16 entries, holding what is given. -/
def upEq (tail : Nat) (held : List Event) : State := setEvq (wrReg up rEqCtrl 0 0 (word (1 + 4 * 2))) 0 ⟨0, tail, held, 0, 0⟩
def eventA : Event := ⟨0, 0, 1, 0, 0, 0, 0, 0⟩

/-- EventQueues, a queue that already holds 4,096 events. -/
theorem hyp_eventQueueFull (held : List Event) (h : held = List.replicate 4096 eventA) :
    rbit (upEq 16 held) rEqCtrl 0 0 = true ∧ 4096 ≤ (evq (upEq 16 held) 0).held.length := by
  have e : (evq (upEq 16 held) 0).held = held := rfl
  have f : rbit (wrReg up rEqCtrl 0 0 (word (1 + 4 * 2))) rEqCtrl 0 0 = true := by decide +kernel
  exact ⟨f, by rw [e, h, List.length_replicate]⟩

/-- The controller with image 3, named by a plan and a sequence or by none. -/
def upImage (byPlan bySeq : Bool) : State :=
  let s := modSt up fun t => { t with
    images := [(3, { imageA 2 with frames := [4] })]
    plans := if byPlan then [(0, { planB [] with stages := [{ stageA 3 with imageId := 3 }] })] else [] }
  if bySeq then withSeq (setFrame s 4 ⟨.system, 0, 1, 0, 0, 1, .image, 0⟩) { seqA with hasImage := true, imageId := 3 } homeA
  else setFrame s 4 ⟨.system, 0, 1, 0, 0, 1, .image, 0⟩

/-- A command of a ring, and P of the state and the entry its checks see. -/
def checked (s : State) (op : Nat) (c k : Cmd) (i : Instr) (P : State → Cmd → OpInfo → Bool) : Bool :=
  s.gl.phase == 2 && (ringCommands c).contains (op, k, i) && holds (opInfo op) fun o => P (taken op k s) (withOpcode k op) o

def echo (w0 : Nat) : Cmd := cmd w0 5 6 0 0 0

/-- CommandChecks. -/
theorem hyp_commandChecks : ([
  (let c := echo (hdr 0xE0 0 + 2 ^ 48)
   checked base 0xE0 c c (.diagEcho c) fun r x o => !formOk r 0xE0 x o),
  (let c := echo (hdr 0xE0 1)
   checked (wf base rCqCtrl 0 15 8 2) 0xE0 c c (.diagEcho c) fun r x o => formOk r 0xE0 x o && rf (wf base rCqCtrl 0 15 8 2) rCqCtrl 0 15 8 != 0 && cCtx x != 2),
  (let c := cmd (hdr 0x72 0) 1 (1 + 2 ^ 16 + 2 ^ 32 + 2 ^ 48) 1 0 0
   checked (wf base rCqCtrl 0 15 8 2) 0x72 c c (.setShare c) fun r x o => formOk r 0x72 x o && o.admin),
  [0, 2].all fun st => checked (wf base rMtCtx 1 1 0 st) 0x10 createCmd createCmd (.seqCreate createCmd) fun r x o =>
    formOk r 0x10 x o && rf base rCqCtrl 0 15 8 == 0 && cCtx x == 1 && ctxState (wf base rMtCtx 1 1 0 st) 1 == st,
  checked base 0x10 createCmd createCmd (.seqCreate createCmd) fun r x o => formOk r 0x10 x o && ctxState base 1 == 1 && shutter base == 0,
  checked (wf base rCqCtrl 0 15 8 1) 0x10 createCmd createCmd (.seqCreate createCmd) fun r x o => formOk r 0x10 x o && cCtx x == 1 && !o.admin
  ] : List Bool).all id = true := by decide +kernel

/-- The other statements. -/
theorem hyp_others : ([
  quiet up,
  passing 0xE1 (cmd (hdr 0xE1 0) 25165824 0x1000 0 0 0) base (fun k _ => decide (25165824 ≤ fld k.w1 24 0)),
  decide (25165824 ≤ fld (word (25165824 * 2 ^ 19)) 43 19),
  run (modIntr up fun i => { i with active := [(2, [(1, 0x230)])] }) 7 (fun u => coreStack u 2 == [(1, 0x230)] && (coreStack u 1).isEmpty),
  passing 0x0C (cmd (hdr 12 0) 600000 0 0 0 0) base (fun k r => decide (fld k.w1 31 0 ≤ 600000) && shutter r == 0),
  passing 0x0C (cmd (hdr 12 0) 600000 0 0 0 0) (closing 4) (fun k r => decide (fld k.w1 31 0 ≤ 600000) && shutter r == 1),
  passing 0x11 { cmd (hdr 0x11 1) 9 0x1000 1 0 0 with buf := some [255, 255, 3, 0] } (withSeq up { seqA with length := 4194304 } homeA) (fun k r =>
    holds (ownedB r k 9) fun x => x.st == .runnable && holds (cmdBytes r k 2 4 k.buf) fun b =>
      decide (fld k.w3 22 0 = 1 ∧ leAt b 0 4 ≤ 262143 ∧ 4194304 < x.length + 0 + 1) && r.ce.logJobs.isEmpty),
  [(true, false), (false, true), (false, false)].all fun a => passing 0x41 (cmd (hdr 0x41 1) 3 0 0 0 0) (upImage a.1 a.2) (fun k r =>
    holds (tget r.st.images (fld k.w1 7 0)) fun im => im.ctx == cCtx k && decide (2 ≤ im.st) && im.frames == [4] && (frame r 4).st == .system &&
      (frame r 5).st == .free &&
      ((r.st.plans.any fun kv => kv.2.ctx == im.ctx && kv.2.stages.any fun g => g.kind == 3 && g.imageId == 3) ||
        (r.pg.seqs.any fun kv => kv.2.ctx == im.ctx && kv.2.hasImage && kv.2.imageId == 3 && seqLive kv.2)) == (a.1 || a.2)),
  [Access.rw, .rwl, .w1c, .w1s, .ro, .wo, .rc].all fun a => allRegs.any fun d => d.fields.any fun f => f.acc == a && decide (f.lo ≤ f.hi),
  run up 7 (fun u => holds (findReg rPgFreeWm.base allRegs) fun x =>
    let w := word (2 ^ 60)
    w.toNat &&& definedMask x.1 != w.toNat && decide (rPgFreeWm.base % 8 = 0 ∧ rPgFreeWm.base < 0x4000000) && u.gl.phase == 2),
  (let s := taken 0xE0 (echo (hdr 0xE0 0)) up
   holds (openCmd s up.host.cmdCtr) fun o => o.cmd.ring == 0 && rbit s rCqCtrl 0 0 && (ring s 0).gen == o.gen),
  (let s := wf (taken 0xE0 (echo (hdr 0xE0 0)) up) rCqCtrl 0 0 0 0
   (openCmd s up.host.cmdCtr).isSome && !rbit s rCqCtrl 0 0),
  (rbit (upEq 15 []) rEqCtrl 0 0 && decide (sub32 (evq (upEq 15 []) 0).tail (evq (upEq 15 []) 0).head < 2 ^ rf (upEq 15 []) rEqCtrl 0 5 1)),
  (rbit (upEq 16 []) rEqCtrl 0 0 && !decide (sub32 (evq (upEq 16 []) 0).tail (evq (upEq 16 []) 0).head < 2 ^ rf (upEq 16 []) rEqCtrl 0 5 1) &&
    decide ((evq (upEq 16 []) 0).held.length < 4096)),
  !rbit up rEqCtrl 0 0,
  run (setRing up 0 ⟨1, 0, 4, 0, 0, false, false, true⟩) 7 (fun u => (ring u 0).stopped),
  canonical up && canonical upApt,
  run upApt 7 (fun u => aptFor u 64 8 true == some 3 && (aptFor u 65532 8 true).isNone),
  run up 7 (fun u => decide (u.now < u.pg.lastTick + rf u rPgReclaim 0 16 0 * 1000 ∧ u.now < u.ce.renewAt + renewNs u)),
  run (modFab up fun f => { f with regions := [(0, { regionA with latch := 1 })] }) 7 (fun u => holds (lvOf u reg0) fun v => decide (u.now < offerEnd u v)),
  run (withSeq up { seqA with expiry := 8 } homeA) 7 (fun u => holds (seqOf u 9) fun x => decide (u.now < x.expiry)),
  run upTxn 7 (fun u => holds (tget u.host.txns 1) fun x => decide (u.now < x.opened + rf u rCqTxnCtrl 0 16 0 * 1000000)),
  run (modSt up fun t => { t with panes := [(4, paneA 0)] }) 7 (fun u => holds (tget u.st.panes 4) fun p => decide (u.now < p.deadline)),
  cellWf (cmsg mStripeReplace (2 ^ 32 - 1) 9 (2 + 2 ^ 32) (6 * 2 ^ 44) (9 * 2 ^ 44)) && cellWf (cmsg mProbe 4 0 0 0 0),
  latchWf 5 forwardA && latchWf 6 (lmsg mHingeAccept reg6 3),
  packetWf (dataA ptWriteImm 600 4032 (List.replicate 64 1)) && packetWf (pktA ptAck 5 6 0 3 64 [])
  ] : List Bool).all id = true := by decide +kernel

/-! ### Well-formed commands -/

/-- One ill-formed command for each check, and one well-formed command. -/
theorem test_wf : ([
  !Instr.wf (.diagEcho { cmd (hdr 0xE0 0) 5 6 0 0 0 with ring := 256 }), !Instr.wf (.sqTail 0 256 1), !Instr.wf (.sqTail 0 0 (2 ^ 32)),
  !Instr.wf (.commandTake 0 3 (some ⟨[], none, none⟩)), !Instr.wf (.eqEnable 0 64 0), !Instr.wf (.write 0 65536),
  !Instr.wf (.retxTimeout 0 600 (2 ^ 24) 0), !Instr.wf (.windowGuardExpiry 0 (2 ^ 24)), !Instr.wf (.rxWrite 0 25 []), !Instr.wf (.egressNextFrame 0 24),
  !Instr.wf (.leaseAck 0 (2 ^ 20) []), !Instr.wf (.unitReset 0 3 24), !Instr.wf (.unitReset 0 4 0), Instr.wf (.unitReset 0 3 23),
  !Instr.wf (.homeLeaseExpiry 0 (2 ^ 20)), !Instr.wf (.epochNoticeResend 0 (2 ^ 32)), !Instr.wf (.pllStop 0 2), !Instr.wf (.stackSelfRefresh 0 24),
  !Instr.wf (.sramRetention 0 512), !Instr.wf (.patrolScrub 0 (2 ^ 25) [] []), !Instr.wf (.epTimeSet 0 (2 ^ 64)),
  !Instr.wf (.apertureEnable 0 256 0), !Instr.wf (.armCounterWrite 0 4096 0), !Instr.wf (.registerWrite 0 0 4 (some (2 ^ 32)) false),
  !Instr.wf (.sourcePending 0 1024 true), !Instr.wf (.claim 0 ⟨6, false⟩), !Instr.wf (.coreEoi 0 5 1024), !Instr.wf (.hostEoi 0 2048),
  !Instr.wf (.hpIdleHint 0 32 0), !Instr.wf (.pmbAlert 0 [3, 16]), !Instr.wf (.pmbusPoll 0 16 none),
  !Instr.wf (.thermalEval 0 { thermalA with temps := [60] }), !Instr.wf (.thermalTrip 0 12 ⟨0, 130⟩), !Instr.wf (.portTrainDone 0 2 [4]),
  !Instr.wf (.blockLockLoss 0 2 4), !Instr.wf (.fatalInternalError 0 6), !Instr.wf (.fatalInternalError 0 0), !Instr.wf (.d2dLinkStall 0 21 0 0),
  !Instr.wf (.railFault 0 8), !Instr.wf (.tamperTrip 0 4), !Instr.wf (.hpHotReset 0 3), !Instr.wf (.hpReturn 0 4 8), !Instr.wf (.cxlLinkDown 0 3),
  !Instr.wf (.cxlDeviceRemoved 0 2 8), !Instr.wf (.auxPerst 0 2), !Instr.wf (.txnExpired 0 256), !Instr.wf (.getVersion 0 2),
  !Instr.wf (.getMeasurements 0 1 256 []), !Instr.wf (.linkKeyStage 0 1 2 3 2 4), !Instr.wf (.erefclkLoss 0 4),
  Instr.wf (.sqTail 7 255 (2 ^ 32 - 1))
  ] : List Bool).all id = true := by decide +kernel

/-! ### Single steps -/

/-- R354: DIAG_ECHO returns W1 and W2. -/
theorem test_diag_echo : (nextOf (exec (.diagEcho (cmd (hdr 0xE0 0) 5 6 0 0 0)) base)).host.out =
    [.reply 0 0 (replyBytes true 0 ⟨7, 0, 0, 0xE0, 5, 6⟩)] := by decide +kernel

/-- R4: SET_ROLE under a closed Shutter. -/
theorem test_set_role : role (nextOf (exec (.setRole (cmd (hdr 1 0) 2 0 0 0 0)) base)) = 2 := by decide +kernel

/-- R338, R364: a write of SQ_TAIL past the ring's depth sets DOORBELL and stops the ring. -/
theorem test_bad_doorbell : (ring (nextOf (exec (.sqTail 7 0 65) base)) 0).doorbell = true := by decide +kernel

/-- R369: a claim takes the source of the lowest group, and the smaller number of two. -/
theorem test_claim : (nextOf (exec (.claim 7 ⟨2, false⟩) (modIntr (wrReg (wrReg (wrReg base rIcSrc 0x231 0 (word (2 ^ 31 + 5 * 2 ^ 8 + 2 * 2 ^ 28)))
    rIcSrc 0x230 0 (word (2 ^ 31 + 5 * 2 ^ 8 + 2 * 2 ^ 28))) rIcCoreMask 2 0 (word (255 * 2 ^ 8))) fun i =>
    { i with corePend := [0x231, 0x230] }))).intr.corePend = [0x231] := by decide +kernel

end Sys2Proof.Tests
end

section
/-! Page frames (R23): where a frame lies, and the rejection of a page number that names no frame. -/
namespace Sys2Proof.Machine

/-! ### Where a frame lies -/

/-- The stack of a frame of the device is the five bits above its number within the stack. -/
theorem frameStack_eq_bits (f : Nat) (h : f < numFrames) : frameStack f = bits f 24 20 := by
  have hlt : f / 2 ^ 20 < 2 ^ 5 := by unfold numFrames at h; omega
  unfold bits
  rw [Nat.shiftRight_eq_div_pow]
  exact (Nat.mod_eq_of_lt hlt).symm

/-- A frame number is its stack followed by its number within the stack. -/
theorem frameStack_mul_add_bits (f : Nat) : frameStack f * 1048576 + bits f 19 0 = f :=
  Nat.div_add_mod' f 1048576

/-- Each stack takes 2^36 bytes from the bottom of the local address space (R22). -/
theorem regionOf_stack (a : Nat) (h : a < 0x018000000000) : regionOf a = .stack (a / 0x1000000000) := if_pos h

/-- A stack's bytes are exactly those of its frames. -/
theorem frameAddr_add_div (f j : Nat) (hj : j < 0x10000) : (frameAddr f + j) / 0x1000000000 = frameStack f := by
  unfold frameAddr frameStack
  omega

/-- Every byte of a frame lies in the frame's stack. -/
theorem regionOf_frameAddr_add (f j : Nat) (hf : f < numFrames) (hj : j < 0x10000) :
    regionOf (frameAddr f + j) = .stack (frameStack f) := by
  have ha : frameAddr f + j < 0x018000000000 := by unfold frameAddr; unfold numFrames at hf; omega
  rw [regionOf_stack _ ha, frameAddr_add_div f j hj]

/-! ### Page numbers that name no frame -/

/-- Whether its reserved field is zero or not, a handle whose page number names no frame is rejected (R37). -/
theorem handleCheck_page_high (s : State) (w : Word) (h : numFrames ≤ fld w 43 19) :
    handleCheck s w = some (sInvalidParam, 0) := by
  unfold handleCheck
  by_cases hr : fld w 10 0 = 0
  · rw [if_neg (not_not_intro hr), if_pos h]
  · rw [if_pos hr]

theorem opDiagFrameRead_page_high (id : Nat) (c : Cmd) (s : State) (h : numFrames ≤ fld c.w1 24 0) :
    opDiagFrameRead id c s = finish s id sInvalidParam 0 0 0 := if_pos h

/-- A command of an opcode with no range check of its own, once past the checks of R341, does what its opcode does. -/
theorem hosted_passed (op : Nat) (act : Nat → Cmd → State → State) (c : Cmd) (s : State)
    (hop : opRun op c s = runOp op noRange act c s) (h : passes op c s) :
    hosted op c s = .next (after s (act s.host.cmdCtr (withOpcode c op) (taken op c s))) := by
  rw [hosted_runs op c s h.1, hop, runOp_passed op noRange act c s h rfl]

theorem exec_diagFrameRead_passed (c : Cmd) (s : State) (h : passes 0xE1 c s) : exec (.diagFrameRead c) s =
    .next (after s (opDiagFrameRead s.host.cmdCtr (withOpcode c 0xE1) (taken 0xE1 c s))) :=
  hosted_passed 0xE1 opDiagFrameRead c s rfl h

/-- Settles O8: a frame's address and stack by division, and each of the two places that check a page number. -/
theorem pageFrames : Obligations.PageFrames := by
  unfold Obligations.PageFrames
  refine ⟨fun f hf => ?_, handleCheck_page_high, fun s c hw h => ?_⟩
  · exact ⟨rfl, rfl, frameStack_eq_bits f hf, (frameStack_mul_add_bits f).symm,
      fun j hj => regionOf_frameAddr_add f j hf hj⟩
  · rw [exec_diagFrameRead_passed c s h, opDiagFrameRead_page_high _ (withOpcode c 0xE1) _ hw]

end Sys2Proof.Machine
end

section
/-! The layout of a page handle (R36): its fields read back, and a word put together again from its fields. -/
namespace Sys2Proof.Machine

/-! ### A word and the fields of R36 -/

/-- A field by division: what stands above its lowest bit, cut to its width. -/
theorem fld_eq_div_mod (w : Word) (hi lo : Nat) : fld w hi lo = w.toNat / 2 ^ lo % 2 ^ (hi + 1 - lo) := by
  rw [fld, bits, Nat.shiftRight_eq_div_pow]

/-- The four fields of R36 cover a word, each at the place of its lowest bit. -/
theorem toNat_eq_handle_fields (w : Word) :
    w.toNat = fld w 63 44 * 2 ^ 44 + fld w 43 19 * 2 ^ 19 + fld w 18 11 * 2 ^ 11 + fld w 10 0 := by
  have hw : w.toNat < 2 ^ 64 := w.isLt
  simp only [fld_eq_div_mod]
  omega

/-- The generation field of a word is one of 256 (R38). -/
theorem fld_generation_lt (w : Word) : fld w 18 11 < 256 := by
  rw [fld_eq_div_mod]
  exact Nat.mod_lt _ (by decide)

/-! ### The handle the controller makes -/

/-- Fields within their widths lie side by side in the handle: none spills into the next or out of the word. -/
theorem handle_toNat (ep page gen : Nat) (hep : ep < 2 ^ 20) (hpage : page < 2 ^ 25) (hgen : gen < 256) :
    (handle ep page gen).toNat = ep * 2 ^ 44 + page * 2 ^ 19 + gen * 2 ^ 11 := by
  have hlt : ep * 2 ^ 44 + page * 2 ^ 19 + gen * 2 ^ 11 < 2 ^ 64 := by omega
  rw [handle, Nat.mod_eq_of_lt hgen, word, BitVec.toNat_ofNat, Nat.mod_eq_of_lt hlt]

/-- The fields of a handle are those it was made of, and its reserved field is zero. -/
theorem fld_handle (ep page gen : Nat) (hep : ep < 2 ^ 20) (hpage : page < 2 ^ 25) (hgen : gen < 256) :
    fld (handle ep page gen) 63 44 = ep ∧ fld (handle ep page gen) 43 19 = page ∧
      fld (handle ep page gen) 18 11 = gen ∧ fld (handle ep page gen) 10 0 = 0 := by
  simp only [fld_eq_div_mod, handle_toNat ep page gen hep hpage hgen]
  refine ⟨?endpoint, ?page, ?generation, ?reserved⟩ <;> omega

/-- A word whose reserved field is zero is the handle of its fields. -/
theorem eq_handle_of_reserved_zero (w : Word) (h : fld w 10 0 = 0) :
    w = handle (fld w 63 44) (fld w 43 19) (fld w 18 11) := by
  have hsum : fld w 63 44 * 2 ^ 44 + fld w 43 19 * 2 ^ 19 + fld w 18 11 * 2 ^ 11 = w.toNat := by
    rw [toNat_eq_handle_fields w, h, Nat.add_zero]
  rw [handle, Nat.mod_eq_of_lt (fld_generation_lt w), hsum, word, BitVec.ofNat_toNat, BitVec.setWidth_eq]

/-- Settles O9: a handle's fields lie side by side, and a word is the sum of its fields. -/
theorem pageHandleLayout : Obligations.PageHandleLayout := by
  unfold Obligations.PageHandleLayout
  refine ⟨fun ep page gen hep hpage hgen => ?_, eq_handle_of_reserved_zero⟩
  have hwidth : page < 2 ^ 25 := by omega
  exact fld_handle ep page gen hep hwidth hgen

end Sys2Proof.Machine
end

section
/-! IMG_UNLOAD (R139): what releasing an image's frames and backup slots does to every frame, and the image that is named. -/
namespace Sys2Proof.Machine

/-! ### What a release changes -/

/-- A state is another one with nothing changed but the record of pages. -/
def OnlyPages (s t : State) : Prop := ∃ p, t = { s with pg := p }

theorem OnlyPages.refl (s : State) : OnlyPages s s := ⟨s.pg, rfl⟩

theorem OnlyPages.trans {s t u : State} (h : OnlyPages s t) (h' : OnlyPages t u) : OnlyPages s u := by
  obtain ⟨p, rfl⟩ := h
  obtain ⟨q, rfl⟩ := h'
  exact ⟨q, rfl⟩

theorem OnlyPages.modPg (s : State) (f : PagesS → PagesS) : OnlyPages s (modPg s f) := ⟨f s.pg, rfl⟩

/-- A fold of steps that each keep a preorder on states keeps it. -/
theorem foldl_related {α : Type} {R : State → State → Prop} (step : State → α → State) (hrefl : ∀ s, R s s)
    (htrans : ∀ s t u, R s t → R t u → R s u) (hstep : ∀ s a, R s (step s a)) (l : List α) (s : State) :
    R s (l.foldl step s) := by
  induction l generalizing s with
  | nil => exact hrefl s
  | cons a l ih => exact htrans _ _ _ (hstep s a) (ih (step s a))

theorem dropSystem_onlyPages (s : State) (f : Nat) : OnlyPages s (dropSystem s f) := by
  unfold dropSystem
  split
  · exact .modPg s _
  · exact .refl s

/-! ### Frames released -/

/-- The record of a system frame once it is released (R42). -/
def releasedFrame (a : Frame) : Frame := { a with st := .freePending, grace := 0, use := .none }

theorem releasedFrame_st_ne (a : Frame) : (releasedFrame a).st ≠ .system := nofun

/-- A release acts on a SYSTEM frame alone, and on that frame only. -/
theorem frame_dropSystem (s : State) (f g : Nat) : frame (dropSystem s f) g =
    if g = f ∧ (frame s g).st = .system then releasedFrame (frame s g) else frame s g := by
  unfold dropSystem
  split
  case isTrue hs =>
    by_cases hg : g = f
    · subst hg
      rw [if_pos ⟨rfl, hs⟩]
      exact tgetD_tput_self _ _ _ _
    · rw [if_neg (fun h => hg h.1)]
      exact tgetD_tput_ne _ _ _ _ _ hg
  case isFalse hs =>
    rw [if_neg]
    rintro ⟨rfl, h⟩
    exact hs h

theorem frame_foldl_dropSystem (l : List Nat) (s : State) (g : Nat) : frame (l.foldl dropSystem s) g =
    if g ∈ l ∧ (frame s g).st = .system then releasedFrame (frame s g) else frame s g := by
  induction l generalizing s with
  | nil => simp
  | cons f l ih =>
    rw [List.foldl_cons, ih, frame_dropSystem]
    by_cases hg : g = f ∧ (frame s g).st = .system
    · -- released here, the frame is no SYSTEM frame for the rest of the list
      have hin : g ∈ f :: l ∧ (frame s g).st = .system := ⟨List.mem_cons.2 (.inl hg.1), hg.2⟩
      rw [if_pos hg, if_pos hin, if_neg (fun h => releasedFrame_st_ne _ h.2)]
    · have hin : (g ∈ f :: l ∧ (frame s g).st = .system) ↔ (g ∈ l ∧ (frame s g).st = .system) := by
        rw [List.mem_cons]
        tauto
      simp only [if_neg hg, hin]

theorem frame_foldl_dropSystem_of_not_mem (l : List Nat) (s : State) (f : Nat) (hf : f ∉ l) :
    frame (l.foldl dropSystem s) f = frame s f := by
  rw [frame_foldl_dropSystem, if_neg (fun h => hf h.1)]

/-! ### Statistics frames that go with a slot (R41) -/

/-- A release of statistics records: nothing but pages changes, and a frame either stays or is a statistics frame released. -/
def FreesStats (s t : State) : Prop :=
  OnlyPages s t ∧ ∀ g, frame t g = frame s g ∨
    ((frame s g).use = .stats ∧ (frame s g).st = .system ∧ frame t g = releasedFrame (frame s g))

theorem FreesStats.refl (s : State) : FreesStats s s := ⟨.refl s, fun _ => .inl rfl⟩

theorem FreesStats.trans {s t u : State} (h : FreesStats s t) (h' : FreesStats t u) : FreesStats s u := by
  refine ⟨h.1.trans h'.1, fun g => ?_⟩
  rcases h.2 g with same | ⟨use, st, freed⟩
  · rw [← same]
    exact h'.2 g
  · rcases h'.2 g with same' | ⟨use', _, _⟩
    · exact .inr ⟨use, st, same'.trans freed⟩
    · -- a frame once released holds no statistics
      rw [freed] at use'
      cases use'

theorem FreesStats.use_or_same {s t : State} (h : FreesStats s t) (g : Nat) :
    (frame s g).use = .stats ∨ frame t g = frame s g := by
  rcases h.2 g with same | ⟨use, _, _⟩
  · exact .inr same
  · exact .inl use

/-- A frame in FREE-PENDING stays so: a release acts on SYSTEM frames. -/
theorem FreesStats.freePending {s t : State} (h : FreesStats s t) (g : Nat) (hg : (frame s g).st = .freePending) :
    (frame t g).st = .freePending := by
  rcases h.2 g with same | ⟨_, st, _⟩
  · rw [same, hg]
  · rw [hg] at st
    cases st

theorem dropSystem_freesStats (s : State) (f : Nat) (h : (frame s f).use = .stats) : FreesStats s (dropSystem s f) := by
  refine ⟨dropSystem_onlyPages s f, fun g => ?_⟩
  rw [frame_dropSystem]
  split
  case isTrue hg =>
    obtain ⟨rfl, hst⟩ := hg
    exact .inr ⟨h, hst, rfl⟩
  case isFalse => exact .inl rfl

theorem dropSystem_if_stats_freesStats (s : State) (f : Nat) (P : Prop) [Decidable P] (h : P → (frame s f).use = .stats) :
    FreesStats s (if P then dropSystem s f else s) := by
  split
  case isTrue hp => exact dropSystem_freesStats s f (h hp)
  case isFalse => exact .refl s

/-- A record of statistics takes one frame or two, and each is released only where it holds statistics. -/
theorem dropStats_freesStats (s : State) (ref : Nat) : FreesStats s (dropStats s ref) := by
  unfold dropStats
  dsimp only
  split
  · exact .refl s
  · exact (dropSystem_if_stats_freesStats s _ _ And.left).trans (dropSystem_if_stats_freesStats _ _ _ id)

theorem setSlot_freesStats (s : State) (n : Nat) (t : Slot) : FreesStats s (setSlot s n t) :=
  ⟨.modPg s _, fun _ => .inl rfl⟩

theorem releaseSlot_freesStats (s : State) (n : Nat) : FreesStats s (releaseSlot s n) := by
  unfold releaseSlot
  split
  · exact (setSlot_freesStats s n _).trans (dropStats_freesStats _ _)
  · exact .refl s

theorem foldl_releaseSlot_freesStats (l : List Nat) (s : State) : FreesStats s (l.foldl releaseSlot s) :=
  foldl_related releaseSlot .refl (fun _ _ _ => .trans) releaseSlot_freesStats l s

/-! ### A key removed from a table -/

/-- Every key behind the first of a rising table is greater than it, so no key up to the first stands there. -/
theorem tget_tail_eq_none {α : Type} (t : NTable α) (k n : Nat) (v : α) (h : tsorted ((k, v) :: t) = true) (hn : n ≤ k) :
    tget t n = none := by
  induction t generalizing k v with
  | nil => rfl
  | cons x t ih =>
    obtain ⟨j, w⟩ := x
    obtain ⟨hkj, ht⟩ : k < j ∧ tsorted ((j, w) :: t) = true := by simpa [tsorted] using h
    have hnj : n < j := Nat.lt_of_le_of_lt hn hkj
    rw [tget, if_neg (Nat.ne_of_lt hnj)]
    exact ih j w ht (Nat.le_of_lt hnj)

theorem tsorted_tail {α : Type} (x : Nat × α) (t : NTable α) (h : tsorted (x :: t) = true) : tsorted t = true := by
  cases t with
  | nil => rfl
  | cons y t => exact (Bool.and_eq_true_iff.1 h).2

/-- A key removed from a rising table is gone. -/
theorem tget_tdel_self {α : Type} (t : NTable α) (n : Nat) (h : tsorted t = true) : tget (tdel t n) n = none := by
  induction t with
  | nil => rfl
  | cons x t ih =>
    obtain ⟨k, v⟩ := x
    by_cases hn : n = k
    · rw [tdel, if_pos hn]
      exact tget_tail_eq_none t k n v h (Nat.le_of_eq hn)
    · rw [tdel, if_neg hn, tget, if_neg hn]
      exact ih (tsorted_tail _ t h)

/-! ### The image freed -/

/-- Freeing an image releases its frames, then the slots of its backup, and takes it off the table. -/
theorem imageFree_eq (r : State) (i : Nat) (im : Image) (h : tget r.st.images i = some im) :
    imageFree r i = modSt (im.slots.foldl releaseSlot (im.frames.foldl dropSystem r))
      fun t => { t with images := tdel t.images i } := by
  rw [imageFree, h]

theorem frame_imageFree (r : State) (i : Nat) (im : Image) (h : tget r.st.images i = some im) (f : Nat) :
    frame (imageFree r i) f = frame (im.slots.foldl releaseSlot (im.frames.foldl dropSystem r)) f := by
  rw [imageFree_eq r i im h]
  rfl

theorem releases_onlyPages (r : State) (im : Image) :
    OnlyPages r (im.slots.foldl releaseSlot (im.frames.foldl dropSystem r)) :=
  (foldl_related dropSystem .refl (fun _ _ _ => .trans) dropSystem_onlyPages im.frames r).trans
    (foldl_releaseSlot_freesStats im.slots _).1

/-- Freeing an image changes the record of pages, and the table of images by that image; nothing else. -/
theorem imageFree_changes (r : State) (i : Nat) (im : Image) (h : tget r.st.images i = some im) :
    ∃ p, imageFree r i = { r with pg := p, st := { r.st with images := tdel r.st.images i } } := by
  obtain ⟨p, hp⟩ := releases_onlyPages r im
  rw [imageFree_eq r i im h, hp]
  exact ⟨p, rfl⟩

theorem imageFree_mem (r : State) (i : Nat) (im : Image) (h : tget r.st.images i = some im) : (imageFree r i).mem = r.mem := by
  obtain ⟨p, hp⟩ := imageFree_changes r i im h
  rw [hp]

theorem imageFree_regs (r : State) (i : Nat) (im : Image) (h : tget r.st.images i = some im) : (imageFree r i).regs = r.regs := by
  obtain ⟨p, hp⟩ := imageFree_changes r i im h
  rw [hp]

theorem tget_imageFree_self (r : State) (i : Nat) (im : Image) (h : tget r.st.images i = some im)
    (hsorted : tsorted r.st.images = true) : tget (imageFree r i).st.images i = none := by
  obtain ⟨p, hp⟩ := imageFree_changes r i im h
  rw [hp]
  exact tget_tdel_self r.st.images i hsorted

theorem frame_imageFree_of_mem (r : State) (i : Nat) (im : Image) (h : tget r.st.images i = some im) (f : Nat)
    (hf : f ∈ im.frames) (hs : (frame r f).st = .system) : (frame (imageFree r i) f).st = .freePending := by
  rw [frame_imageFree r i im h]
  refine (foldl_releaseSlot_freesStats im.slots _).freePending f ?_
  rw [frame_foldl_dropSystem, if_pos ⟨hf, hs⟩, releasedFrame]

theorem frame_imageFree_of_not_mem (r : State) (i : Nat) (im : Image) (h : tget r.st.images i = some im) (f : Nat)
    (hf : f ∉ im.frames) : (frame r f).use = .stats ∨ frame (imageFree r i) f = frame r f := by
  rw [frame_imageFree r i im h, ← frame_foldl_dropSystem_of_not_mem im.frames r f hf]
  exact (foldl_releaseSlot_freesStats im.slots _).use_or_same f

theorem frame_imageFree_of_no_slots (r : State) (i : Nat) (im : Image) (h : tget r.st.images i = some im)
    (hslots : im.slots = []) (f : Nat) (hf : f ∉ im.frames) : frame (imageFree r i) f = frame r f := by
  rw [frame_imageFree r i im h, hslots, List.foldl_nil, frame_foldl_dropSystem_of_not_mem im.frames r f hf]

/-! ### The command -/

/-- A loaded plan or a live sequence of context c names image i (R139). -/
def NamesImage (r : State) (c i : Nat) : Prop :=
  (∃ kv ∈ r.st.plans, kv.2.ctx = c ∧ ∃ g ∈ kv.2.stages, g.kind = 3 ∧ g.imageId = i) ∨
    (∃ kv ∈ r.pg.seqs, kv.2.ctx = c ∧ kv.2.hasImage = true ∧ kv.2.imageId = i ∧ seqLive kv.2 = true)

theorem imageNamed_iff (r : State) (c i : Nat) : imageNamed r c i = true ↔ NamesImage r c i := by
  simp only [imageNamed, NamesImage, Bool.or_eq_true, List.any_eq_true, Bool.and_eq_true, beq_iff_eq, and_assoc]

theorem opImgUnload_named (id : Nat) (k : Cmd) (r : State) (im : Image) (h : tget r.st.images (fld k.w1 7 0) = some im)
    (hn : NamesImage r im.ctx (fld k.w1 7 0)) : opImgUnload id k r = finish r id sInvalidParam 0 0 0 := by
  simp only [opImgUnload, h]
  exact if_pos (.inr (.inr ((imageNamed_iff _ _ _).2 hn)))

theorem opImgUnload_unnamed (id : Nat) (k : Cmd) (r : State) (im : Image) (h : tget r.st.images (fld k.w1 7 0) = some im)
    (hctx : im.ctx = cCtx k) (hst : 2 ≤ im.st) (hn : ¬NamesImage r im.ctx (fld k.w1 7 0)) :
    opImgUnload id k r = finish (imageFree r (fld k.w1 7 0)) id sOk 0 0 0 := by
  simp only [opImgUnload, h]
  refine if_neg ?_
  rintro (hother | hloading | hnamed)
  · exact hother hctx
  · exact Nat.not_lt.2 hst hloading
  · exact hn ((imageNamed_iff _ _ _).1 hnamed)

theorem exec_imgUnload_passed (c : Cmd) (s : State) (h : passes 0x41 c s) : exec (.imgUnload c) s =
    .next (after s (opImgUnload s.host.cmdCtr (withOpcode c 0x41) (taken 0x41 c s))) :=
  hosted_passed 0x41 opImgUnload c s rfl h

/-- Settles O13: the command's two answers, and what its release does to the frames within and outside the image. -/
theorem imageUnload : Obligations.ImageUnload := by
  unfold Obligations.ImageUnload
  intro s c h im i named him hctx hst
  rw [exec_imgUnload_passed c s h]
  refine ⟨fun hn => ?named, fun hn => ⟨?unnamed, tget_imageFree_self _ i im him, imageFree_mem _ i im him,
    imageFree_regs _ i im him, frame_imageFree_of_mem _ i im him, frame_imageFree_of_not_mem _ i im him,
    frame_imageFree_of_no_slots _ i im him⟩⟩
  case named => rw [opImgUnload_named _ _ _ im him hn]
  case unnamed => rw [opImgUnload_unnamed _ _ _ im him hctx hst hn]

end Sys2Proof.Machine
end

section
/-! End of interrupt at a core (R369): what a write of EOI does when it names the source at the top of the stack, and otherwise. -/
namespace Sys2Proof.Machine

/-! ### A source's type and condition, read from registers and the levels noted -/

/-- A source's type is the part's or IC_SRC's (R365), never what is pending or active. -/
@[simp] theorem isLevel_modIntr (s : State) (f : IntrS → IntrS) (n : Nat) : isLevel (modIntr s f) n = isLevel s n := rfl

/-- Apart from the levels noted, nothing of the interrupt record bears on a level source's condition. -/
theorem levelHolds_modIntr (s : State) (f : IntrS → IntrS) (n : Nat) (h : (f s.intr).levels = s.intr.levels) :
    levelHolds (modIntr s f) n = levelHolds s n := by
  unfold levelHolds
  rw [modIntr_intr, h]
  rfl

/-! ### The two outcomes of an EOI -/

/-- The source at the top: its group is popped, and the condition sampled after the pop is the one that held before it. -/
theorem coreEoi_top (s : State) (k n g : Nat) (rest : List (Nat × Nat)) (h : coreStack s k = (g, n) :: rest) :
    coreEoi s k n = modIntr s fun i => { i with
      active := tput i.active k rest
      corePend := if isLevel s n = true ∧ levelHolds s n = true then addSorted n i.corePend else i.corePend } := by
  have hsample : levelHolds (modIntr s fun i => { i with active := tput i.active k rest }) n = levelHolds s n :=
    levelHolds_modIntr s _ n rfl
  simp only [coreEoi, h, if_true, isLevel_modIntr, hsample]
  by_cases hlevel : isLevel s n = true ∧ levelHolds s n = true
  · simp only [if_pos hlevel]
    rfl
  · simp only [if_neg hlevel]

/-- Any other source, or an empty stack: only the error is recorded. -/
theorem coreEoi_other (s : State) (k n : Nat) (h : ∀ (g : Nat) (rest : List (Nat × Nat)), coreStack s k ≠ (g, n) :: rest) :
    coreEoi s k n = wf s rIcErr 0 1 1 1 := by
  unfold coreEoi
  cases hstack : coreStack s k with
  | nil => rfl
  | cons top rest =>
    obtain ⟨g, m⟩ := top
    have hm : m ≠ n := fun hmn => h g rest (hmn ▸ hstack)
    exact if_neg hm

/-! ### The command -/

theorem exec_coreEoi_running (s : State) (t k n : Nat) (h : s.gl.phase = 2) :
    exec (.coreEoi t k n) s = .next (after s (coreEoi (tick s t) k n)) :=
  running_runs s t (fun u => coreEoi u k n) h

/-- Settles O10: the running controller's EOI, by whether it names the source at the top of the core's stack. -/
theorem coreEndOfInterrupt : Obligations.CoreEndOfInterrupt := by
  unfold Obligations.CoreEndOfInterrupt
  intro s t k n hphase u
  rw [exec_coreEoi_running s t k n hphase]
  refine ⟨fun g rest htop => ?top, fun hother => ?other⟩
  case top => rw [coreEoi_top u k n g rest htop]
  case other => rw [coreEoi_other u k n hother]

end Sys2Proof.Machine
end

section
/-! GL_ID (R473): its value at reset, and a write at either half of it, which at most records an error (R8, R9). -/
namespace Sys2Proof.Machine

/-! ### The register file -/

/-- The stored value of a register depends on the register file only. -/
theorem rdReg_congr {r s : State} (h : r.regs = s.regs) (d : RegDesc) (i k : Nat) : rdReg r d i k = rdReg s d i k := by
  unfold rdReg
  rw [h]

@[simp] theorem rdReg_tick (s : State) (t : Nat) (d : RegDesc) (i k : Nat) : rdReg (tick s t) d i k = rdReg s d i k :=
  rdReg_congr (tick_regs s t) d i k

/-- A reserved write's record changes GL_ERR and no other register. -/
theorem rdReg_rsvdWrite_ne (s : State) (d : RegDesc) (i k : Nat) (h : ra2 d i k ≠ ra2 rGlErr 0 0) :
    rdReg (rsvdWrite s) d i k = rdReg s d i k := by
  unfold rsvdWrite setErr
  rw [rdReg_congr (sampleLevel_regs _ _), rdReg_wrReg_ne _ _ _ _ _ _ _ _ h]

/-! ### Writes to a read-only register -/

/-- Fields that are all read-only keep the old value, whatever is written (R8). -/
theorem fieldsWritten_readOnly (s : State) (d : RegDesc) (old w : Word) (h : ∀ f ∈ d.fields, f.acc = .ro) :
    fieldsWritten s d old w = old := by
  unfold fieldsWritten
  generalize d.fields = fields at h
  induction fields with
  | nil => rfl
  | cons f fs ih =>
    obtain ⟨hf, hfs⟩ := List.forall_mem_cons.mp h
    rw [List.foldl_cons, hf]
    exact ih hfs

/-- A write by access codes alone leaves such a register as it was, in range or not. -/
theorem rdReg_plainWrite_readOnly (s : State) (d : RegDesc) (i k : Nat) (w : Word) (hro : ∀ f ∈ d.fields, f.acc = .ro)
    (herr : ra2 d i k ≠ ra2 rGlErr 0 0) : rdReg (plainWrite s d i k w) d i k = rdReg s d i k := by
  unfold plainWrite
  split
  · rw [rdReg_wrReg, fieldsWritten_readOnly s d _ w hro]
  · exact rdReg_rsvdWrite_ne s d i k herr

/-! ### GL_ID -/

theorem rGlId_readOnly : ∀ f ∈ rGlId.fields, f.acc = .ro := by decide

theorem rGlId_ne_rGlErr : ra2 rGlId 0 0 ≠ ra2 rGlErr 0 0 := by decide

/-- No fuse or strap sets GL_ID: at reset it holds its value of R474. -/
theorem rdReg_reset_rGlId : rdReg State.reset rGlId 0 0 = word 0x124004D4C := rfl

/-- GL_ID lies at the bottom of BAR0. -/
theorem findReg_zero : findReg 0 allRegs = some (rGlId, 0, 0) := by decide +kernel

/-- GL_ID is no register whose writes do more: a write that sets no reserved bit goes by access codes alone. -/
theorem writeReg_rGlId (s : State) (w : Word) (lo core : Bool) : writeReg s rGlId 0 0 w lo core =
    if w.toNat &&& definedMask rGlId ≠ w.toNat then rsvdWrite s else plainWrite s rGlId 0 0 w := rfl

/-- Neither of the two outcomes of a write to GL_ID changes it. -/
theorem rdReg_writeReg_rGlId (s : State) (w : Word) (lo core : Bool) :
    rdReg (writeReg s rGlId 0 0 w lo core) rGlId 0 0 = rdReg s rGlId 0 0 := by
  rw [writeReg_rGlId]
  split
  · exact rdReg_rsvdWrite_ne s rGlId 0 0 rGlId_ne_rGlErr
  · exact rdReg_plainWrite_readOnly s rGlId 0 0 w rGlId_readOnly rGlId_ne_rGlErr

/-- A write of any size in the eight bytes of GL_ID is refused by the bus, or reaches GL_ID (R451). -/
theorem rdReg_busWrite_rGlId (s : State) (a n v : Nat) (core : Bool) (ha : a < 8) :
    rdReg (busWrite s a n v core) rGlId 0 0 = rdReg s rGlId 0 0 := by
  have hbase : a - a % 8 = 0 := by omega
  unfold busWrite
  rw [hbase, findReg_zero]
  split
  · rfl
  · split
    · rfl
    · exact rdReg_writeReg_rGlId s _ _ core

theorem exec_registerWrite (s : State) (t a n v : Nat) (core : Bool) :
    exec (.registerWrite t a n (some v) core) s = .next (after s (busWrite (tick s t) a n v core)) :=
  always_runs s t fun u => busWrite u a n v core

/-- Settles O7: the fields of the value at reset, and the write seen through the bus, the register and its access codes. -/
theorem glIdRegister : Obligations.GlIdRegister := by
  unfold Obligations.GlIdRegister rf
  rw [rdReg_reset_rGlId]
  refine ⟨by decide, by decide, by decide, by decide, fun s t n v core a ha => ?write⟩
  case write =>
    refine ⟨busWrite (tick s t) a n v core, ?_, exec_registerWrite s t a n v core⟩
    rw [rdReg_busWrite_rGlId _ a n v core (by omega), rdReg_tick]

end Sys2Proof.Machine
end

section
/-! The queue of waiting commands: a step takes one command off it and leaves the rest, and idles when none waits. -/
namespace Sys2Proof.Machine

/-- Every command ends by `done`: whatever its effect, the queue after it is the one it was given. -/
theorem exec_eq_done (i : Instr) (s : State) : ∃ r, exec i s = done s r := by
  cases i <;> exact ⟨_, rfl⟩

/-- A command leaves the queue as it was. -/
theorem exec_pending {i : Instr} {s t : State} (h : exec i s = .next t) : t.pending = s.pending := by
  obtain ⟨r, hr⟩ := exec_eq_done i s
  rw [hr, done_eq] at h
  obtain rfl := Host.Outcome.next.inj h
  rfl

theorem step_nil (s : State) (h : s.pending = []) : step s = .next s := by
  rw [step, h]

theorem step_cons (s : State) (c : Instr) (rest : List Instr) (h : s.pending = c :: rest) :
    step s = exec c { s with pending := rest } := by
  rw [step, h]

/-- The queue after a step is the tail of the queue before it. -/
theorem step_pending {s t : State} (h : step s = .next t) : t.pending = s.pending.tail := by
  cases hq : s.pending with
  | nil =>
    rw [step_nil s hq] at h
    obtain rfl := Host.Outcome.next.inj h
    rw [hq, List.tail_nil]
  | cons c rest =>
    rw [step_cons s c rest hq] at h
    rw [exec_pending h, List.tail_cons]

/-- Settles O1: the queue's first command is the one that runs. -/
theorem stepRunsFrontCommand : Obligations.StepRunsFrontCommand := step_cons

/-- Settles O2: no command touches the queue, so the step's own taking is all that changes it. -/
theorem stepPopsOneCommand : Obligations.StepPopsOneCommand := fun _ _ h => step_pending h

/-- Settles O3: the commands left are among those that waited before. -/
theorem stepKeepsQueueWf : Obligations.StepKeepsQueueWf := by
  unfold Obligations.StepKeepsQueueWf queueWf
  intro s t hwf h
  rw [List.all_eq_true] at hwf ⊢
  intro i hi
  rw [step_pending h] at hi
  exact hwf i (List.mem_of_mem_tail hi)

/-- Settles O4: the state after reset is given field by field, and only four registers differ from their values of R474. -/
theorem resetState : Obligations.ResetState := by
  unfold Obligations.ResetState
  refine ⟨rfl, ?canonical, rfl, rfl, ?shutter, rfl⟩
  case canonical => rfl
  case shutter => decide +kernel

/-- Settles O5: the step's own case of an empty queue. -/
theorem stepIdlesWithNoCommand : Obligations.StepIdlesWithNoCommand := step_nil

/-- Settles O6: with nothing due, settling is the identity. -/
theorem quietCommandsEnd : Obligations.QuietCommandsEnd := by
  unfold Obligations.QuietCommandsEnd
  intro s r h
  rw [after, settle_quiet r h]

end Sys2Proof.Machine
end

section
/-! Little-endian bytes (R6): a number written as k bytes and read again, and words read from bytes written side by side. -/
namespace Sys2Proof.Machine

@[simp] theorem toLE_length (k n : Nat) : (toLE k n).length = k := by
  induction k generalizing n with
  | zero => rfl
  | succ k ih => rw [toLE, List.length_cons, ih]

/-- A number written as k bytes reads as itself, cut to k bytes. -/
theorem ofLE_toLE (k n : Nat) : ofLE (toLE k n) = n % 256 ^ k := by
  induction k generalizing n with
  | zero => rw [toLE, ofLE, pow_zero, Nat.mod_one]
  | succ k ih =>
    rw [toLE, ofLE, ih, byte, BitVec.toNat_ofNat, pow_succ' 256 k]
    exact Nat.mod_mul.symm

/-- A slice that lies within a list is cut out of it, with no padding. -/
theorem slice_eq_take (bs : List Byte) (off n : Nat) (h : off + n ≤ bs.length) : slice bs off n = (bs.drop off).take n := by
  have hlen : ((bs.drop off).take n).length = n := by
    rw [List.length_take, List.length_drop]
    omega
  rw [slice, hlen, Nat.sub_self, List.replicate_zero, List.append_nil]

/-- A slice that starts behind the first part of a list is a slice of the second. -/
theorem slice_append_right (a b : List Byte) (off n : Nat) (h : a.length ≤ off) :
    slice (a ++ b) off n = slice b (off - a.length) n := by
  unfold slice
  rw [List.drop_append, List.drop_eq_nil_of_le h, List.nil_append]

theorem w64At_toLE_append (n : Nat) (bs : List Byte) : w64At (toLE 8 n ++ bs) 0 = n % 2 ^ 64 := by
  have hlen : 0 + 8 ≤ (toLE 8 n ++ bs).length := by simp
  rw [w64At, leAt, slice_eq_take _ _ _ hlen, List.drop_zero, List.take_left' (toLE_length 8 n), ofLE_toLE]
  rfl

/-- Words behind the first eight bytes are those of the rest. -/
theorem w64At_toLE_append_of_le (n off : Nat) (bs : List Byte) (h : 8 ≤ off) :
    w64At (toLE 8 n ++ bs) off = w64At bs (off - 8) := by
  have hlen : (toLE 8 n).length ≤ off := by rw [toLE_length]; exact h
  rw [w64At, leAt, slice_append_right _ _ _ _ hlen, toLE_length]
  rfl

/-- A field by division. -/
theorem bits_eq_div_mod (w hi lo : Nat) : bits w hi lo = w / 2 ^ lo % 2 ^ (hi + 1 - lo) := by
  rw [bits, Nat.shiftRight_eq_div_pow]

theorem bit_eq_div_mod (w n : Nat) : bit w n = (w / 2 ^ n % 2 == 1) := by
  rw [bit, Nat.shiftRight_eq_div_pow]

end Sys2Proof.Machine
end

section
/-! Messages between controllers (R275, R276): written to bytes and read back. -/
namespace Sys2Proof.Machine

/-! ### Cell messages (R276) -/

theorem w64At_encodeC (m : CMsg) :
    w64At (encodeC m) 0 = (m.sub + m.status * 2 ^ 16 + m.req % 2 ^ 32 * 2 ^ 32) % 2 ^ 64 ∧
    w64At (encodeC m) 8 = m.obj % 2 ^ 64 ∧ w64At (encodeC m) 0x10 = m.a % 2 ^ 64 ∧
    w64At (encodeC m) 0x18 = m.b % 2 ^ 64 ∧ w64At (encodeC m) 0x20 = m.c % 2 ^ 64 := by
  simp only [encodeC, List.append_assoc]
  refine ⟨?_, ?_, ?_, ?_, ?_⟩ <;> simp [w64At_toLE_append, w64At_toLE_append_of_le]

theorem encodeC_length (m : CMsg) : (encodeC m).length = 64 := by simp [encodeC]

/-- The 24 bytes from 0x28 are written as zero. -/
theorem encodeC_reserved (m : CMsg) : (((encodeC m).drop 0x28).take 24).any (· != 0) = false := by
  have hdrop : (encodeC m).drop 0x28 = List.replicate 24 0 := by
    rw [encodeC]
    exact List.drop_left' (by simp)
  rw [hdrop]
  rfl

/-- The subtype, status and request number lie side by side in the first word. -/
theorem cell_word0 (sub status req : Nat) (hsub : sub < 256) (hstatus : status < 2 ^ 16) (hreq : req < 2 ^ 32) :
    let w := (sub + status * 2 ^ 16 + req % 2 ^ 32 * 2 ^ 32) % 2 ^ 64
    bits w 7 0 = sub ∧ bits w 15 8 = 0 ∧ bits w 31 16 = status ∧ bits w 63 32 = req := by
  simp only [bits_eq_div_mod]
  omega

/-- An object number takes the low half of its word. -/
theorem object_word (n : Nat) (h : n < 2 ^ 32) : n % 2 ^ 64 = n ∧ bits n 63 32 = 0 := by
  rw [bits_eq_div_mod]
  omega

/-- Bytes are read as a message when its words lie in them, within the fields of its subtype, and the reserved bytes are zero. -/
theorem decodeC_eq_some (b : List Byte) (m : CMsg) (cls ma mb mc : Nat) (o : Bool) (hinfo : cInfo m.sub = some (cls, o, ma, mb, mc))
    (hsub : bits (w64At b 0) 7 0 = m.sub) (hlow : bits (w64At b 0) 15 8 = 0) (hstatus : bits (w64At b 0) 31 16 = m.status)
    (hreq : bits (w64At b 0) 63 32 = m.req) (hobj : w64At b 8 = m.obj) (ha : w64At b 0x10 = m.a) (hb : w64At b 0x18 = m.b)
    (hc : w64At b 0x20 = m.c) (hlen : b.length = 64) (hhigh : bits m.obj 63 32 = 0) (ho : o = true ∨ m.obj = 0)
    (hma : m.a &&& ma = m.a) (hmb : m.b &&& mb = m.b) (hmc : m.c &&& mc = m.c)
    (hzero : ((b.drop 0x28).take 24).any (· != 0) = false) : decodeC b = some m := by
  have ho' : ¬(o = false ∧ m.obj ≠ 0) := by
    rintro ⟨rfl, hne⟩
    exact ho.elim nofun hne
  unfold decodeC
  simp only [hsub, hinfo, hlow, hstatus, hreq, hobj, ha, hb, hc, hlen, hhigh, ho', hma, hmb, hmc, hzero]
  simp

/-- Settles O24: each word of the 64 bytes reads as it was written, and the fields that must be zero are. -/
theorem cellMessagesRoundTrip : Obligations.CellMessagesRoundTrip := by
  unfold Obligations.CellMessagesRoundTrip
  intro m hwf
  unfold cellWf at hwf
  obtain ⟨hw0, hobj, ha, hb, hc⟩ := w64At_encodeC m
  cases hinfo : cInfo m.sub with
  | none => rw [hinfo] at hwf; cases hwf
  | some info =>
    obtain ⟨cls, o, ma, mb, mc⟩ := info
    rw [hinfo] at hwf
    simp only [Bool.and_eq_true, decide_eq_true_eq, beq_iff_eq, Bool.or_eq_true] at hwf
    obtain ⟨⟨⟨⟨⟨hsub, hst, hreq, hol, hal, hbl, hcl⟩, hoz⟩, hma⟩, hmb⟩, hmc⟩ := hwf
    obtain ⟨f1, f2, f3, f4⟩ := cell_word0 m.sub m.status m.req hsub hst hreq
    obtain ⟨hobj', hobjHigh⟩ := object_word m.obj hol
    rw [← hw0] at f1 f2 f3 f4
    exact decodeC_eq_some (encodeC m) m cls ma mb mc o hinfo f1 f2 f3 f4 (hobj.trans hobj') (ha.trans (Nat.mod_eq_of_lt hal))
      (hb.trans (Nat.mod_eq_of_lt hbl)) (hc.trans (Nat.mod_eq_of_lt hcl)) (encodeC_length m) hobjHigh hoz hma hmb hmc
      (encodeC_reserved m)

/-! ### Latch messages (R275) -/

theorem w64At_encodeL (m : LMsg) :
    w64At (encodeL m) 0 = (m.sub + b2n m.obj.region * 2 ^ 8 + m.status * 2 ^ 16) % 2 ^ 64 ∧
    w64At (encodeL m) 8 = (if m.obj.region then m.obj.id % 2 ^ 44 else m.obj.id % 2 ^ 32) % 2 ^ 64 ∧
    w64At (encodeL m) 0x10 = (m.epoch % 2 ^ 32 + m.owner * 2 ^ 32 + m.st * 2 ^ 52 + b2n m.accepted * 2 ^ 54) % 2 ^ 64 ∧
    w64At (encodeL m) 0x18 = (m.offerer + m.receiver * 2 ^ 20) % 2 ^ 64 ∧
    w64At (encodeL m) 0x20 = m.hingeId % 2 ^ 64 := by
  simp only [encodeL, List.append_assoc]
  refine ⟨?_, ?_, ?_, ?_, ?_⟩ <;> simp [w64At_toLE_append, w64At_toLE_append_of_le]

theorem encodeL_length (m : LMsg) : (encodeL m).length = 64 + m.body.length := by simp [encodeL]; omega

theorem encodeL_body (m : LMsg) : (encodeL m).drop 64 = m.body := by
  rw [encodeL]
  exact List.drop_left' (by simp)

theorem encodeL_reserved (m : LMsg) : (((encodeL m).drop 0x28).take 24).any (· != 0) = false := by
  have hdrop : (encodeL m).drop 0x28 = List.replicate 24 0 ++ m.body := by
    rw [encodeL, List.append_assoc]
    exact List.drop_left' (by simp)
  rw [hdrop, List.take_left' List.length_replicate]
  rfl

theorem latch_word0 (sub status : Nat) (region : Bool) (hsub : sub < 256) (hstatus : status < 2 ^ 16) :
    let w := (sub + b2n region * 2 ^ 8 + status * 2 ^ 16) % 2 ^ 64
    bits w 7 0 = sub ∧ bit w 8 = region ∧ bits w 15 9 = 0 ∧ bits w 31 16 = status ∧ bits w 63 32 = 0 := by
  cases region <;> simp only [bits_eq_div_mod, bit_eq_div_mod, b2n, beq_eq_false_iff_ne, beq_iff_eq] <;> simp <;> omega

theorem latch_word2 (epoch owner st : Nat) (accepted : Bool) (he : epoch < 2 ^ 32) (ho : owner < 2 ^ 20) (hst : st < 4) :
    let w := (epoch % 2 ^ 32 + owner * 2 ^ 32 + st * 2 ^ 52 + b2n accepted * 2 ^ 54) % 2 ^ 64
    bits w 31 0 = epoch ∧ bits w 51 32 = owner ∧ bits w 53 52 = st ∧ bit w 54 = accepted ∧ bits w 63 55 = 0 := by
  cases accepted <;> simp only [bits_eq_div_mod, bit_eq_div_mod, b2n, beq_eq_false_iff_ne, beq_iff_eq] <;> simp <;> omega

theorem latch_word3 (offerer receiver : Nat) (ho : offerer < 2 ^ 20) (hr : receiver < 2 ^ 20) :
    let w := (offerer + receiver * 2 ^ 20) % 2 ^ 64
    bits w 19 0 = offerer ∧ bits w 39 20 = receiver ∧ bits w 63 40 = 0 := by
  simp only [bits_eq_div_mod]
  omega

/-- The word of the object: a region's offset at its home, or a sequence's number. -/
theorem latch_word1 (home : Nat) (o : Obj) (h : if o.region then o.id / 2 ^ 44 = home else o.id < 2 ^ 32) :
    let w := (if o.region then o.id % 2 ^ 44 else o.id % 2 ^ 32) % 2 ^ 64
    (if o.region then home * 2 ^ 44 + w else w) = o.id ∧ (if o.region then bits w 63 44 else bits w 63 32) = 0 := by
  obtain ⟨region, id⟩ := o
  simp only [bits_eq_div_mod]
  cases region <;> simp at h ⊢ <;> omega

/-- Settles O25: each word of the body reads as it was written, the object's at its home, and the copies follow at 64. -/
theorem latchMessagesRoundTrip : Obligations.LatchMessagesRoundTrip := by
  unfold Obligations.LatchMessagesRoundTrip
  intro home m hwf
  unfold latchWf at hwf
  simp only [Bool.and_eq_true, decide_eq_true_eq, beq_iff_eq] at hwf
  obtain ⟨⟨⟨hlo, hhi, hst, he, how, hs, hof, hre, hid⟩, hobj⟩, hbody⟩ := hwf
  have hobj' : if m.obj.region then m.obj.id / 2 ^ 44 = home else m.obj.id < 2 ^ 32 := by
    cases hr : m.obj.region <;> simpa [hr] using hobj
  obtain ⟨w0, w1, w2, w3, w4⟩ := w64At_encodeL m
  obtain ⟨a1, a2, a3, a4, a5⟩ := latch_word0 m.sub m.status m.obj.region (by omega) hst
  obtain ⟨b1, b2⟩ := latch_word1 home m.obj hobj'
  obtain ⟨c1, c2, c3, c4, c5⟩ := latch_word2 m.epoch m.owner m.st m.accepted he how hs
  obtain ⟨d1, d2, d3⟩ := latch_word3 m.offerer m.receiver hof hre
  have hlen : (encodeL m).length = if m.sub = mHingeForward ∧ m.obj.region = false then 352 else 64 := by
    rw [encodeL_length, hbody]
    split <;> rfl
  unfold decodeL
  simp only [w0, w1, w2, w3, w4, a1, a2, a3, a4, a5, c1, c2, c3, c4, c5, d1, d2, d3, encodeL_reserved, encodeL_body, hlen,
    Nat.mod_eq_of_lt hid, b1]
  rw [if_neg]
  have hreserved : ¬(if m.obj.region then bits ((if m.obj.region then m.obj.id % 2 ^ 44 else m.obj.id % 2 ^ 32) % 2 ^ 64) 63 44 ≠ 0
      else bits ((if m.obj.region then m.obj.id % 2 ^ 44 else m.obj.id % 2 ^ 32) % 2 ^ 64) 63 32 ≠ 0) := by
    cases hr : m.obj.region <;> simpa [hr] using b2
  simp only [hreserved]
  simp
  omega

end Sys2Proof.Machine
end

section
/-! A plain frame for another endpoint at a port that demands encryption (R187): check 2 applies to a relay too, and drops it. -/
namespace Sys2Proof.Machine

/-- An acknowledgement from endpoint 6 to endpoint 1. -/
def transitAck : Pkt := ⟨ptAck, 0, 0, 4, false, 6, 1, 0, 3, 0, 0, 0, 0, 0, 0, 0, []⟩

/-- The controller after reset, endpoint 0, with port 0 set to take encrypted frames only. -/
def demandsEncryption : State := wf State.reset rEpCrypt 0 1 1 1

theorem packetWf_transitAck : packetWf transitAck = true := by decide +kernel

theorem transitAck_not_here : transitAck.dst ≠ self demandsEncryption := by decide +kernel

/-- The frame is dropped, and no packet is read of it. -/
theorem recvFrame_transitAck : (recvFrame demandsEncryption 0 (frameOf transitAck)).1 = none := by decide +kernel

/-- Refutes O26: the statement frees only a frame for this endpoint from a port that demands encryption, but check 2 of R187 drops
a plain frame whatever endpoint it names. -/
theorem not_framesRoundTrip : ¬ Obligations.FramesRoundTrip := by
  unfold Obligations.FramesRoundTrip
  intro h
  obtain ⟨r, b, hframe, _⟩ := h demandsEncryption 0 transitAck packetWf_transitAck fun hhere => absurd hhere transitAck_not_here
  have hdropped := recvFrame_transitAck
  rw [hframe] at hdropped
  cases hdropped

end Sys2Proof.Machine
end

section
/-! How a row reaches its effect: the state its own operation makes is the one the end of the command starts from. -/
namespace Sys2Proof.Machine

variable {s r : State} {t : Nat} {f : State → State}

theorem running_next (h : s.gl.phase = 2) (hf : f (tick s t) = r) : running s t f = .next (after s r) := by
  rw [running_runs s t f h, hf]

theorem powered_next (h : s.gl.phase ≠ 3) (hf : f (tick s t) = r) : powered s t f = .next (after s r) := by
  rw [powered_runs s t f h, hf]

theorem always_next (hf : f (tick s t) = r) : always s t f = .next (after s r) := by
  rw [always_runs s t f, hf]

/-- A running controller has power. -/
theorem phase_ne_stopped (h : s.gl.phase = 2) : s.gl.phase ≠ 3 := by
  rw [h]
  decide

/-- A command past its checks, by what its operation makes of the state it was taken in. -/
theorem hosted_next {op : Nat} {act : Nat → Cmd → State → State} {c : Cmd} (h : passes op c s)
    (hop : opRun op c s = runOp op noRange act c s)
    (hact : act s.host.cmdCtr (withOpcode c op) (taken op c s) = r) : hosted op c s = .next (after s r) := by
  rw [hosted_passed op act c s hop h, hact]

/-- The same of an opcode with a range check of its own, once that is passed too. -/
theorem hosted_next_range {op : Nat} {range : Cmd → State → Option (Nat × Nat)} {act : Nat → Cmd → State → State} {c : Cmd}
    (h : passes op c s) (hop : opRun op c s = runOp op range act c s) (hrange : range (withOpcode c op) (taken op c s) = none)
    (hact : act s.host.cmdCtr (withOpcode c op) (taken op c s) = r) : hosted op c s = .next (after s r) := by
  rw [hosted_runs op c s h.1, hop, runOp_passed op range act c s h hrange, hact]

end Sys2Proof.Machine
end

section
/-! SHUTTER_CLOSE while the Shutter is closed or closing (R437), and SEQ_APPEND past the greatest length (R59). -/
namespace Sys2Proof.Machine

theorem shutterClose_closed (s : State) (ms id : Nat) (h : shutter s = 0) : shutterClose s ms (some id) = finishOk s id := by
  rw [shutterClose, if_pos h]
  rfl

theorem shutter_pend (s : State) (id : Nat) (w : Wait) : shutter (pend s id w) = shutter s := by
  rw [shutter, rf, rdReg_congr (pend_regs s id w)]
  rfl

/-- A second close joins the one that runs, with the earlier of the two deadlines. -/
theorem shutterClose_closing (s : State) (ms id : Nat) (h : shutter s = 1) : shutterClose s ms (some id) =
    modClose (pend s id .shutter) fun x => { x with drainAt := Nat.min x.drainAt (s.now + ms * 1000000), cmds := x.cmds ++ [id] } := by
  have hne : shutter s ≠ 0 := by omega
  have hpend : shutter (pend s id .shutter) = 1 := by rw [shutter_pend, h]
  simp only [shutterClose, if_neg hne, List.foldl_cons, List.foldl_nil]
  exact if_pos hpend

theorem opShutterClose_of_le (id : Nat) (k : Cmd) (s : State) (h : fld k.w1 31 0 ≤ 600000) :
    opShutterClose id k s = shutterClose s (fld k.w1 31 0) (some id) := by
  rw [opShutterClose, closeCheck, if_pos (decide_eq_true h)]

/-- Settles O11: the Shutter's state decides what a close does. -/
theorem shutterCloseAgain : Obligations.ShutterCloseAgain := by
  unfold Obligations.ShutterCloseAgain whenPassed
  intro s c h hms
  refine ⟨fun hclosed => ?closed, fun hclosing => ?closing⟩
  case closed =>
    exact hosted_next h rfl (by rw [opShutterClose_of_le _ _ _ hms, shutterClose_closed _ _ _ hclosed, finishOk])
  case closing =>
    exact hosted_next h rfl (by rw [opShutterClose_of_le _ _ _ hms, shutterClose_closing _ _ _ hclosing])

/-! ### A command of a sequence that this controller owns -/

/-- A command of an object, past its checks and past the check of R271, runs on the sequence's record. -/
theorem latched_taken {op : Nat} {c : Cmd} {s : State} {x : Seq} (hop : op ≠ 0x5A) (hop' : op ≠ 0x5C)
    (h : ownedHere (taken op c s) (withOpcode c op) (fld (withOpcode c op).w1 31 0) x) :
    latched op s.host.cmdCtr (withOpcode c op) (taken op c s) = actSeq op s.host.cmdCtr (withOpcode c op) x (taken op c s) :=
  latched_here op _ _ _ x _ hop hop' h (openCmd_taken op c s)

/-- The tokens that appends under way have yet to add. -/
def comingTokens (s : State) (q : Nat) : Nat :=
  ((s.ce.logJobs.filter fun kv => kv.2.seq == q).map fun kv => kv.2.entries.length).foldl (· + ·) 0

theorem tokens_not_over (b : List Byte) (n : Nat) (h : ∀ i, i < n → leAt b (4 * i) 4 ≤ 262143) :
    ¬((List.range n).map fun i => leAt b (4 * i) 4).any (fun t => decide (t > 262143)) = true := by
  simp only [List.any_eq_true, List.mem_map, List.mem_range, decide_eq_true_eq]
  rintro ⟨_, ⟨i, hi, rfl⟩, hover⟩
  exact absurd (h i hi) (by omega)

/-- An append that passes its own checks, by whether the sequence still has room for it. -/
theorem actAppend_checked (id : Nat) (k : Cmd) (x : Seq) (s : State) (b : List Byte) (hst : x.st = .runnable ∨ x.st = .starved)
    (hb : cmdBytes s k 2 (4 * fld k.w3 22 0) k.buf = some b) (hn : fld k.w3 22 0 ≠ 0)
    (htok : ∀ i, i < fld k.w3 22 0 → leAt b (4 * i) 4 ≤ 262143) : actAppend id k x s =
    if x.length + comingTokens s (fld k.w1 31 0) + fld k.w3 22 0 > maxLength then
      defer (fail s id sLengthLimit 0) (.sequence (fld k.w1 31 0)) (.endSeq (fld k.w1 31 0) sLengthLimit)
    else logWrite s (fld k.w1 31 0) (((List.range (fld k.w3 22 0)).map fun i => leAt b (4 * i) 4).map (· + 2 ^ 18)) (some id) none := by
  have hlive : ¬(!(x.st == .runnable || x.st == .starved)) = true := by
    rcases hst with h | h <;> rw [h] <;> decide
  have hbad : ¬(fld k.w3 22 0 = 0 ∨
      ((List.range (fld k.w3 22 0)).map fun i => leAt b (4 * i) 4).any (fun t => decide (t > 262143)) = true) :=
    not_or.2 ⟨hn, tokens_not_over b _ htok⟩
  simp only [actAppend, if_neg hlive, hb, if_neg hbad]
  rfl

/-- Settles O12: the append's own checks pass, and its last one finds no room. -/
theorem appendPastTheLimit : Obligations.AppendPastTheLimit := by
  unfold Obligations.AppendPastTheLimit whenPassed
  intro s c h x b q n coming hown hst hb hn htok hover
  refine hosted_next h rfl ?_
  show latched 0x11 _ _ _ = _
  rw [latched_taken (by decide) (by decide) hown]
  show actAppend _ _ _ _ = _
  rw [actAppend_checked _ _ _ _ b hst hb hn htok]
  exact if_pos hover

end Sys2Proof.Machine
end

section
/-! The checks every command of a ring passes (R341), in their order, and the one reply of a command that fails one of them. -/
namespace Sys2Proof.Machine

/-- Row i is the entry k of ring q taken under opcode op: it runs the checks and the operation of that opcode. -/
structure RingRow (s : State) (q op : Nat) (k : Cmd) (i : Instr) : Prop where
  ring_eq : k.ring = q
  exec_eq : exec i s = hosted op k s

theorem ringCommands_ringRow (s : State) (c : Cmd) : ∀ x ∈ ringCommands c, RingRow s c.ring x.1 x.2.1 x.2.2 := by
  cases c
  simp only [ringCommands, List.cons_append, List.nil_append, List.forall_mem_cons, List.not_mem_nil, false_implies, implies_true, and_true]
  repeat' apply And.intro
  all_goals exact ⟨rfl, rfl⟩

/-- Every opcode runs the checks first, listed or not. -/
theorem opRun_eq_runOp (op : Nat) (k : Cmd) (s : State) : ∃ range act, opRun op k s = runOp op range act k s := by
  unfold opRun
  split <;> exact ⟨_, _, rfl⟩

theorem runOp_checkFails (op : Nat) (range : Cmd → State → Option (Nat × Nat)) (act : Nat → Cmd → State → State) (k : Cmd) (s : State)
    (st d : Nat) (h : checkCmd (taken op k s) op (withOpcode k op) = some (st, d)) :
    runOp op range act k s = fail (taken op k s) s.host.cmdCtr st d := by
  have htake : takeCmd s op (withOpcode k op) .none = (s.host.cmdCtr, taken op k s) := rfl
  simp only [runOp, htake, h]

/-- A command of a ring that fails a check of R341 writes its reply and does nothing else. -/
theorem ringRow_checkFails {s : State} {q op : Nat} {k : Cmd} {i : Instr} (hrow : RingRow s q op k i) (hphase : s.gl.phase = 2)
    (st : Nat) (h : checkCmd (taken op k s) op (withOpcode k op) = some (st, 0)) :
    exec i s = .next (after s (finish (taken op k s) s.host.cmdCtr st 0 0 0)) := by
  obtain ⟨range, act, hrun⟩ := opRun_eq_runOp op k s
  rw [hrow.exec_eq, hosted_runs op k s hphase, hrun, runOp_checkFails op range act k s st 0 h, fail]

/-! ### Each check, once those before it have passed -/

section
variable {s : State} {op : Nat} {k : Cmd} {o : OpInfo} (ho : opInfo op = some o)
include ho

theorem checkCmd_form (hform : formOk s op k o = false) : checkCmd s op k = some (sInvalidParam, 0) := by
  simp [checkCmd, ho, hform]

theorem checkCmd_bound (hform : formOk s op k o = true) (hbound : rf s rCqCtrl k.ring 15 8 ≠ 0)
    (h : cCtx k ≠ rf s rCqCtrl k.ring 15 8 ∨ o.admin = true) : checkCmd s op k = some (sInvalidContext, 0) := by
  simp [checkCmd, ho, hform, hbound, h]

variable (hform : formOk s op k o = true)
  (hring : rf s rCqCtrl k.ring 15 8 = 0 ∨ (cCtx k = rf s rCqCtrl k.ring 15 8 ∧ o.admin = false))
include hform hring

theorem checkCmd_absent (hctx : ctxState s (cCtx k) = 0) : checkCmd s op k = some (sInvalidContext, 0) := by
  rcases hring with hr | ⟨hr, ha⟩
  · simp [checkCmd, ho, hform, hr, hctx]
  · simp [checkCmd, ho, hform, ← hr, ha, hctx]

/-- Which checks of the context and the Shutter follow, when the ring has no complaint. -/
theorem checkCmd_ringOk (hctx : ctxState s (cCtx k) ≠ 0) : checkCmd s op k =
    if ctxState s (cCtx k) = 2 ∧ op ≠ 0x74 ∧ op ≠ 0x75 ∧ op ≠ 0x18 ∧ op ≠ 0x17 then some (sContextFault, 0)
    else if (shutter s = 0 || rbit s rGlStatus 0 4) && !adminRange op then some (sShutterClosed, 0)
    else if shutter s = 1 && closingRefuses s op then some (sShutterClosed, 0)
    else if s.gl.sec.lcPending && !(decide (op < 0x10) || decide (0xE0 ≤ op)) then some (sShutterClosed, 0)
    else none := by
  rcases hring with hr | ⟨hr, ha⟩
  · simp [checkCmd, ho, hform, hr, hctx]
  · simp [checkCmd, ho, hform, ← hr, ha, hctx]

theorem checkCmd_faulted (hctx : ctxState s (cCtx k) = 2) (h17 : op ≠ 0x17) (h18 : op ≠ 0x18) (h74 : op ≠ 0x74) (h75 : op ≠ 0x75) :
    checkCmd s op k = some (sContextFault, 0) := by
  rw [checkCmd_ringOk ho hform hring (by omega), if_pos ⟨hctx, h74, h75, h18, h17⟩]

theorem checkCmd_closed (hctx : ctxState s (cCtx k) = 1) (hclosed : shutter s = 0) (hop : adminRange op = false) :
    checkCmd s op k = some (sShutterClosed, 0) := by
  rw [checkCmd_ringOk ho hform hring (by omega), if_neg (by omega)]
  simp [hclosed, hop]

end

theorem adminRange_eq_false (op : Nat) (h : ¬(op ≤ 0x0F ∨ (0x70 ≤ op ∧ op ≤ 0x75) ∨ (0xE0 ≤ op ∧ op ≤ 0xEF))) :
    adminRange op = false := by
  rw [Bool.eq_false_iff]
  simpa [adminRange, or_assoc] using h

/-- Settles O16: each status is that of the first check that fails, whatever the row's own operation. -/
theorem commandChecks : Obligations.CommandChecks := by
  unfold Obligations.CommandChecks
  intro s c k op i o hmem hphase ho r x bound fails
  have hrow := ringCommands_ringRow s c _ hmem
  have hfails : ∀ st, checkCmd r op x = some (st, 0) → fails st := ringRow_checkFails hrow hphase
  have hbound : rf r rCqCtrl x.ring 15 8 = bound := congrArg (fun q => rf s rCqCtrl q 15 8) hrow.1
  refine ⟨fun hform => hfails _ (checkCmd_form ho hform), fun hform => ⟨fun hb hctx => ?bound, fun hring => ⟨fun h => ?absent,
    fun h h17 h18 h74 h75 => ?faulted, fun h hclosed hop => ?closed⟩⟩⟩
  case bound => exact hfails _ (checkCmd_bound ho hform (hbound ▸ hb) (hbound ▸ hctx))
  case absent => exact hfails _ (checkCmd_absent ho hform (hbound ▸ hring) h)
  case faulted => exact hfails _ (checkCmd_faulted ho hform (hbound ▸ hring) h h17 h18 h74 h75)
  case closed => exact hfails _ (checkCmd_closed ho hform (hbound ▸ hring) h hclosed (adminRange_eq_false op hop))

end Sys2Proof.Machine
end

section
/-! Replies and events (R342, R343, R360–R364): what one entry changes, and what it leaves alone. -/
namespace Sys2Proof.Machine

/-! ### An edge source -/

theorem mem_addSorted_self (x : Nat) (l : List Nat) : x ∈ addSorted x l := by
  induction l with
  | nil => exact List.mem_singleton_self x
  | cons y l ih =>
    rw [addSorted]
    split
    · exact List.mem_cons_self
    · split
      case isTrue h => exact h ▸ List.mem_cons_self
      case isFalse => exact List.mem_cons_of_mem y ih

@[simp] theorem countRequest_hostPend (s : State) (v : Nat) : (countRequest s v).intr.hostPend = s.intr.hostPend := rfl
@[simp] theorem countRequest_corePend (s : State) (v : Nat) : (countRequest s v).intr.corePend = s.intr.corePend := rfl

@[simp] theorem wakeCore_hostPend (s : State) (n : Nat) : (wakeCore s n).intr.hostPend = s.intr.hostPend := by
  unfold wakeCore
  split <;> rfl

@[simp] theorem wakeCore_corePend (s : State) (n : Nat) : (wakeCore s n).intr.corePend = s.intr.corePend := by
  unfold wakeCore
  split <;> rfl

theorem raiseEdge_hostPend (s : State) (n : Nat) (h : n < 0x300) :
    (raiseEdge s n).intr.hostPend = addSorted n s.intr.hostPend := by
  simp only [raiseEdge, wakeCore_hostPend, if_pos h]
  split <;> rfl

theorem raiseEdge_corePend (s : State) (n : Nat) : (raiseEdge s n).intr.corePend = addSorted n s.intr.corePend := by
  simp only [raiseEdge, wakeCore_corePend]
  generalize (if n < 0x300 then addSorted n s.intr.hostPend else s.intr.hostPend) = l
  split <;> rfl

/-! ### A reply -/

theorem ring_setRing_self (s : State) (q : Nat) (r : RingS) : ring (setRing s q r) q = r := tgetD_tput_self _ _ _ _

theorem ring_setRing_ne (s : State) (q p : Nat) (r : RingS) (h : p ≠ q) : ring (setRing s q r) p = ring s p :=
  tgetD_tput_ne _ _ _ _ _ h

theorem ring_congr {r s : State} (h : r.host = s.host) (q : Nat) : ring r q = ring s q := by
  rw [ring, ring, h]

/-- A reply of a ring that is still the one the command was taken from: its entry, the ring's tail, and its interrupt. -/
theorem putReply_live (s : State) (q gen : Nat) (r : Reply) (hen : rbit s rCqCtrl q 0 = true) (hgen : (ring s q).gen = gen) :
    putReply s q gen r = raiseEdge (setRing (toHost s (.reply q (ring s q).cqTail
      (replyBytes (phaseOf (ring s q).cqTail (rf s rCqCtrl q 28 24)) (ring s q).sqHead r))) q
        { ring s q with cqTail := ((ring s q).cqTail + 1) % 2 ^ 32 }) (irqReply q) := by
  have h : (rbit s rCqCtrl q 0 && (ring s q).gen == gen) = true := by rw [hen, hgen, Bool.true_and, beq_self_eq_true]
  simp only [putReply, h, if_true]

theorem putReply_stale (s : State) (q gen : Nat) (r : Reply) (h : rbit s rCqCtrl q 0 = false ∨ (ring s q).gen ≠ gen) :
    putReply s q gen r = s := by
  have h' : (rbit s rCqCtrl q 0 && (ring s q).gen == gen) = false := by
    rcases h with h | h
    · rw [h, Bool.false_and]
    · rw [beq_false_of_ne h, Bool.and_false]
  simp only [putReply, h', Bool.false_eq_true, if_false]

/-- A command's reservation ended. -/
def closeCmd (s : State) (id : Nat) : State := { s with host := { s.host with opens := s.host.opens.filter (·.id != id) } }

theorem finish_open (s : State) (id st d a b : Nat) (o : OpenCmd) (h : openCmd s id = some o) : finish s id st d a b =
    putReply (closeCmd s id) o.cmd.ring o.gen ⟨cTag o.cmd, st, d, o.opcode, a % 2 ^ 64, b % 2 ^ 64⟩ := by
  simp only [finish, h]
  rfl

theorem putReply_opens (s : State) (q gen : Nat) (r : Reply) : (putReply s q gen r).host.opens = s.host.opens := by
  simp only [putReply]
  split
  · rw [raiseEdge_host]
    rfl
  · rfl

/-- Settles O17: the reply is written exactly when the ring is enabled and has not been enabled again. -/
theorem finalReply : Obligations.FinalReply := by
  unfold Obligations.FinalReply
  intro s id st d a b o ho hq q t
  have ht : t = putReply (closeCmd s id) q o.gen ⟨cTag o.cmd, st, d, o.opcode, a % 2 ^ 64, b % 2 ^ 64⟩ := finish_open s id st d a b o ho
  refine ⟨finish_eq s id st d a b, ?opens, fun hen hgen => ?live, fun hstale => ?stale⟩
  case opens => rw [ht, putReply_opens, closeCmd]
  case live =>
    rw [putReply_live (closeCmd s id) q o.gen _ hen hgen] at ht
    have hirq : irqReply q < 0x300 := Nat.lt_of_lt_of_le hq (by decide)
    rw [ht]
    refine ⟨?_, ?_, fun p hp => ?_, ?_, ?_⟩
    · rw [raiseEdge_host]
      rfl
    · rw [ring_congr (raiseEdge_host _ _), ring_setRing_self]
      rfl
    · rw [ring_congr (raiseEdge_host _ _), ring_setRing_ne _ _ _ _ hp]
      rfl
    · rw [raiseEdge_hostPend _ _ hirq]
      exact mem_addSorted_self _ _
    · rw [raiseEdge_corePend]
      exact mem_addSorted_self _ _
  case stale =>
    rw [ht, putReply_stale (closeCmd s id) q o.gen _ hstale]
    exact ⟨rfl, rfl, fun p => rfl⟩

/-! ### An event -/

theorem evq_setEvq_self (s : State) (e : Nat) (q : EqS) : evq (setEvq s e q) e = q := tgetD_tput_self _ _ _ _

theorem evq_setEvq_ne (s : State) (e j : Nat) (q : EqS) (h : j ≠ e) : evq (setEvq s e q) j = evq s j := tgetD_tput_ne _ _ _ _ _ h

theorem evq_congr {r s : State} (h : r.host = s.host) (e : Nat) : evq r e = evq s e := by
  rw [evq, evq, h]

/-- An event takes the next number of its source, and PREDICTIVE its time. -/
def numbered (s : State) (source type : Nat) : State :=
  let s' := modHost s fun h => { h with seqnos := tput h.seqnos source ((tgetD h.seqnos source 0 + 1) % 2 ^ 32) }
  if type = evPredictive then modGl s' fun g => { g with predictAt := some s.now } else s'

theorem numbered_eq (s : State) (source type : Nat) : ∃ p, numbered s source type =
    { s with host := { s.host with seqnos := tput s.host.seqnos source ((tgetD s.host.seqnos source 0 + 1) % 2 ^ 32) }
             gl := { s.gl with predictAt := p } } := by
  unfold numbered
  dsimp only
  split
  · exact ⟨_, rfl⟩
  · exact ⟨s.gl.predictAt, rfl⟩

/-- The count of an event that is dropped. -/
def dropped (q : EqS) : EqS := { q with lost := Nat.min (q.lost + 1) 65535, lostReport := q.lostReport + 1 }

/-- An event goes to its own queue or, where that is disabled, to queue 0; with both disabled queue 0 counts it. -/
theorem raise_eq_deliver (s : State) (source type ctx st a0 a1 : Nat) :
    let want := if source = srcDevice then 0 else rf s rCqEqMap ctx 5 0
    let e := if rbit s rEqCtrl want 0 = true then want else 0
    raise s source type ctx st a0 a1 = if rbit s rEqCtrl e 0 = true
      then deliver (numbered s source type) e
        ⟨source, tgetD s.host.seqnos source 0, type, ctx, st, a0 % 2 ^ 32, s.now, a1 % 2 ^ 64⟩
      else setEvq (numbered s source type) e (dropped (evq s e)) := by
  obtain ⟨p, hp⟩ := numbered_eq s source type
  have hbit : ∀ e, rbit (numbered s source type) rEqCtrl e 0 = rbit s rEqCtrl e 0 := fun e => by rw [hp]; rfl
  have hwant : rf (numbered s source type) rCqEqMap ctx 5 0 = rf s rCqEqMap ctx 5 0 := by rw [hp]; rfl
  have hq : evq (numbered s source type) 0 = evq s 0 := by rw [hp]; rfl
  intro want e
  have hraise : raise s source type ctx st a0 a1 =
      if rbit (numbered s source type) rEqCtrl (if source = srcDevice then 0 else rf (numbered s source type) rCqEqMap ctx 5 0) 0 = true
      then deliver (numbered s source type) (if source = srcDevice then 0 else rf (numbered s source type) rCqEqMap ctx 5 0)
        ⟨source, tgetD s.host.seqnos source 0, type, ctx, st, a0 % 2 ^ 32, s.now, a1 % 2 ^ 64⟩
      else if rbit (numbered s source type) rEqCtrl 0 0 = true then deliver (numbered s source type) 0
        ⟨source, tgetD s.host.seqnos source 0, type, ctx, st, a0 % 2 ^ 32, s.now, a1 % 2 ^ 64⟩
      else setEvq (numbered s source type) 0 (dropped (evq (numbered s source type) 0)) := rfl
  rw [hraise, hwant, hbit, hbit, hq]
  show (if rbit s rEqCtrl want 0 = true then _ else _) = _
  by_cases hon : rbit s rEqCtrl want 0 = true
  · have he : e = want := if_pos hon
    rw [he, if_pos hon, if_pos hon]
  · have he : e = 0 := if_neg hon
    rw [he, if_neg hon]

/-- What an event does to an enabled queue: written, held, or dropped and counted (R363). -/
theorem deliver_cases (s : State) (e : Nat) (ev : Event) :
    let q := evq s e
    let room := q.held = [] ∧ q.lostReport = 0 ∧ sub32 q.tail q.head < 2 ^ rf s rEqCtrl e 5 1
    (room → deliver s e ev = putEvent s e ev) ∧
    (¬room → q.held.length < 4096 → deliver s e ev = setEvq s e { q with held := q.held ++ [ev] }) ∧
    (¬room → 4096 ≤ q.held.length → deliver s e ev = setEvq s e (dropped q)) := by
  intro q room
  have hroom : (q.held.isEmpty && q.lostReport == 0 && evRoom s e) = true ↔ room := by
    simp only [Bool.and_eq_true, List.isEmpty_iff, beq_iff_eq, evRoom, decide_eq_true_eq, and_assoc, room, q]
  refine ⟨fun h => ?_, fun h hlt => ?_, fun h hge => ?_⟩
  · simp only [deliver]
    exact if_pos (hroom.2 h)
  · simp only [deliver]
    rw [if_neg (fun hc => h (hroom.1 hc)), if_pos hlt]
  · simp only [deliver]
    rw [if_neg (fun hc => h (hroom.1 hc)), if_neg (Nat.not_lt.2 hge)]
    rfl

theorem putEvent_host (s : State) (e : Nat) (ev : Event) : (putEvent s e ev).host =
    (setEvq (toHost s (.event e (evq s e).tail (eventBytes (phaseOf (evq s e).tail (rf s rEqCtrl e 5 1)) ev))) e
      { evq s e with tail := ((evq s e).tail + 1) % 2 ^ 32 }).host :=
  raiseEdge_host _ _

theorem deliver_seqnos (s : State) (e : Nat) (ev : Event) : (deliver s e ev).host.seqnos = s.host.seqnos := by
  simp only [deliver]
  split
  · rw [putEvent_host]
    rfl
  · split <;> rfl

theorem evq_deliver_ne (s : State) (e j : Nat) (ev : Event) (h : j ≠ e) : evq (deliver s e ev) j = evq s j := by
  simp only [deliver]
  split
  · rw [evq_congr (putEvent_host s e ev), evq_setEvq_ne _ _ _ _ h]
    rfl
  · split <;> exact evq_setEvq_ne _ _ _ _ h

/-- Settles O18: the queue an event goes to, and which of R363's three things happens there. -/
theorem eventQueues : Obligations.EventQueues := by
  unfold Obligations.EventQueues
  intro s source type ctx st a0 a1 n ev want e q t
  obtain ⟨p, hp⟩ := numbered_eq s source type
  have ht : t = if rbit s rEqCtrl e 0 = true then deliver (numbered s source type) e ev
      else setEvq (numbered s source type) e (dropped q) := raise_eq_deliver s source type ctx st a0 a1
  refine ⟨?seqnos, raise_eq s source type ctx st a0 a1, fun j hj => ?others, fun hon => ?enabled, fun hoff => ?disabled⟩
  case seqnos =>
    rw [ht]
    split
    · rw [deliver_seqnos, hp]
    · rw [hp]
      rfl
  case others =>
    rw [ht]
    split
    · rw [evq_deliver_ne _ _ _ _ hj, hp]
      rfl
    · rw [evq_setEvq_ne _ _ _ _ hj, hp]
      rfl
  case enabled =>
    rw [if_pos hon] at ht
    obtain ⟨hput, hhold, hdrop⟩ := deliver_cases (numbered s source type) e ev
    have hq : evq (numbered s source type) e = q := by rw [hp]; rfl
    have hdepth : rf (numbered s source type) rEqCtrl e 5 1 = rf s rEqCtrl e 5 1 := by rw [hp]; rfl
    have hout : (numbered s source type).host.out = s.host.out := by rw [hp]
    rw [hq, hdepth] at hput hhold hdrop
    refine ⟨fun hroom => ?_, fun hroom hlt => ?_, fun hroom hge => ?_⟩
    · rw [ht, hput hroom, evq_congr (putEvent_host _ _ _), evq_setEvq_self, putEvent_host, hq, hdepth]
      exact ⟨congrArg (_ :: ·) hout, rfl⟩
    · rw [ht, hhold hroom hlt, evq_setEvq_self]
      exact ⟨hout, rfl⟩
    · rw [ht, hdrop hroom hge, evq_setEvq_self]
      exact ⟨hout, rfl⟩
  case disabled =>
    rw [if_neg (by rw [hoff]; decide)] at ht
    rw [ht, evq_setEvq_self, hp]
    exact ⟨rfl, rfl⟩

end Sys2Proof.Machine
end

section
/-! Doorbells of rings and event queues (R338, R339, R363, R364), and the taking of a command. -/
namespace Sys2Proof.Machine

/-! ### What each write makes of its ring -/

/-- The ring a doorbell write leaves: the new index if the write is valid, else the ring stopped with DOORBELL set (R338). -/
def sqTailed (s : State) (q v : Nat) : RingS :=
  if doorbellOk (ring s q).sqTail (ring s q).sqHead (2 ^ rf s rCqCtrl q 20 16) v = true
  then { ring s q with sqTail := v % 2 ^ 32 } else { ring s q with doorbell := true, stopped := true }

def cqHeaded (s : State) (q v : Nat) : RingS :=
  if doorbellOk (ring s q).cqHead (ring s q).cqTail (2 ^ rf s rCqCtrl q 28 24) v = true
  then { ring s q with cqHead := v % 2 ^ 32 } else { ring s q with doorbell := true, stopped := true }

theorem sqTailWrite_live (s : State) (q v : Nat) (h : ringLive s q = true) : sqTailWrite s q v = setRing s q (sqTailed s q v) := by
  simp only [sqTailWrite, h, Bool.not_true, Bool.false_eq_true, if_false, sqTailed]
  split <;> rfl

theorem cqHeadWrite_live (s : State) (q v : Nat) (h : ringLive s q = true) : cqHeadWrite s q v = setRing s q (cqHeaded s q v) := by
  simp only [cqHeadWrite, h, Bool.not_true, Bool.false_eq_true, if_false, cqHeaded]
  split <;> rfl

theorem sqTailWrite_dead (s : State) (q v : Nat) (h : ringLive s q = false) : sqTailWrite s q v = s := by
  simp only [sqTailWrite, h, Bool.not_false, if_true]

theorem cqHeadWrite_dead (s : State) (q v : Nat) (h : ringLive s q = false) : cqHeadWrite s q v = s := by
  simp only [cqHeadWrite, h, Bool.not_false, if_true]

theorem ringLive_stopped (s : State) (q : Nat) (h : (ring s q).stopped = true) : ringLive s q = false := by
  rw [ringLive, h, Bool.not_true, Bool.and_false]

theorem mayTakeCmd_dead (s : State) (q : Nat) (c : Cmd) (h : ringLive s q = false) : mayTakeCmd s q c = false := by
  simp only [mayTakeCmd, h, Bool.false_and]

/-- Settles O19: each doorbell sets its ring's record while the ring takes commands, and does nothing else. -/
theorem ringDoorbells : Obligations.RingDoorbells := by
  unfold Obligations.RingDoorbells
  intro s t q v c hphase u
  have htail : exec (.sqTail t q v) s = .next (after s (sqTailWrite u q v)) := running_runs s t (fun u => sqTailWrite u q v) hphase
  have hhead : exec (.cqHead t q v) s = .next (after s (cqHeadWrite u q v)) := running_runs s t (fun u => cqHeadWrite u q v) hphase
  refine ⟨fun hstop => ?stopped, fun i hi => ?frame⟩
  case stopped =>
    have hdead := ringLive_stopped u q hstop
    rw [htail, hhead, sqTailWrite_dead u q v hdead, cqHeadWrite_dead u q v hdead]
    refine ⟨rfl, rfl, ?_⟩
    show execCommandTake t q c s = _
    refine running_next hphase ?_
    cases c with
    | none => exact if_neg (by rw [hdead]; decide)
    | some e => exact if_neg (by rw [mayTakeCmd_dead u q _ hdead]; decide)
  case frame =>
    by_cases hlive : ringLive u q = true
    · simp only [if_pos hlive]
      rcases hi with rfl | rfl
      · exact ⟨sqTailed u q v, by rw [htail, sqTailWrite_live u q v hlive]; rfl⟩
      · exact ⟨cqHeaded u q v, by rw [hhead, cqHeadWrite_live u q v hlive]; rfl⟩
    · have hdead := Bool.eq_false_iff.2 hlive
      simp only [if_neg hlive]
      refine ⟨ring u q, ?_⟩
      rcases hi with rfl | rfl
      · rw [htail, sqTailWrite_dead u q v hdead]
      · rw [hhead, cqHeadWrite_dead u q v hdead]

/-! ### Setting ENABLE -/

/-- A valid CQ_CTRL that enables a disabled ring starts it with all indexes zero (R364). -/
theorem cqCtrlWrite_enable (s : State) (q : Nat) (w : Word) (hdef : w.toNat &&& definedMask rCqCtrl = w.toNat)
    (hoff : rbit s rCqCtrl q 0 = false) (hon : wbit w 0 = true) (hsq : 4 ≤ fld w 20 16) (hsq' : fld w 20 16 ≤ 16)
    (hcq : 4 ≤ fld w 28 24) (hcq' : fld w 28 24 ≤ 16) : cqCtrlWrite s q w = setRing (wrReg s rCqCtrl q 0 w) q
      { ring s q with gen := (ring s q).gen + 1, sqHead := 0, sqTail := 0, cqHead := 0, cqTail := 0, stopped := false } := by
  have hoff' : wbit (rdReg s rCqCtrl q 0) 0 = false := hoff
  have hok : ¬((w.toNat &&& definedMask rCqCtrl) ≠ w.toNat ∨ (wbit (rdReg s rCqCtrl q 0) 0 = true ∧
      fld w 15 8 ≠ fld (rdReg s rCqCtrl q 0) 15 8) ∨ fld w 20 16 < 4 ∨ fld w 20 16 > 16 ∨ fld w 28 24 < 4 ∨ fld w 28 24 > 16) := by
    rw [hoff']
    simp only [Bool.false_eq_true, false_and, false_or]
    omega
  simp only [cqCtrlWrite]
  rw [if_neg hok]
  simp only [hon, hoff', Bool.not_false, Bool.true_and, if_true]
  rfl

theorem eqCtrlWrite_enable (s : State) (e : Nat) (w : Word) (hdef : w.toNat &&& definedMask rEqCtrl = w.toNat)
    (hoff : rbit s rEqCtrl e 0 = false) (hon : wbit w 0 = true) (hlo : 4 ≤ fld w 5 1) (hhi : fld w 5 1 ≤ 16) :
    eqCtrlWrite s e w = eqSpace (setEvq (wrReg s rEqCtrl e 0 w) e { evq s e with head := 0, tail := 0 }) e := by
  have hoff' : wbit (rdReg s rEqCtrl e 0) 0 = false := hoff
  have hok : ¬((w.toNat &&& definedMask rEqCtrl) ≠ w.toNat ∨ fld w 5 1 < 4 ∨ fld w 5 1 > 16) := by omega
  simp only [eqCtrlWrite]
  rw [if_neg hok]
  simp only [hon, hoff', Bool.not_false, Bool.true_and, if_true]
  rfl

/-- The registers a core reads and writes for its own interrupts (R367). -/
def coreRegs : List RegDesc := [rIcCoreClaim, rIcCoreEoi, rIcCoreMask, rIcCoreStack, rIcCoreStatus, rIcCoreMod]

/-- They lie in one run of addresses. -/
theorem isReg_coreRegs_outside (a : Nat) (h : a < 0x20A000 ∨ 0x20A1A8 ≤ a) : isReg coreRegs a = false := by
  rw [isReg, List.any_eq_false]
  intro d hd
  have hrange : 0x20A000 ≤ d.base ∧ d.base ≤ 0x20A028 ∧ d.dims = [(0x40, 6)] := by
    revert d
    decide
  obtain ⟨hlo, hhi, hdims⟩ := hrange
  simp only [regMatch, hdims]
  split
  · decide
  · rw [if_neg (by omega)]
    decide

theorem firmwareOwned_rCqCtrl (q : Nat) (h : q < 256) : firmwareOwned rCqCtrl q = false := by
  have howned : firmwareOwned rCqCtrl q = (isReg coreRegs (0x110000 + q * 0x100) || false) := rfl
  rw [howned, isReg_coreRegs_outside _ (by omega), Bool.or_false]

theorem firmwareOwned_rEqCtrl (e : Nat) (h : e < 64) : firmwareOwned rEqCtrl e = false := by
  have howned : firmwareOwned rEqCtrl e = (isReg coreRegs (0x120000 + e * 0x40) || false) := rfl
  rw [howned, isReg_coreRegs_outside _ (by omega), Bool.or_false]

/-- A write of CQ_CTRL that sets no reserved bit goes to the ring, then its route may have been enabled. -/
theorem writeReg_rCqCtrl (s : State) (q : Nat) (w : Word) (hq : q < 256) (hdef : w.toNat &&& definedMask rCqCtrl = w.toNat) :
    writeReg s rCqCtrl q 0 w true false = routeEnabled (cqCtrlWrite s q w) (irqReply q) (hostRoute s (irqReply q)).2 := by
  have h : writeReg s rCqCtrl q 0 w true false = if (w.toNat &&& definedMask rCqCtrl) ≠ w.toNat then rsvdWrite s
      else if (firmwareOwned rCqCtrl q && true) = true then rsvdWrite s
      else routeEnabled (cqCtrlWrite s q w) (irqReply q) (hostRoute s (irqReply q)).2 := rfl
  rw [h, if_neg (not_not_intro hdef), firmwareOwned_rCqCtrl q hq]
  rfl

theorem writeReg_rEqCtrl (s : State) (e : Nat) (w : Word) (he : e < 64) (hdef : w.toNat &&& definedMask rEqCtrl = w.toNat) :
    writeReg s rEqCtrl e 0 w true false = routeEnabled (eqCtrlWrite s e w) (irqEvent e) (hostRoute s (irqEvent e)).2 := by
  have h : writeReg s rEqCtrl e 0 w true false = if (w.toNat &&& definedMask rEqCtrl) ≠ w.toNat then rsvdWrite s
      else if (firmwareOwned rEqCtrl e && true) = true then rsvdWrite s
      else routeEnabled (eqCtrlWrite s e w) (irqEvent e) (hostRoute s (irqEvent e)).2 := rfl
  rw [h, if_neg (not_not_intro hdef), firmwareOwned_rEqCtrl e he]
  rfl

/-- Settles O37: each row is its operation on the ring or event queue it names. -/
theorem ringRowsComplete : Obligations.RingRowsComplete := by
  unfold Obligations.RingRowsComplete
  intro s t q v hphase u
  have htail : exec (.sqTail t q v) s = .next (after s (sqTailWrite u q v)) := running_runs s t (fun u => sqTailWrite u q v) hphase
  have hhead : exec (.cqHead t q v) s = .next (after s (cqHeadWrite u q v)) := running_runs s t (fun u => cqHeadWrite u q v) hphase
  refine ⟨fun hlive hok => ?sqTail, fun hlive hbad => ?sqTailBad, fun hlive hok => ?cqHead, fun hlive hbad => ?cqHeadBad,
    fun e htake => ?take, fun hlive => ?takeFailed, fun w hq hdef hoff hon h1 h2 h3 h4 => ?cqEnable,
    fun w hq hdef hoff hon h1 h2 => ?eqEnable, fun hon => ?eqHead⟩
  case sqTail => rw [htail, sqTailWrite_live u q v hlive, sqTailed, if_pos hok]
  case sqTailBad => rw [htail, sqTailWrite_live u q v hlive, sqTailed, if_neg (Bool.eq_false_iff.1 hbad)]
  case cqHead => rw [hhead, cqHeadWrite_live u q v hlive, cqHeaded, if_pos hok]
  case cqHeadBad => rw [hhead, cqHeadWrite_live u q v hlive, cqHeaded, if_neg (Bool.eq_false_iff.1 hbad)]
  case take =>
    show execCommandTake t q (some e) s = _
    exact running_next hphase (if_pos htake)
  case takeFailed =>
    show execCommandTake t q none s = _
    exact running_next hphase (if_pos hlive)
  case cqEnable =>
    show execCqEnable t q w s = _
    refine running_next hphase ((writeReg_rCqCtrl u q w hq hdef).trans ?_)
    rw [cqCtrlWrite_enable u q w hdef hoff hon h1 h2 h3 h4]
  case eqEnable =>
    show execEqEnable t q w s = _
    refine running_next hphase ((writeReg_rEqCtrl u q w hq hdef).trans ?_)
    rw [eqCtrlWrite_enable u q w hdef hoff hon h1 h2]
  case eqHead =>
    intro w
    show execEqHead t q v s = _
    exact running_next hphase (if_pos hon)

end Sys2Proof.Machine
end

section
/-! The interrupt controller (R365–R374): sources that become pending, claims, ends of interrupt, and MSI-X messages. -/
namespace Sys2Proof.Machine

/-! ### What touches the interrupt record only -/

theorem setLevel_eq (s : State) (n : Nat) (on : Bool) : ∃ i, setLevel s n on = { s with intr := i } := by
  unfold setLevel
  obtain ⟨i, hi⟩ := sampleLevel_eq { s with intr := { s.intr with
    levels := if on then addSorted n (s.intr.levels.filter (· != n)) else s.intr.levels.filter (· != n) } } n
  exact ⟨i, hi⟩

theorem sourcePending_eq (s : State) (n : Nat) (on : Bool) : ∃ i, sourcePending s n on = { s with intr := i } := by
  unfold sourcePending
  split
  · exact ⟨s.intr, rfl⟩
  · split
    · split
      · exact sampleLevel_eq s n
      · exact setLevel_eq s n on
    · split
      · exact raiseEdge_eq s n
      · exact ⟨s.intr, rfl⟩

theorem coreClaim_eq (s : State) (k : Nat) : ∃ i, coreClaim s k = { s with intr := i } := by
  unfold coreClaim
  split
  · exact ⟨s.intr, rfl⟩
  · exact ⟨_, rfl⟩

theorem coreWfi_of (s u : State) (k : Nat) (h : ∃ i, u = { s with intr := i }) : ∃ i, coreWfi u k = { s with intr := i } := by
  obtain ⟨i, rfl⟩ := h
  unfold coreWfi
  split <;> exact ⟨_, rfl⟩

theorem modTimer_eq (s : State) (v : Nat) : ∃ i, modTimer s v = { s with intr := i } := by
  simp only [modTimer]
  split
  · exact ⟨s.intr, rfl⟩
  · exact ⟨_, rfl⟩

/-- Settles O20: each of the three rows makes its change in the interrupt record. -/
theorem interruptFrame : Obligations.InterruptFrame := by
  unfold Obligations.InterruptFrame
  intro s t n k on wfi i hphase hi
  rcases hi with rfl | rfl | rfl
  · obtain ⟨x, hx⟩ := sourcePending_eq (tick s t) n on
    refine ⟨x, ?_⟩
    show execSourcePending t n on s = _
    exact running_next hphase hx
  · have hclaim : ∃ x, (if wfi && !(claimOf (tick s t) k).isSome then coreWfi (coreClaim (tick s t) k) k else coreClaim (tick s t) k) =
        { tick s t with intr := x } := by
      split
      · exact coreWfi_of _ _ k (coreClaim_eq _ k)
      · exact coreClaim_eq _ k
    obtain ⟨x, hx⟩ := hclaim
    refine ⟨x, ?_⟩
    show execClaim t ⟨k, wfi⟩ s = _
    exact running_next hphase hx
  · obtain ⟨x, hx⟩ := modTimer_eq (tick s t) n
    refine ⟨x, ?_⟩
    show execModerationTimer t n s = _
    exact running_next hphase hx

/-! ### Each row where it acts -/

/-- A source of the device that is no firmware source takes part in no row (R365). -/
theorem sourcePending_source (s : State) (n : Nat) (on : Bool) (hn : n < 1024) (htype : n < 0x300 → srcType n ≠ 2) :
    sourcePending s n on = if isLevel s n = true then
      (if n < 0x200 ∨ (0x22D ≤ n ∧ n < 0x230) then sampleLevel s n else setLevel s n on)
    else if on = true then raiseEdge s n else s := by
  unfold sourcePending
  exact if_neg (not_or.2 ⟨Nat.not_le.2 hn, fun h => htype h.1 h.2⟩)

theorem coreClaim_some (s : State) (k n : Nat) (h : claimOf s k = some n) : coreClaim s k = modIntr s fun i => { i with
    active := tput i.active k ((priGroup s (rf s rIcSrc n 15 8), n) :: coreStack s k), corePend := i.corePend.filter (· != n) } := by
  simp only [coreClaim, h]

theorem coreClaim_none (s : State) (k : Nat) (h : claimOf s k = none) : coreClaim s k = s := by
  simp only [coreClaim, h]

/-- An edge source at the top of a core's stack is ended and nothing becomes pending again. -/
theorem coreEoi_edge (s : State) (k n g : Nat) (rest : List (Nat × Nat)) (h : coreStack s k = (g, n) :: rest)
    (hedge : isLevel s n = false) : coreEoi s k n = modIntr s fun i => { i with active := tput i.active k rest } := by
  rw [coreEoi_top s k n g rest h]
  simp only [hedge, Bool.false_eq_true, false_and, if_false]

theorem msixSend_some (s : State) (v : Nat)
    (h : (sortBy (vecBefore s) ((((s.intr.hostPend ++ s.intr.asserted).map fun n => (hostRoute s n).1).eraseDups).filter
      (vecSendable s))).head? = some v) : msixSend s =
    if s.intr.unmasked.contains v then vecSend s v else modIntr s fun i => { i with pba := addSorted v i.pba } := by
  simp only [msixSend, h]

theorem modTimer_due (s : State) (v : Nat) (hcount : (vecS s v).count ≠ 0) (hhold : rf s rIcVec v 17 8 ≠ 0)
    (hdue : (vecS s v).firstAt + rf s rIcVec v 17 8 * 1000 ≤ s.now) :
    modTimer s v = modIntr s fun i => { i with vecs := tput i.vecs v { vecS s v with timedOut := true } } := by
  simp only [modTimer]
  exact if_neg (by omega)

/-- Settles O39: each row of the interrupt controller where its condition holds. -/
theorem interruptRowsComplete : Obligations.InterruptRowsComplete := by
  unfold Obligations.InterruptRowsComplete
  intro s t hphase u
  refine ⟨fun n hn hedge htype => ?edge, fun n on hn hlevel htype => ?level, fun k n wfi hclaim => ?claim,
    fun k hclaim => ⟨?claimNone, ?claimWfi⟩, fun k n g rest hstack hedge => ?coreEoi, fun v hbusy => ?hostEoi, fun g w hg => ?idleHint,
    fun v => ?msixSend, fun v hcount hhold hdue => ?moderation, fun v => ?unmask, fun v => ?mask⟩
  case edge =>
    show execSourcePending t n true s = _
    refine running_next hphase ((sourcePending_source u n true hn htype).trans ?_)
    rw [if_neg (Bool.eq_false_iff.1 hedge), if_pos rfl]
  case level =>
    show execSourcePending t n on s = _
    exact running_next hphase ((sourcePending_source u n on hn htype).trans (if_pos hlevel))
  case claim =>
    show execClaim t ⟨k, wfi⟩ s = _
    refine running_next hphase ?_
    show (if wfi && !(claimOf u k).isSome then coreWfi (coreClaim u k) k else coreClaim u k) = _
    rw [hclaim, coreClaim_some u k n hclaim, Option.isSome_some, Bool.not_true, Bool.and_false]
    rfl
  case claimNone =>
    show execClaim t ⟨k, false⟩ s = _
    exact running_next hphase (coreClaim_none u k hclaim)
  case claimWfi =>
    show execClaim t ⟨k, true⟩ s = _
    refine running_next hphase ?_
    show (if true && !(claimOf u k).isSome then coreWfi (coreClaim u k) k else coreClaim u k) = _
    rw [coreClaim_none u k hclaim, hclaim]
    rfl
  case coreEoi =>
    rw [exec_coreEoi_running s t k n hphase, coreEoi_edge u k n g rest hstack hedge]
  case hostEoi =>
    show execHostEoi t v s = _
    exact running_next hphase (if_pos hbusy)
  case idleHint =>
    show execHpIdleHint t g w s = _
    exact running_next hphase (if_pos hg)
  case msixSend =>
    intro vs hv
    show execMsixSend t s = _
    exact running_next hphase (msixSend_some u v hv)
  case moderation =>
    show execModerationTimer t v s = _
    exact running_next hphase (modTimer_due u v hcount hhold hdue)
  case unmask =>
    show execMsixUnmask t ⟨v, false⟩ s = _
    exact running_next hphase rfl
  case mask =>
    show execMsixUnmask t ⟨v, true⟩ s = _
    exact running_next hphase rfl

end Sys2Proof.Machine
end

section
/-! Timers before their time, and the work requests of queue pairs (R239–R244, R258–R262). -/
namespace Sys2Proof.Machine

/-! ### A timer's row before its time -/

theorem reclamationTick_early (s : State) (h : s.now < s.pg.lastTick + rf s rPgReclaim 0 16 0 * 1000) :
    reclamationTick s = s := by
  simp only [reclamationTick]
  exact if_pos (decide_eq_false (Nat.not_le.2 h))

theorem offerTimeout_early (s : State) (o : Obj) (v : Lv) (hv : lvOf s o = some v) (hreg : o.region = true)
    (h : s.now < offerEnd s v) : offerTimeout s o = s := by
  simp only [offerTimeout, hv, hreg, if_true, ne_eq, not_true_eq_false, if_false, if_pos h, ite_self]

theorem pauseExpiry_early (s : State) (q : Nat) (x : Seq) (hx : seqOf s q = some x) (h : s.now < x.expiry) :
    pauseExpiry s q = s := by
  simp only [pauseExpiry, hx]
  exact if_pos (.inr (.inr (.inl h)))

theorem txnExpire_early (s : State) (n : Nat) (x : Txn) (hx : tget s.host.txns n = some x)
    (h : s.now < x.opened + rf s rCqTxnCtrl 0 16 0 * 1000000) : txnExpire s n = s := by
  simp only [txnExpire, hx, decide_eq_false (Nat.not_le.2 h), Bool.and_false, Bool.false_eq_true, if_false]

theorem paneDeadline_early (s : State) (n : Nat) (p : Pane) (hp : tget s.st.panes n = some p) (h : s.now < p.deadline) :
    paneDeadline s n = s := by
  simp only [paneDeadline, hp]
  exact if_neg fun hdue => Nat.not_le.2 h hdue.2

/-- Settles O23: each row's own condition on the time fails. -/
theorem timersWait : Obligations.TimersWait := by
  unfold Obligations.TimersWait
  intro s t i hphase u hi
  rcases hi with ⟨rfl, hearly⟩ | ⟨rfl, hearly⟩ | ⟨o, v, rfl, hv, hreg, hearly⟩ | ⟨q, x, rfl, hx, hearly⟩ | ⟨n, x, rfl, hx, hearly⟩ |
    ⟨n, p, rfl, hp, hearly⟩
  · show execReclamationTick t s = _
    exact running_next hphase (reclamationTick_early u hearly)
  · show execLeaseRenewTimer t s = _
    exact running_next hphase (if_pos hearly)
  · show execOfferTimeout t o s = _
    exact running_next hphase (offerTimeout_early u o v hv hreg hearly)
  · show execPauseExpiry t q s = _
    exact running_next hphase (pauseExpiry_early u q x hx hearly)
  · show execTxnExpired t n s = _
    exact running_next hphase (txnExpire_early u n x hx hearly)
  · show execPaneDeadline t n s = _
    exact running_next hphase (paneDeadline_early u n p hp hearly)

/-! ### Doorbells of a queue pair, and the head work request -/

section
variable {s : State} {n : Nat} {q : Qp} (hq : qpOf s n = some q)
include hq

theorem sqPi_valid (v : Nat) (reqs : List (List Byte)) (hn : 512 ≤ n) (hst : q.st ≠ 3) (hstep : sub32 v q.pi ≤ 2 ^ 31)
    (hroom : sub32 v q.ci ≤ 2 ^ q.sqLog) : sqPi s n v reqs =
    let img (i : Nat) : List Byte := if q.sq.1 = 1 then rdMem s (q.sq.2 + ((q.pi + i) % 2 ^ q.sqLog) * 64) 64 else reqs.getD i []
    setQp s n { q with
      pi := v % 2 ^ 32, wrNo := q.wrNo + sub32 v q.pi,
      wrs := q.wrs ++ (List.range (sub32 v q.pi)).map fun i =>
        (q.wrNo + i, (⟨workReqOf (img i), 0, [], 0, 0, 0, 0, false, 0⟩ : WrRun)) } := by
  simp only [sqPi, hq]
  rw [if_neg (Nat.not_lt.2 hn), if_neg (not_or.2 ⟨Nat.not_lt.2 hstep, Nat.not_lt.2 hroom⟩), if_neg hst]

theorem cqCi_valid (v : Nat) (hn : 512 ≤ n) (hv : sub32 v q.cqCi ≤ sub32 q.cqTail q.cqCi) :
    cqCi s n v = cqDrain (updQp s n fun q => { q with cqCi := v % 2 ^ 32 }) n q.cqWait := by
  simp only [cqCi, hq]
  rw [if_neg (Nat.not_lt.2 hn), if_neg (Nat.not_lt.2 hv)]

theorem rxCi_valid (v : Nat) (hn : 512 ≤ n) (hv : sub32 v q.rxCi ≤ sub32 q.rxNext q.rxCi) :
    rxCi s n v = updQp s n fun q => { q with rxCi := v % 2 ^ 32 } := by
  simp only [rxCi, hq]
  rw [if_neg (Nat.not_lt.2 hn), if_neg (Nat.not_lt.2 hv)]

/-- The head work request starts when its opcode's row comes and no counter holds it. -/
theorem headRun_head {k : Nat} {r : WrRun} {f : WorkReq → Bool} (hhead : sqHeadWr q = some (k, r)) (hheld : r.held = false)
    (hf : f r.wr = true) : headRun s n f = startWr s n := by
  simp only [headRun, hq, Option.bind_some, hhead, hf, hheld]
  rfl

end

theorem exec_armedRelease_held {s : State} {t n k : Nat} {q : Qp} {r : WrRun} (hphase : s.gl.phase = 2) (hq : qpOf (tick s t) n = some q)
    (hhead : sqHeadWr q = some (k, r)) (hheld : r.held = true) (hready : armedReady (tick s t) q.ctx r.wr = true) :
    exec (.armedRelease t n) s = .next (after s (startWr (tick s t) n)) := by
  show execArmedRelease t n s = _
  refine running_next hphase ?_
  simp only [hq, hhead, hheld, hready]
  rfl

/-- Settles O40: each doorbell where its index is valid, and the head work request by its opcode's row. -/
theorem workRequestRowsComplete : Obligations.WorkRequestRowsComplete := by
  unfold Obligations.WorkRequestRowsComplete
  intro s t n q hphase u hq
  refine ⟨fun v reqs hn hst hstep hroom => ?sqPi, fun v hn hv => ?cqCi, fun v hn hv => ?rxCi, fun k r i hhead hheld hi => ?head,
    fun k r hhead hheld hready => exec_armedRelease_held hphase hq hhead hheld hready⟩
  case sqPi =>
    show execSqPi t n v reqs s = _
    exact running_next hphase (sqPi_valid hq v reqs hn hst hstep hroom)
  case cqCi =>
    show execCqCi t n v s = _
    exact running_next hphase (cqCi_valid hq v hn hv)
  case rxCi =>
    show execRxCi t n v s = _
    exact running_next hphase (rxCi_valid hq v hn hv)
  case head =>
    have hrun (f : WorkReq → Bool) (hf : f r.wr = true) : running s t (fun u => headRun u n f) = .next (after s (startWr u n)) :=
      running_next hphase (headRun_head hq hhead hheld hf)
    simp only [List.mem_cons, Prod.mk.injEq, List.not_mem_nil, or_false] at hi
    rcases hi with ⟨hop, rfl⟩ | ⟨hop, rfl⟩ | ⟨hop, rfl⟩ | ⟨hop, rfl⟩ | ⟨hop, rfl⟩ | ⟨hop, rfl⟩
    · exact hrun (fun w => w.opcode == 1 || !wrListed w.opcode) (by rw [hop]; rfl)
    · exact hrun (fun w => w.opcode == 2) (by rw [hop]; rfl)
    · exact hrun (fun w => w.opcode == 3) (by rw [hop]; rfl)
    · exact hrun (fun w => w.opcode == 5) (by rw [hop]; rfl)
    · exact hrun (fun w => w.opcode == 7) (by rw [hop]; rfl)
    · exact hrun (fun w => w.opcode == 9) (by rw [hop]; rfl)

end Sys2Proof.Machine
end

section
/-! Timers of queue pairs, messages and windows (R237, R246–R250, R256), once their time has come. -/
namespace Sys2Proof.Machine

/-! ### Deadlines -/

theorem wrDeadline_due {s : State} {n k : Nat} {q : Qp} {r : WrRun} (hq : qpOf s n = some q) (hr : tget q.wrs k = some r) (hst : r.st = 1)
    (hhas : r.wr.hasDeadline = true) (hdue : r.wr.deadline ≤ s.now) : wrDeadline s n k =
    let w := modFab (r.msgs.foldl (fun s m => dropMsgTx s n m false) s) fun f => { f with
      msgs := f.msgs.filter (fun m => !(m.qp == n && m.wrNo == k && m.kind != 4))
      tracks := f.tracks.filter fun t => !(t.qp == n && t.type == ptReadResp && r.msgs.contains t.msn) }
    wrDone (bump w rXeQpCnt 0 47 32 1) n k sDeadlinePassed 0 := by
  simp only [wrDeadline, hq, hr]
  refine if_neg ?_
  simp only [hst, hhas, ne_eq, not_true_eq_false, Bool.true_eq_false, false_or, Nat.not_lt]
  exact hdue

theorem fwDeadline_due {s : State} {n msn d : Nat} {m : FwMsg}
    (hm : s.fab.fw.find? (fun m => m.qp == some n && m.msn == msn) = some m) (hd : m.deadline = some d) (hdue : d ≤ s.now) :
    fwDeadline s n msn =
    let w := dropMsgTx s n msn false
    bump (modFab w fun f => { f with
      msgs := f.msgs.filter (fun x => !(x.qp == n && x.msn == msn && x.kind != 4)), fw := f.fw.filter (·.id != m.id) })
      rXeQpCnt 0 47 32 1 := by
  simp only [fwDeadline, hm, hd]
  exact if_neg (Nat.not_lt.2 hdue)

/-! ### Packets sent again, and messages given up -/

section
variable {s : State} {n msn off : Nat} {q : Qp} {p : TxPkt} {m : TxMsg} (hq : qpOf s n = some q)
  (hp : s.fab.txs.find? (fun x => x.qp == some n && x.pkt.msn == msn && x.pkt.offset == off && x.st == 2 && !x.busy) = some p)
  (hm : s.fab.msgs.find? (fun m => m.qp == n && m.msn == msn && (m.kind == 4) == (p.pkt.type == ptReadResp)) = some m)
  (hkind : m.kind = 0) (hatomic : atomicOver s n msn = none) (hdue : p.sentAt + q.timeoutUs * 1000 ≤ s.now)
include hq hp hm hkind hatomic hdue

/-- What an unacknowledged packet of a written message comes to, as its tries and the message's life decide. -/
theorem retxFire_due :
    let w := if p.bytes = 0 then s else chargeTimeout s p.pkt.dst p.path
    retxFire s n msn off = if (decide (q.retry ≤ p.tries) || decide (m.firstAt + 4000000 ≤ w.now)) = true
      then failMsg w n msn sRetryExceeded (retryDetail m)
      else resend (updTx (bump w rXeRetxCnt q.xe 31 0 1) p.id fun x => { x with tries := x.tries + 1 }) { p with tries := p.tries + 1 } := by
  simp only [retxFire, hatomic, retxTimeout, hp, hq, hm, hkind, Nat.reduceBEq, Bool.false_eq_true, if_false, Bool.not_false,
    Bool.true_and, ge_iff_le, OfNat.zero_ne_ofNat, zero_ne_one, false_and, if_neg (Nat.not_lt.2 hdue)]

theorem retxFire_resends : let w := if p.bytes = 0 then s else chargeTimeout s p.pkt.dst p.path
    p.tries < q.retry → w.now < m.firstAt + 4000000 → retxFire s n msn off =
      resend (updTx (bump w rXeRetxCnt q.xe 31 0 1) p.id fun x => { x with tries := x.tries + 1 }) { p with tries := p.tries + 1 } := by
  intro w htries hlife
  rw [retxFire_due hq hp hm hkind hatomic hdue]
  exact if_neg (by rw [decide_eq_false (Nat.not_le.2 htries), decide_eq_false (Nat.not_le.2 hlife)]; decide)

theorem retxFire_gives_up (htries : q.retry ≤ p.tries) : let w := if p.bytes = 0 then s else chargeTimeout s p.pkt.dst p.path
    retxFire s n msn off = failMsg w n msn sRetryExceeded (retryDetail m) := by
  rw [retxFire_due hq hp hm hkind hatomic hdue]
  exact if_pos (by rw [decide_eq_true htries]; rfl)

end

theorem lifeExpiry_due {s : State} {n msn : Nat} {m : TxMsg} (hm : s.fab.msgs.find? (fun m => m.qp == n && m.msn == msn) = some m)
    (hAtomic : m.kind ≠ 2) (hResp : m.kind ≠ 4) (hdue : m.firstAt + 4000000 ≤ s.now)
    (hsent : m.kind = 0 → ∃ p ∈ s.fab.txs, p.qp = some n ∧ p.pkt.msn = msn ∧ (p.tries ≠ 0 ∨ p.st = 2)) :
    lifeExpiry s n msn = failMsg s n msn sRetryExceeded (retryDetail m) := by
  simp only [lifeExpiry, hm]
  refine (if_neg ?_).trans (if_neg hResp)
  rintro (hkind | hearly | ⟨hfirst, hkind⟩)
  · exact hAtomic hkind
  · exact Nat.not_lt.2 hdue hearly
  · obtain ⟨p, hp, hqp, hmsn, hpast⟩ := hsent hkind
    have hnew := List.all_eq_true.1 hfirst p (List.mem_filter.2 ⟨hp, by simp [hqp, hmsn]⟩)
    simp only [Bool.and_eq_true, beq_iff_eq, bne_iff_ne] at hnew
    rcases hpast with htries | hst
    · exact htries hnew.1
    · exact hnew.2 hst

theorem nakResend_due {s : State} {n msn off : Nat} {q : Qp} {p : TxPkt} (hq : qpOf s n = some q)
    (hp : s.fab.txs.find? (fun x => x.qp == some n && x.pkt.msn == msn && x.pkt.offset == off && x.busy) = some p) (hdue : p.busyAt ≤ s.now) :
    nakResend s n msn off = resend (bump s rXeRetxCnt q.xe 63 32 1) p := by
  simp only [nakResend, hp, hq]
  exact if_neg (Nat.not_lt.2 hdue)

/-! ### Connects, windows and messages received -/

theorem exec_connectGuardExpiry_over {s : State} {t n : Nat} {q : Qp} (hphase : s.gl.phase = 2) (hq : qpOf (tick s t) n = some q)
    (hconnect : q.connect.isSome = true) (hover : guardOver (tick s t) q = true) : exec (.connectGuardExpiry t n) s = .next (after s
      (if n < 512 then fwFlush (setQp (tick s t) n { q with st := 1, connect := none }) q.remoteEp else connectNow (tick s t) n)) := by
  show execConnectGuardExpiry t n s = _
  refine running_next hphase ?_
  simp only [hq, hover]
  refine if_neg ?_
  rw [Option.isNone_eq_false_iff.2 hconnect]
  decide

theorem exec_windowGuardExpiry_of {s : State} {t i : Nat} {w : Win} (hphase : s.gl.phase = 2) (hw : winOf (tick s t) i = some w) :
    exec (.windowGuardExpiry t i) s = .next (after s (winRun (tick s t) i w.pend.length)) := by
  show execWindowGuardExpiry t i s = _
  refine running_next hphase ?_
  simp only [hw]

theorem msnAbandon_due {s : State} {n msn since : Nat} {q : Qp} (hq : qpOf s n = some q) (hseen : tget q.seen msn = some since)
    (hplace : msnPlace q msn = 1) (hdue : since + 8000000 ≤ s.now) : msnAbandon s n msn =
    let w := modFab s fun f => { f with tracks := f.tracks.filter fun x => !(x.qp == n && x.msn == msn && x.type != ptReadResp) }
    doneAndTurn (bump (updQp w n fun q => { q with held := q.held.filter (·.msn != msn) }) rXeRxCnt 0 47 32 1) n msn true := by
  simp only [msnAbandon, hq, hseen]
  exact if_neg (not_or.2 ⟨not_not.2 hplace, Nat.not_lt.2 hdue⟩)

theorem msgVisible_whole {s : State} {n msn : Nat} {x : Track} (hx : trackOf s n msn = some x) (hwhole : x.count = x.length) :
    msgVisible s n msn = completeMsg s x := by
  simp only [msgVisible, hx]
  exact if_pos hwhole

/-- Settles O41: each timer past its time. -/
theorem queuePairTimersComplete : Obligations.QueuePairTimersComplete := by
  unfold Obligations.QueuePairTimersComplete
  intro s t n q hphase u hq
  refine ⟨fun k r hn hr hst hhas hdue => ?wrDeadline, fun msn d m hn hm hd hdue => ?fwDeadline,
    fun msn off p m hp hm hkind hatomic hdue => ⟨fun htries hlife => ?resends, fun htries => ?givesUp⟩,
    fun msn m hm hAtomic hResp hdue hsent => ?life, fun msn off p hp hdue => ?busy, fun hconnect hover hn => ?connect,
    fun hconnect hover hn => ?connectFw, fun i w hw => exec_windowGuardExpiry_of hphase hw,
    fun msn since hseen hplace hdue => ?abandon, fun msn x hx hwhole => ?whole, fun msn src m hserving => ?access⟩
  case wrDeadline =>
    show execWrDeadline t n k s = _
    exact running_next hphase ((if_neg (Nat.not_lt.2 hn)).trans (wrDeadline_due hq hr hst hhas hdue))
  case fwDeadline =>
    show execWrDeadline t n msn s = _
    exact running_next hphase ((if_pos hn).trans (fwDeadline_due hm hd hdue))
  case resends =>
    show execRetxTimeout t n msn off s = _
    exact running_next hphase (retxFire_resends hq hp hm hkind hatomic hdue htries hlife)
  case givesUp =>
    show execRetxTimeout t n msn off s = _
    exact running_next hphase (retxFire_gives_up hq hp hm hkind hatomic hdue htries)
  case life =>
    show execMessageLifeExpiry t n msn s = _
    exact running_next hphase (lifeExpiry_due hm hAtomic hResp hdue hsent)
  case busy =>
    show execNakPendingResend t n msn off s = _
    exact running_next hphase (nakResend_due hq hp hdue)
  case connect =>
    rw [exec_connectGuardExpiry_over hphase hq hconnect hover, if_neg (Nat.not_lt.2 hn)]
  case connectFw =>
    rw [exec_connectGuardExpiry_over hphase hq hconnect hover, if_pos hn]
  case abandon =>
    show execMsnAbandon t n msn s = _
    exact running_next hphase (msnAbandon_due hq hseen hplace hdue)
  case whole =>
    show execMessageComplete t n msn none s = _
    exact running_next hphase (msgVisible_whole hx hwhole)
  case access =>
    show execMessageComplete t n msn (some (src, m)) s = _
    exact running_next hphase (if_pos hserving)

end Sys2Proof.Machine
end

section
/-! Ports, destinations, rack accesses and the quad (R179–R181, R192, R194, R196, R216–R227, R465). -/
namespace Sys2Proof.Machine

/-! ### Ports -/

section
variable {s : State} {n : Nat} {pass : List Nat} (hn : n < 24) (htrain : rf s rEpStatus n 1 0 = 1) (hon : rbit s rEpCtrl n 0 = true)
include hn htrain hon

theorem trainDone_guard : ¬(n ≥ 24 ∨ rf s rEpStatus n 1 0 ≠ 1 ∨ rbit s rEpCtrl n 0 = false) := by
  rw [htrain, hon]
  simpa using hn

/-- A pass that leaves lanes missing is tried again while tries remain. -/
theorem trainDone_again :
    let p := portS s n
    let got := widthOf pass (maxLanes s n)
    let best := if p.tries = 0 ∨ got.length > (widthOf p.best (maxLanes s n)).length then pass else p.best
    let w := setPort s n { p with tries := p.tries + 1, best := best }
    got.length < maxLanes w n → p.tries + 1 < rf w rEpLinkCtrl n 19 16 → trainDone s n pass = w := by
  intro p got best w hfew htries
  simp only [trainDone]
  rw [if_neg (trainDone_guard hn htrain hon)]
  exact if_pos ⟨hfew, htries⟩

/-- The last pass, at full width: the port comes up on the lanes of the best pass. -/
theorem trainDone_full :
    let p := portS s n
    let got := widthOf pass (maxLanes s n)
    let best := if p.tries = 0 ∨ got.length > (widthOf p.best (maxLanes s n)).length then pass else p.best
    let w := setPort s n { p with tries := p.tries + 1, best := best }
    ¬(got.length < maxLanes w n ∧ p.tries + 1 < rf w rEpLinkCtrl n 19 16) → 4 ≤ (widthOf best (maxLanes w n)).length →
    trainDone s n pass = portSet
      (wf (wf w rEpTrain n 15 0 (sat 16 ((w.now - p.started) / 1000000))) rEpTrain n 35 32
        (([0, 1, 2, 3].filter fun l => !best.contains l).foldl (fun m l => m + 2 ^ l) 0)) n 2 (widthOf best (maxLanes w n)) := by
  intro p got best w hlast hfull
  have hsome : (widthOf best (maxLanes w n)).isEmpty = false := by
    cases hl : widthOf best (maxLanes w n) with
    | nil => rw [hl] at hfull; exact absurd hfull (by decide)
    | cons => rfl
  simp only [trainDone]
  rw [if_neg (trainDone_guard hn htrain hon)]
  refine (if_neg hlast).trans ((if_pos (.inr hfull)).trans ?_)
  exact congrArg (fun k => portSet _ n k _) (if_neg (Bool.eq_false_iff.1 hsome))

end

/-- A port that is up passes the guard of the rows that need it so. -/
theorem portUp_guard {s : State} {n : Nat} (hn : n < 24) (hup : portUp s n = true) : ¬(n ≥ 24 ∨ portUp s n = false) := by
  rw [hup]
  simpa using hn

/-! ### Destinations and key phases -/

theorem destIdle_due {s : State} {d : Nat} {x : Dest} (hx : tget s.fab.dests d = some x) (hidle : x.lastUsed + 100000000 ≤ s.now)
    (hempty : ∀ p ∈ x.paths, p.2.inflight = 0) : destIdle s d = flushNew (modFab s fun f => { f with dests := tdel f.dests d }) := by
  simp only [destIdle, hx]
  refine if_neg (not_or.2 ⟨Nat.not_lt.2 hidle, fun h => ?_⟩)
  obtain ⟨p, hp, hfly⟩ := List.any_eq_true.1 h
  exact bne_iff_ne.1 hfly (hempty p hp)

theorem pathReroll_due {s : State} {d p : Nat} {x : Dest} {y : Path} (hx : tget s.fab.dests d = some x) (hy : tget x.paths p = some y)
    (hone : y.weight = 1) (hdue : y.oneSince + rf s rEpCcPath 0 31 16 * 1000 ≤ s.now) :
    pathReroll s d p = flushDest (bump (setDest s d { x with
      paths := tput x.paths p { y with rerolls := y.rerolls + 1, weight := 16, wnd := rf s rEpCcWnd 0 23 0 } }) rEpCcCnt 0 63 48 1) d := by
  simp only [pathReroll, hx, hy]
  exact if_neg (not_or.2 ⟨not_not.2 hone, Nat.not_lt.2 hdue⟩)

theorem keyRetire_due {s : State} {a p : Nat} (ha : s.fab.keys.newSeen = some a) (hp : s.fab.keys.seenPhase = some p)
    (hdue : a + 8000000 ≤ s.now) : keyRetire s = keyFlags (modFab s fun f =>
      { f with keys := { f.keys with keys := tdel f.keys.keys (1 - p), newSeen := none } }) := by
  simp only [keyRetire, ha, hp]
  exact if_pos hdue

/-! ### Rack accesses -/

section
variable {s : State} {d msn : Nat} {a : RackAcc}

theorem loadStoreTimer_dead (ha : (accSeq s d).out.find? (fun a => a.msn == msn && a.kind != 2) = some a) (hsent : a.sends ≠ 0)
    (hdue : a.firstAt + rf s rFlLoadTimeout 0 10 0 * 1000 ≤ s.now) : loadStoreTimer s d msn = destDead s d := by
  simp only [loadStoreTimer, ha]
  rw [if_neg hsent]
  exact if_pos hdue

theorem loadStoreTimer_resends (ha : (accSeq s d).out.find? (fun a => a.msn == msn && a.kind != 2) = some a) (hsent : a.sends ≠ 0)
    (hlive : s.now < a.firstAt + rf s rFlLoadTimeout 0 10 0 * 1000) (hdue : a.sentAt + rf s rFlLoadTimeout 0 24 16 * 1000 ≤ s.now) :
    loadStoreTimer s d msn = resendAcc s d a true := by
  simp only [loadStoreTimer, ha]
  rw [if_neg hsent]
  exact (if_neg (Nat.not_le.2 hlive)).trans (if_pos hdue)

theorem atomicTimer_due (ha : (accSeq s d).out.find? (fun a => a.msn == msn && a.kind == 2) = some a) (hsent : a.sends ≠ 0)
    (hpend : a.pendAt = none) (hdue : a.sentAt + rf s rFlAtomicRetry 0 10 0 * 1000 ≤ s.now) :
    atomicTimer s d msn = if a.sends > rf s rFlAtomicRetry 0 18 16 then destDead s d else resendAcc s d a true := by
  simp only [atomicTimer, ha, hpend]
  refine if_neg ?_
  rintro (hzero | hsome | hearly)
  · exact hsent hzero
  · exact absurd hsome (by decide)
  · exact Nat.not_lt.2 hdue hearly

theorem atomicPending_due {p : Nat} (ha : (accSeq s d).out.find? (fun a => a.msn == msn && a.kind == 2) = some a)
    (hpend : a.pendAt = some p) (hdue : p ≤ s.now) : atomicPending s d msn = resendAcc s d a false := by
  simp only [atomicPending, ha, hpend]
  exact if_neg (Nat.not_lt.2 hdue)

end

theorem quadProbe_near {s : State} {peer rtt i : Nat} (hpos : quadPos s peer = some i) (hon : rbit s rFlCtrl 0 1 = true)
    (hrtt : rtt ≤ 2000) (hother : peer ≠ self s) : quadProbe s peer rtt true =
    let w := modFab s fun f => { f with probes := addSorted i f.probes }
    let need := (List.range 4).filter fun j => rbit w rFlQuad j 20 && rf w rFlQuad j 19 0 != self w
    if need.isEmpty = false ∧ need.all (w.fab.probes.contains ·) = true ∧ (quadPos w (self w)).isSome then wf w rFlQuadStatus 0 0 0 1
    else w := by
  simp only [quadProbe, hpos]
  refine if_neg ?_
  rw [hon]
  rintro (hoff | hfar | hhop | hself)
  · exact absurd hoff (by decide)
  · exact Nat.not_lt.2 hrtt hfar
  · exact absurd hhop (by decide)
  · exact hother hself

/-- Settles O42: each row where its condition holds. -/
theorem portRowsComplete : Obligations.PortRowsComplete := by
  unfold Obligations.PortRowsComplete
  intro s t hphase u
  have hpower := phase_ne_stopped hphase
  refine ⟨fun n pass hn htrain hon => ⟨fun hfew htries => ?again, fun hlast hfull => ?full⟩, fun n uncorr corr hn hup => ?fec,
    fun n lane hn hlane hlock => ?lock, fun n frames hn hup => ?stream, fun io hio => ?eref, fun d x hx hidle hempty => ?idle,
    fun d p x y hx hy hone hdue => ?reroll, fun a p ha hp hdue => ?retire, fun d msn a ha hsent => ⟨fun hdue => ?dead, fun hlive hdue => ?resend⟩,
    fun d msn a ha hsent hpend hdue => ?atomic, fun d msn p a ha hpend hdue => ?pending, fun d => ?destDead, fun d hhold hdue => ?holdEnd,
    ?evict, fun peer rtt i hpos hon hrtt hother => ?quad⟩
  case again =>
    show execPortTrainDone t n pass s = _
    exact powered_next hpower (trainDone_again hn htrain hon hfew htries)
  case full =>
    show execPortTrainDone t n pass s = _
    exact powered_next hpower (trainDone_full hn htrain hon hlast hfull)
  case fec =>
    show execUncorrectableBurst t n uncorr corr s = _
    exact powered_next hpower (if_neg (portUp_guard hn hup))
  case lock =>
    show execBlockLockLoss t n lane s = _
    exact powered_next hpower (if_pos ⟨hn, hlane, hlock⟩)
  case stream =>
    show execStreamPlaceLost t n frames s = _
    exact powered_next hpower (if_neg (portUp_guard hn hup))
  case eref =>
    show execErefclkLoss t io s = _
    exact powered_next hpower (if_neg (Nat.not_le.2 hio))
  case idle =>
    show execDestStateIdle t d s = _
    exact running_next hphase (destIdle_due hx hidle hempty)
  case reroll =>
    show execPathReroll t d p s = _
    exact running_next hphase (pathReroll_due hx hy hone hdue)
  case retire =>
    show execKeyPhaseRetire t s = _
    exact running_next hphase (keyRetire_due ha hp hdue)
  case dead =>
    show execLoadStoreResend t d msn s = _
    exact running_next hphase (loadStoreTimer_dead ha hsent hdue)
  case resend =>
    show execLoadStoreResend t d msn s = _
    exact running_next hphase (loadStoreTimer_resends ha hsent hlive hdue)
  case atomic =>
    show execAtomicResend t d msn s = _
    exact running_next hphase (atomicTimer_due ha hsent hpend hdue)
  case pending =>
    show execAtomicPendingResend t d msn s = _
    exact running_next hphase (atomicPending_due ha hpend hdue)
  case destDead =>
    show execDestDead t d s = _
    exact running_next hphase rfl
  case holdEnd =>
    show execDeadHoldEnd t d s = _
    exact running_next hphase (if_pos ⟨hhold, hdue⟩)
  case evict =>
    show execAtomicCacheEvict t s = _
    exact running_next hphase rfl
  case quad =>
    show execQuadProbe t peer rtt true s = _
    exact running_next hphase (quadProbe_near hpos hon hrtt hother)

end Sys2Proof.Machine
end

section
/-! The host and CXL links (R155–R157, R442, R452, R454, R456). -/
namespace Sys2Proof.Machine

theorem hostLoss_due {s : State} {a : Nat} (ha : s.gl.hpOutAt = some a) (hperst : s.gl.perst = false) (hlost : rbit s rGlStatus 0 6 = false)
    (hdue : a + rf s rGlHotplug 0 15 0 * 1000000 ≤ s.now) : hostLoss s =
    let w := hostStop (wf s rGlStatus 0 6 6 1)
    if rbit w rGlHotplug 0 16 ∧ shutter w = 2 then shutterClose w 0 none else w := by
  simp only [hostLoss, ha]
  refine if_neg ?_
  rw [hperst, hlost]
  rintro (hbad | hbad | hearly)
  · exact absurd hbad (by decide)
  · exact absurd hbad (by decide)
  · exact Nat.not_lt.2 hdue hearly

/-- A CXL port in its mode, its link up, passes the guard of the rows that need both. -/
theorem cxlUp_guard {s : State} {i : Nat} (hmode : cxlMode s i = true) (hup : rbit s rMcTierPorts 0 (52 + i) = true) :
    ¬(cxlMode s i = false ∨ rbit s rMcTierPorts 0 (52 + i) = false) := by
  rw [hmode, hup]
  decide

theorem cxlRemoved_present {s : State} {i d : Nat} (hmode : cxlMode s i = true) (hd : d < (cxlOf s i).devices.length)
    (hgone : (cxlOf s i).gone.contains d = false) : cxlRemoved s i d = cxlCount (setCxl (slotsLost s fun n =>
      slotPort s n == some i && slotOnDevice s i d n) i { cxlOf s i with gone := d :: (cxlOf s i).gone }) i := by
  refine if_neg ?_
  rw [hmode, hgone]
  simpa using hd

theorem cxlReturn_gone {s : State} {i d mib : Nat} (hmode : cxlMode s i = true) (hup : rbit s rMcTierPorts 0 (52 + i) = true)
    (hgone : (cxlOf s i).gone.contains d = true) : cxlReturn s i d mib = cxlCount (markerWrite (setCxl s i { cxlOf s i with
      gone := (cxlOf s i).gone.filter (· != d) }) i) i :=
  (if_neg (cxlUp_guard hmode hup)).trans (if_pos hgone)

/-- Corrected errors within the threshold report nothing. -/
theorem cxlCorrected_few (s : State) (port : Option Nat) {corr : Nat} (hcorr : corr ≤ 1024) : cxlCorrected s port corr = s := by
  cases port with
  | none => rfl
  | some i => exact if_neg (Nat.not_lt.2 hcorr)

theorem cxlTimeout_prefetch {s : State} {n corr : Nat} {x : Prefetch} {solved : Bool} (hx : s.pg.prefetches.find? (·.slot == n) = some x)
    (hcorr : corr ≤ 1024) : cxlTimeout s n none corr solved = prefetchDone s x false := by
  simp only [cxlTimeout, hx, cxlCorrected_few _ _ hcorr]

theorem cxlTimeout_reader {s : State} {n id i corr : Nat} {job : Option Nat} {solved : Bool}
    (hx : s.pg.prefetches.find? (·.slot == n) = none) (hcorr : corr ≤ 1024) :
    cxlTimeout s n (some (id, i, job)) corr solved = tierReadLate s id i job 1 true solved := by
  simp only [cxlTimeout, hx, cxlCorrected_few _ _ hcorr]

theorem auxPerst_link {s : State} {n : Nat} (hn : n ≤ 1) (hmode : cxlMode s (n + 1) = false) : auxPerst s n = linkDown s (n + 2) := by
  refine if_neg ?_
  rw [hmode]
  simpa using hn

/-- Settles O43: each row where its condition holds. -/
theorem linkRowsComplete : Obligations.LinkRowsComplete := by
  unfold Obligations.LinkRowsComplete
  intro s t hphase u
  have hpower := phase_ne_stopped hphase
  refine ⟨fun kind => ?reset, fun rate width hl0 => ?comes, fun hl0 => ?d3hot, fun a ha hperst hlost hdue => ?loss,
    fun i rate width devices marker hmode => ?up, fun i hmode hup => ?down, fun i d hmode hd hgone => ?removed,
    fun i d mib hmode hup hgone => ?returned, fun n corr x solved hx hcorr => ?prefetch, fun n id i corr job solved hx hcorr => ?reader,
    fun n hn hmode => ?aux⟩
  case reset =>
    show execHpHotReset t kind s = _
    exact powered_next hpower rfl
  case comes =>
    show execHpReturn t rate width s = _
    exact powered_next hpower (if_neg hl0)
  case d3hot =>
    show execD3hotEntry t s = _
    exact powered_next hpower (if_pos hl0)
  case loss =>
    show execHostLoss t s = _
    exact running_next hphase (hostLoss_due ha hperst hlost hdue)
  case up =>
    show execCxlLinkUp t i devices marker rate width s = _
    exact powered_next hpower rfl
  case down =>
    show execCxlLinkDown t i s = _
    exact powered_next hpower (if_neg (cxlUp_guard hmode hup))
  case removed =>
    show execCxlDeviceRemoved t i d s = _
    exact powered_next hpower (cxlRemoved_present hmode hd hgone)
  case returned =>
    show execCxlDeviceReturn t i d mib s = _
    exact powered_next hpower (cxlReturn_gone hmode hup hgone)
  case prefetch =>
    show execCxlReadTimeout t n none ⟨corr, solved⟩ s = _
    exact running_next hphase (cxlTimeout_prefetch hx hcorr)
  case reader =>
    show execCxlReadTimeout t n (some (id, i, job)) ⟨corr, solved⟩ s = _
    exact running_next hphase (cxlTimeout_reader hx hcorr)
  case aux =>
    show execAuxPerst t n s = _
    exact powered_next hpower (auxPerst_link hn hmode)

end Sys2Proof.Machine
end

section
/-! Latch messages that a home, an owner, a receiver or the manager takes (R271–R285). -/
namespace Sys2Proof.Machine

theorem latchIn_next {s r : State} {t src sub : Nat} {b : List Byte} {f : State → LMsg → State} {m : LMsg} (hphase : s.gl.phase = 2)
    (hheard : heardL (tick s t) src b m) (hsub : m.sub = sub) (hf : f (tick s t) m = r) :
    running s t (fun u => latchIn u src sub b f) = .next (after s r) :=
  running_next hphase ((latchIn_heard _ src sub b f m hheard hsub).trans hf)

theorem cellIn_next {s r : State} {t sub : Nat} {b : List Byte} {f : State → CMsg → State} {m : CMsg} (hphase : s.gl.phase = 2)
    (hheard : heardC (tick s t) b m) (hsub : m.sub = sub) (hf : f (tick s t) m = r) :
    running s t (fun u => cellIn u sub b f) = .next (after s r) :=
  running_next hphase ((cellIn_heard _ sub b f m hheard hsub).trans hf)

/-! ### At a home -/

section
variable {s : State} {src : Nat} {m : LMsg} {v : Lv}

theorem homeOffer_forwards : let w := bump s rLtHingeCnt 0 15 0 1
    lvOf w m.obj = some v → v.st = 0 → v.owner = src → v.epoch = m.epoch →
    let v' := { v with st := 1, offeredTo := m.receiver, assigning := false, offerTime := w.now, hingeId := m.hingeId, prefill := false }
    homeOffer s src m = forward (putLv w m.obj v') m.obj v' := by
  intro w hv hst howner hepoch v'
  simp only [homeOffer]
  rw [show lvOf (bump s rLtHingeCnt 0 15 0 1) m.obj = some v from hv]
  exact (if_neg (not_not.2 hst)).trans ((if_neg (not_not.2 howner)).trans (if_neg (not_not.2 hepoch)))

theorem homeOffer_refuses : let w := bump s rLtHingeCnt 0 15 0 1
    lvOf w m.obj = some v → v.st ≠ 0 →
    homeOffer s src m = revert (bump w rLtHingeCnt 0 47 32 1) src m.obj m.hingeId sInvalidParam := by
  intro w hv hst
  simp only [homeOffer]
  rw [show lvOf (bump s rLtHingeCnt 0 15 0 1) m.obj = some v from hv]
  exact if_pos hst

theorem homeAccept_transfers (hv : lvOf s m.obj = some v) (hst : v.st = 1) (hid : v.hingeId = m.hingeId) (hto : v.offeredTo = src)
    (hepoch : v.epoch < maxEpoch) (hmay : mayAdvance s m.obj v = true) : homeAccept s src m = transfer s m.obj v := by
  simp only [homeAccept, hv, hmay, if_true]
  exact (if_pos ⟨hst, hid, hto⟩).trans (if_neg (Nat.not_le.2 hepoch))

theorem homeDecline_orphans (hv : lvOf s m.obj = some v) (hst : v.st = 1) (hassign : v.assigning = true) (hid : v.hingeId = m.hingeId)
    (hto : v.offeredTo = src) : homeDecline s src m =
    let v' := { v with st := 2, offeredTo := 0, assigning := false, offerTime := 0 }
    let w := bump (putLv s m.obj v') rLtHingeCnt 0 47 32 1
    let x := revert (revert w src m.obj m.hingeId m.status) (mgrEp w) m.obj m.hingeId m.status
    if m.status = sLostState ∧ m.obj.region = false then setLost x m.obj.id else orphanNotice x m.obj v' := by
  simp only [homeDecline, hv]
  refine if_neg ?_
  rw [hst, hassign, hid, hto]
  simp

theorem leaseRenew_live (hlive : ∀ l, tget s.ce.leases src = some l → l.expired = false) : leaseRenew s src =
    let w := modFab (startLease s src) fun f => { f with regions := f.regions.map fun kv =>
      (kv.1, if kv.2.owner = src then { kv.2 with renewed := true } else kv.2) }
    sendL w src (lmsg mLeaseAck ⟨false, 0⟩ 0) := by
  simp only [leaseRenew]
  refine if_neg ?_
  cases hl : tget s.ce.leases src with
  | none => exact Bool.false_ne_true
  | some l =>
    show ¬(l.expired && _) = true
    rw [hlive l hl]
    exact Bool.false_ne_true

theorem latchQueryIn_record (hv : lvOf s m.obj = some v) : latchQueryIn s src m = sendL s src (homeAnswer m.obj v) := by
  simp only [latchQueryIn, hv]

/-- What a home may assign has not lost its sequence (R295). -/
theorem homeAssign_forwards (hv : lvOf s m.obj = some v) (hepoch : v.epoch = m.epoch) (hst : v.st = 2) (hprefill : v.prefill = false)
    (hkept : m.obj.region = false → ∀ h, homeOf s m.obj.id = some h → h.lost = false) : homeAssign s src m =
    let hid := (newHinge s).1
    let v' := { v with st := 1, offeredTo := m.receiver, assigning := true, offerTime := s.now, hingeId := hid }
    forward (putLv (newHinge s).2 m.obj v') m.obj v' := by
  have hlost : (!m.obj.region && ((homeOf s m.obj.id).map (·.lost)).getD false) = false := by
    cases hregion : m.obj.region with
    | true => rfl
    | false =>
      cases hh : homeOf s m.obj.id with
      | none => rfl
      | some h => exact hkept hregion h hh
  simp only [homeAssign, hv, hlost]
  refine (if_neg (not_not.2 hepoch)).trans (if_neg ?_)
  rw [hst, hprefill]
  decide

theorem homeRelease_orphans (hv : lvOf s m.obj = some v) (howner : v.owner = src) (hepoch : v.epoch = m.epoch) (hst : v.st = 0)
    (hmay : mayAdvance s m.obj v = true) : homeRelease s src m =
    let w := goOrphan s m.obj v true
    sendL w src { (match lvOf w m.obj with
      | some x => { lmsg mLatchReply m.obj x.epoch with owner := x.owner, st := x.st }
      | none => lmsg mLatchReply m.obj 0) with status := sOk } := by
  simp only [homeRelease, hv]
  refine (if_neg (not_or.2 ⟨not_not.2 howner, not_not.2 hepoch⟩)).trans (if_neg ?_)
  rw [hst, hmay]
  decide

end

/-- Settles O44: each message where the home's record lets it act. -/
theorem homeMessagesComplete : Obligations.HomeMessagesComplete := by
  unfold Obligations.HomeMessagesComplete
  intro s t src b m hphase u hheard
  refine ⟨fun v => ?offer, fun v => ?refused, fun v hsub hv hst hid hto hepoch hmay => ?accept, fun v hsub hv hst hassign hid hto => ?decline,
    fun hsub => ?epochAck, fun hsub hlive => ?renew, fun v hsub hv => ?query, fun v hsub hv hepoch hst hprefill hkept => ?assign,
    fun v hsub hv howner hepoch hst hmay => ?release⟩
  case offer =>
    intro w hsub hv hst howner hepoch
    show execHingeOfferMsg t src b s = _
    exact latchIn_next hphase hheard hsub (homeOffer_forwards hv hst howner hepoch)
  case refused =>
    intro w hsub hv hst
    show execHingeOfferMsg t src b s = _
    exact latchIn_next hphase hheard hsub (homeOffer_refuses hv hst)
  case accept =>
    show execHingeAccept t src b s = _
    refine latchIn_next hphase hheard hsub ((homeAccept_transfers hv hst hid hto hepoch hmay).trans ?_)
    simp only [transfer, hid, hto]
  case decline =>
    show execHingeDecline t src b s = _
    exact latchIn_next hphase hheard hsub (homeDecline_orphans hv hst hassign hid hto)
  case epochAck =>
    show execEpochAck t src b s = _
    exact latchIn_next hphase hheard hsub rfl
  case renew =>
    show execLeaseRenew t src b s = _
    exact latchIn_next hphase hheard hsub (leaseRenew_live hlive)
  case query =>
    show execLatchQueryMsg t src b s = _
    exact latchIn_next hphase hheard hsub (latchQueryIn_record hv)
  case assign =>
    show execLatchAssignMsg t src b s = _
    exact latchIn_next hphase hheard hsub (homeAssign_forwards hv hepoch hst hprefill hkept)
  case release =>
    show execLatchRelease t src b s = _
    exact latchIn_next hphase hheard hsub (homeRelease_orphans hv howner hepoch hst hmay)

/-! ### At an owner, a receiver or the manager -/

section
variable {s : State} {src : Nat} {m : LMsg}

theorem forwardIn_region (ctx : Nat) (r : Recovery) (hregion : m.obj.region = true) (hopen : shutter s ≠ 1) (hnew : hingeOf s m.obj = none) :
    forwardIn s src m ctx r = acceptSend s
      ⟨m.obj, false, none, 2, m.hingeId, src, m.offerer, m.epoch, ctx, s.now, 0, none, .runnable, m.offerer == 0, 0, false, false, false⟩ := by
  simp only [forwardIn, hregion, if_true, hnew]
  exact if_neg (not_or.2 ⟨hopen, Bool.false_ne_true⟩)

/-- Nothing is stale where this controller knows nothing of the sequence. -/
theorem staleEnds_unknown (hnew : hingeOf s m.obj = none) (hseq : seqOf s m.obj.id = none) : staleEnds s m = s := by
  simp only [staleEnds, hnew, hseq]

theorem forwardIn_seq (ctx : Nat) (r : Recovery) {rs : List Reserve} {w : State} (hregion : m.obj.region = false) (hofferer : m.offerer ≠ 0)
    (hnew : hingeOf s m.obj = none) (hseq : seqOf s m.obj.id = none) (hcheck : receiveCheck s (forwardedSeq s src m) = none)
    (htake : takeReserve s (forwardedSeq s src m).ctx m.obj.id (cells (forwardedSeq s src m).geo) = some (rs, w)) :
    forwardIn s src m ctx r =
    let x := forwardedSeq s src m
    acceptSend (takeIn w m.obj.id x rs)
      ⟨m.obj, false, none, 2, m.hingeId, src, m.offerer, m.epoch, x.ctx, s.now, 0, none, x.st, false, 0, false, false, false⟩ := by
  have hassign : (m.offerer == 0) = false := beq_eq_false_iff_ne.2 hofferer
  simp only [forwardIn, hregion, Bool.false_eq_true, if_false, hassign, staleEnds_unknown hnew hseq, hnew, hseq, hcheck, htake,
    Option.isSome_none, or_self, if_true]

variable {h : Hinge}

theorem hingeDone_offerer (x : Option TableRead) (hmgr : isMgr s = false) (hh : hingeOf s m.obj = some h) (hoff : h.offerer = true)
    (hphase : h.phase = 1) : hingeDone s m x = offerWon s h m.owner m.epoch := by
  simp only [hingeDone, hmgr, Bool.false_eq_true, if_false, hh, hoff, if_true, hphase]

theorem hingeDone_receiver (x : Option TableRead) (hmgr : isMgr s = false) (hh : hingeOf s m.obj = some h) (hoff : h.offerer = false)
    (hphase : h.phase = 2) : hingeDone s m x = if m.owner = self s then gained s h m.epoch x else notGained s h m.epoch := by
  simp only [hingeDone, hmgr, Bool.false_eq_true, if_false, hh, hoff, hphase, if_true]

theorem hingeReverted_receiver (hmgr : isMgr s = false) (hh : hingeOf s m.obj = some h) (hoff : h.offerer = false) (hphase : h.phase = 2)
    (hid : m.hingeId = h.hingeId) : hingeReverted s m = notGained s h m.epoch := by
  simp only [hingeReverted, hmgr, Bool.false_eq_true, if_false, hh, hoff]
  exact if_pos ⟨hid, .inl hphase⟩

theorem hingeReverted_offerer (hmgr : isMgr s = false) (hh : hingeOf s m.obj = some h) (hoff : h.offerer = true) (hphase : h.phase = 1)
    (hid : m.hingeId = h.hingeId) : hingeReverted s m = offerRevertedMsg s h m := by
  simp only [hingeReverted, hmgr, Bool.false_eq_true, if_false, hh, hoff, if_true]
  exact if_pos ⟨hphase, hid⟩

theorem leaseAck_ok {l : OwnLease} {a : Nat} {rest : List Nat} (hl : tget s.ce.own src = some l) (hsent : l.sent = a :: rest)
    (hst : m.status = sOk) : leaseAck s src m = modCe s fun c => { c with
      own := tput c.own src { sent := rest, acked := some (Nat.max a (l.acked.getD 0)), lapsed := decide (a + leaseNs s ≤ s.now) } } := by
  simp only [leaseAck, hl, hsent]
  exact if_pos hst

theorem promotedReply_elsewhere (hhome : homeOf s m.obj.id = none) : promotedReply s src m = s := by
  simp only [promotedReply, hhome]

/-- The answer to a query of this controller's own, for which no command waits. -/
theorem latchReply_query (x : Option TableRead) {k : Nat × Req} (hhome : homeOf s m.obj.id = none)
    (hrelease : s.ce.reqs.find? (fun kv => kv.2.use == .release m.obj && kv.2.dst == src) = none)
    (hquery : s.ce.reqs.find? (fun kv => kv.2.use == .query m.obj && kv.2.dst == src) = some k)
    (hwait : waiters (modCe s fun c => { c with reqs := tdel c.reqs k.1 }) k.1 = []) : latchReply s src m x =
    learn (hingeQueried (modCe s fun c => { c with reqs := tdel c.reqs k.1 }) src m x) m := by
  simp only [latchReply, promotedReply_elsewhere hhome, hrelease, hquery]
  exact if_pos (by rw [hwait]; rfl)

theorem latchReply_release (x : Option TableRead) {k : Nat × Req} (hhome : homeOf s m.obj.id = none)
    (hrelease : s.ce.reqs.find? (fun kv => kv.2.use == .release m.obj && kv.2.dst == src) = some k) (hst : m.status = sOk) :
    latchReply s src m x = releaseEnd (modCe s fun c => { c with reqs := tdel c.reqs k.1 }) m.obj true := by
  simp only [latchReply, promotedReply_elsewhere hhome, hrelease, hst]
  exact if_neg (by decide)

theorem orphanIn_region (hmgr : isMgr s = true) (hregion : m.obj.region = true) : orphanIn s m =
    raiseCtx s ((tget s.ce.regionDir m.obj.id).map (·.1) |>.getD 0) evRegionOrphaned 0 m.epoch m.obj.id := by
  refine (if_neg ?_).trans (if_pos hregion)
  rw [hmgr]
  decide

theorem orphanIn_seq (hmgr : isMgr s = true) (hregion : m.obj.region = false) : orphanIn s m =
    raiseSeq s ((tget s.ce.ledger m.obj.id).map (·.ctx) |>.getD 0) evLatchOrphaned 0 m.obj.id m.owner := by
  refine (if_neg ?_).trans (if_neg ?_)
  · rw [hmgr]
    decide
  · rw [hregion]
    decide

theorem homeMovedMgr_elsewhere (hmgr : isMgr s = false) : homeMovedMgr s src m = s := by
  simp only [homeMovedMgr, hmgr, Bool.false_eq_true, if_false]

theorem homeMovedAny_known {x : Seq} (hmgr : isMgr s = false) (hx : seqOf s m.obj.id = some x) : homeMovedAny s src m =
    let v := modCe s fun c => { c with hinges := c.hinges.map fun h => if h.obj = m.obj then { h with home := src } else h }
    let w := updSeq v m.obj.id fun y => { y with home := src, latchRef := src * 2 ^ 44 + y.latchRef % 2 ^ 44 }
    let y := if w.pg.seqs.any fun kv => kv.2.home == x.home then w else modCe w fun c => { c with unreach := tdel c.unreach x.home }
    writeDesc (homeBack (renewTo (leaseFrom y src y.now) src) m.obj.id src) m.obj.id := by
  have hseq : seqOf (modCe s fun c => { c with hinges := c.hinges.map fun h => if h.obj = m.obj then { h with home := src } else h })
      m.obj.id = some x := hx
  simp only [homeMovedAny, homeMovedIn, homeMovedMgr_elsewhere hmgr, hseq]

end

/-- Settles O45: each message where what it names is known here. -/
theorem ownerMessagesComplete : Obligations.OwnerMessagesComplete := by
  unfold Obligations.OwnerMessagesComplete
  intro s t src b m hphase u hheard
  refine ⟨fun ctx r hsub hregion hopen hnew => ?region, fun ctx r rs w hsub hregion hofferer hnew hseq => ?seq,
    fun h x hsub hmgr hh hoff hph => ?doneOfferer, fun h x hsub hmgr hh hoff hph => ?doneReceiver,
    fun h hsub hmgr hh hoff hph hid => ?revertedReceiver, fun h hsub hmgr hh hoff hph hid => ?revertedOfferer, fun hsub => ?epochNotice,
    fun l a rest hsub hl hsent hst => ?leaseAck, fun req k x hsub hhome hrelease hquery hreq hwait => ?queried,
    fun req k x hsub hhome hrelease hreq hst => ?released, fun hsub hmgr hregion => ?orphanRegion, fun hsub hmgr hregion => ?orphanSeq,
    fun x hsub hmgr hx => ?moved⟩
  case region =>
    show execHingeForward t src b ctx r s = _
    exact latchIn_next hphase hheard hsub (forwardIn_region ctx r hregion hopen hnew)
  case seq =>
    intro x hcheck htake
    show execHingeForward t src b ctx r s = _
    exact latchIn_next hphase hheard hsub (forwardIn_seq ctx r hregion hofferer hnew hseq hcheck htake)
  case doneOfferer =>
    show execHingeDone t src b x s = _
    exact latchIn_next hphase hheard hsub (hingeDone_offerer x hmgr hh hoff hph)
  case doneReceiver =>
    show execHingeDone t src b x s = _
    exact latchIn_next hphase hheard hsub (hingeDone_receiver x hmgr hh hoff hph)
  case revertedReceiver =>
    show execHingeReverted t src b s = _
    exact latchIn_next hphase hheard hsub (hingeReverted_receiver hmgr hh hoff hph hid)
  case revertedOfferer =>
    show execHingeReverted t src b s = _
    exact latchIn_next hphase hheard hsub (hingeReverted_offerer hmgr hh hoff hph hid)
  case epochNotice =>
    show execEpochNotice t src b s = _
    exact latchIn_next hphase hheard hsub rfl
  case leaseAck =>
    show execLeaseAck t src b s = _
    exact latchIn_next hphase hheard hsub (leaseAck_ok hl hsent hst)
  case queried =>
    subst hreq
    show execLatchReply t src b x s = _
    exact latchIn_next hphase hheard hsub (latchReply_query x hhome hrelease hquery hwait)
  case released =>
    subst hreq
    show execLatchReply t src b x s = _
    exact latchIn_next hphase hheard hsub (latchReply_release x hhome hrelease hst)
  case orphanRegion =>
    show execOrphanNotice t src b s = _
    exact latchIn_next hphase hheard hsub (orphanIn_region hmgr hregion)
  case orphanSeq =>
    show execOrphanNotice t src b s = _
    exact latchIn_next hphase hheard hsub (orphanIn_seq hmgr hregion)
  case moved =>
    show execHomeMoved t src b s = _
    exact latchIn_next hphase hheard hsub (homeMovedAny_known hmgr hx)

end Sys2Proof.Machine
end

section
/-! Requests to the cell manager (R276, R285, R287, R288, R478). -/
namespace Sys2Proof.Machine

/-- A request to the manager, taken by the manager. -/
theorem manager_next {s r : State} {t src sub : Nat} {b : List Byte} {f : State → CMsg → State} {m : CMsg} (hphase : s.gl.phase = 2)
    (hheard : heardC (tick s t) b m) (hmgr : isMgr (tick s t) = true) (hsub : m.sub = sub) (hf : f (tick s t) m = r) :
    running s t (fun u => cellIn u sub b fun u m => mgrOnly u src m fun u => f u m) = .next (after s r) :=
  cellIn_next hphase hheard hsub ((if_pos hmgr).trans hf)

/-- A request to the manager, taken by another controller. -/
theorem other_next {s : State} {t src sub : Nat} {b : List Byte} {f : State → CMsg → State} {m : CMsg} (hphase : s.gl.phase = 2)
    (hheard : heardC (tick s t) b m) (hmgr : isMgr (tick s t) = false) (hsub : m.sub = sub) :
    running s t (fun u => cellIn u sub b fun u m => mgrOnly u src m fun u => f u m) =
      .next (after s (sendC (tick s t) src ⟨mgrAnswer m.sub, sTargetDead, m.req, m.obj, 0, 0, 0⟩)) :=
  cellIn_next hphase hheard hsub (if_neg (Bool.eq_false_iff.1 hmgr))

section
variable {s : State} {src : Nat} {m : CMsg}

theorem admitReq_placed {gid home q : Nat} {v w : State} (hctx : ctxState s (bits m.a 7 0) = 1) (hcand : (admitCands s src).isEmpty = false)
    (hroom : s.ce.ledger.length < 8388608) (hplace : pickOf s (admitCands s src) = (some (gid, home), v))
    (hseq : pick v (fun n => !thas v.ce.ledger n) 1 0xFFFFFFFE = (some q, w)) :
    admitReq s src m = admitPlace w src m (bits m.a 7 0) q gid home := by
  simp only [admitReq, hplace, hseq]
  exact (if_neg (not_not.2 hctx)).trans ((if_neg (Bool.eq_false_iff.1 hcand)).trans (if_neg (Nat.not_le.2 hroom)))

theorem seqRetire_live {e : LedgerE} (he : tget s.ce.ledger m.obj = some e) (hst : e.state ≠ 1) : seqRetire s src m =
    let w := ledgerPut s (.seq m.obj (some { e with state := 1, left := 2 }))
    gateOn w.2 w.1 (outC src (mgrAck m sOk)) := by
  simp only [seqRetire, he]
  exact if_neg hst

theorem homeUnreachable_eq : homeUnreachable s src m =
    sendC (if src = m.a then promoteFor s src else (askC s m.a mProbe 0 0 0 0 .plain).2) src (mgrAck m sOk) := by
  unfold homeUnreachable
  split <;> rfl

theorem logReplicaReq_named {e : LedgerE} {new : Nat} (he : tget s.ce.ledger m.obj = some e) (hnew : nextReplica s e m.a = some new) :
    logReplicaReq s src m =
    let w := ledgerPut s (.seq m.obj (some { e with logs := e.logs.map fun d => if d = m.a then new else d }))
    gateOn w.2 w.1 (outC src ⟨mLogReplicaReply, sOk, m.req, m.obj, new, 0, 0⟩) := by
  simp only [logReplicaReq, he, hnew]

theorem homeLookup_listed {e : LedgerE} (he : tget s.ce.ledger m.obj = some e) :
    homeLookup s src m = sendC s src ⟨mHomeLookupReply, sOk, m.req, m.obj, e.home, 0, 0⟩ := by
  simp only [homeLookup, he]

end

/-- Settles O46: each request at the manager where it can be met, and the one answer of every other controller. -/
theorem managerRequestsComplete : Obligations.ManagerRequestsComplete := by
  unfold Obligations.ManagerRequestsComplete
  intro s t src b m hphase u hheard yes
  refine ⟨fun hmgr => ⟨fun gid home q v w hsub hctx hcand hroom hplace hseq => ?admission, fun e hsub he hst => ?retire, fun hsub => ?joined,
    fun hsub => ?leaving, fun hsub => ?unreachable, fun e new hsub he hnew => ?replica, fun e hsub he => ?lookup⟩, fun hmgr i hi => ?other⟩
  case admission =>
    show execAdmitReq t src b s = _
    exact manager_next hphase hheard hmgr hsub (admitReq_placed hctx hcand hroom hplace hseq)
  case retire =>
    show execSeqRetire t src b s = _
    exact manager_next hphase hheard hmgr hsub (seqRetire_live he hst)
  case joined =>
    show execJoined t src b s = _
    exact manager_next hphase hheard hmgr hsub rfl
  case leaving =>
    show execLeaving t src b s = _
    exact manager_next hphase hheard hmgr hsub rfl
  case unreachable =>
    show execHomeUnreachable t src b s = _
    exact manager_next (f := fun u m => homeUnreachable u src m) hphase hheard hmgr hsub homeUnreachable_eq
  case replica =>
    show execLogReplicaReq t src b s = _
    exact manager_next hphase hheard hmgr hsub (logReplicaReq_named he hnew)
  case lookup =>
    show execHomeLookup t src b s = _
    exact manager_next hphase hheard hmgr hsub (homeLookup_listed he)
  case other =>
    simp only [List.mem_cons, Prod.mk.injEq, List.not_mem_nil, or_false] at hi
    rcases hi with ⟨hsub, rfl⟩ | ⟨hsub, rfl⟩ | ⟨hsub, rfl⟩ | ⟨hsub, rfl⟩ | ⟨hsub, rfl⟩ | ⟨hsub, rfl⟩ | ⟨hsub, rfl⟩
    · exact other_next (f := fun u m => admitReq u src m) hphase hheard hmgr hsub
    · exact other_next (f := fun u m => seqRetire u src m) hphase hheard hmgr hsub
    · exact other_next (f := fun u m => joined u src m) hphase hheard hmgr hsub
    · exact other_next (f := fun u m => leaving u src m) hphase hheard hmgr hsub
    · exact other_next (f := fun u m => homeUnreachable u src m) hphase hheard hmgr hsub
    · exact other_next (f := fun u m => logReplicaReq u src m) hphase hheard hmgr hsub
    · exact other_next (f := fun u m => homeLookup u src m) hphase hheard hmgr hsub

end Sys2Proof.Machine
end

section
/-! Requests to homes and holders, and the replies to this controller's own requests (R15, R61, R63, R166–R170, R276, R285, R294, R295). -/
namespace Sys2Proof.Machine

/-! ### Requests to homes and holders -/

section
variable {s : State} {src : Nat} {m : CMsg}

theorem homeMirror_named {h : Home} {g : Group} {new : Nat} (hh : homeOf s m.obj = some h) (hg : tget s.ce.groups h.group = some g)
    (hnew : (membersAfter g (self s) (h.owner :: m.a :: h.reps)).head? = some new) : homeMirror s src m =
    sendC (replicate (setHome s m.obj { h with mirror := new }) m.obj) src ⟨mMirrorReply, sOk, m.req, m.obj, new, 0, 0⟩ := by
  simp only [homeMirror, hh, hg, hnew]

theorem prefetchReq_back (hkind : bits m.a 9 8 = 0) : prefetchReq s src m = holdBegin s 1 m.obj src m.req := by
  simp only [prefetchReq, hkind]

theorem prefetchReq_drop (hkind : bits m.a 9 8 = 3) : prefetchReq s src m =
    sendC (dropHoldings (freeSummary s m.obj) m.obj).2 src ⟨mPrefetchReport, sOk, m.req, m.obj, 0, 0, 0⟩ := by
  simp only [prefetchReq, hkind]

theorem refInc_counts : let hs := s.pg.index.filter fun h => h.seq == m.obj && !h.parity && decide (h.base < m.b)
    (∀ h ∈ hs, pageRefs s h.entry < 65535) → refInc s src m =
    sendC (modPg (hs.foldl (fun s h => incPage s h.entry) s) fun g =>
      { g with index := g.index ++ hs.map fun h => { h with seq := m.a, owner := src, stripe := 2 ^ 32 } }) src
      ⟨mRefAck, sOk, m.req, m.obj, hs.length, 0, 0⟩ := by
  intro hs hroom
  refine if_neg fun hfull => ?_
  obtain ⟨h, hh, hrefs⟩ := List.any_eq_true.1 hfull
  exact Nat.not_le.2 (hroom h hh) (of_decide_eq_true hrefs)

theorem refDrop_held {h : Holding} (hpage : pageTooHigh (word m.a) = false)
    (hh : s.pg.index.find? (fun h => h.seq == m.obj && h.entry.toNat == m.a) = some h) : refDrop s src m =
    sendC (dropPage (modPg s fun g => { g with index := delFirst (fun x => x.seq == h.seq && x.entry == h.entry) g.index }) h.entry) src
      ⟨mRefAck, sOk, m.req, m.obj, 1, 0, 0⟩ := by
  simp only [refDrop, hpage, hh]
  rfl

theorem homeReplace_slot {h : Home} {e : StripeE} (hh : homeOf s m.obj = some h) (he : tget h.stripes (bits m.a 31 0) = some e) :
    let j := bits m.a 35 32
    e.slots.getD j 0 = m.b → (m.b = 0 → e.health.contains j = false) → pageTooHigh (word m.c) = false →
    let w := setHome s m.obj { h with
      stripes := tput h.stripes (bits m.a 31 0) { e with slots := e.slots.set j m.c, health := addSorted j e.health }
      bt := if m.b = 0 then h.bt else h.bt.map fun kv => (kv.1, if kv.2 = m.b then m.c else kv.2) }
    homeReplace s src m = sendC (replicate w m.obj) src ⟨mStripeReply, sOk, m.req, m.obj, 0, 0, 0⟩ := by
  intro j hslot hhealth hpage w
  simp only [homeReplace, hh, he]
  refine if_neg ?_
  rintro (hother | ⟨hzero, hnamed⟩ | hhigh)
  · exact hother hslot
  · exact Bool.eq_false_iff.1 (hhealth hzero) hnamed
  · exact Bool.eq_false_iff.1 hpage hhigh

end

/-- Settles O47: each request where what it names is here. -/
theorem holderRequestsComplete : Obligations.HolderRequestsComplete := by
  unfold Obligations.HolderRequestsComplete
  intro s t src b m hphase u hheard ack
  refine ⟨fun hsub => ?promote, fun h g new hsub hh hg hnew => ?mirror, fun hsub => ?probe, fun hsub => ?probeAck, fun hsub hkind => ?spill,
    fun hsub hkind => ?summary, fun hsub hkind => ?back, fun hsub hkind => ?drop, fun hsub => ?refInc, fun hsub => ?refDec,
    fun h hsub hpage hh => ?refDrop, fun h e hsub hh he => ?replace⟩
  case promote =>
    show execPromote t src b s = _
    exact cellIn_next hphase hheard hsub rfl
  case mirror =>
    show execMirrorReq t src b s = _
    exact cellIn_next hphase hheard hsub (homeMirror_named hh hg hnew)
  case probe =>
    show execProbe t src b s = _
    exact cellIn_next hphase hheard hsub rfl
  case probeAck =>
    show execProbeAck t src b s = _
    exact cellIn_next hphase hheard hsub rfl
  case spill =>
    show execSpillReq t src b s = _
    exact cellIn_next hphase hheard hsub (if_neg (Bool.eq_false_iff.1 hkind))
  case summary =>
    show execSpillReq t src b s = _
    exact cellIn_next hphase hheard hsub (if_pos hkind)
  case back =>
    show execPrefetchReq t src b s = _
    exact cellIn_next hphase hheard hsub (prefetchReq_back hkind)
  case drop =>
    show execPrefetchReq t src b s = _
    exact cellIn_next hphase hheard hsub (prefetchReq_drop hkind)
  case refInc =>
    intro hs hroom
    show execRefInc t src b s = _
    exact cellIn_next hphase hheard hsub (refInc_counts hroom)
  case refDec =>
    show execRefDec t src b s = _
    exact cellIn_next hphase hheard hsub rfl
  case refDrop =>
    show execRefDrop t src b s = _
    exact cellIn_next hphase hheard hsub (refDrop_held hpage hh)
  case replace =>
    intro j hslot hhealth hpage w
    show execStripeReplace t src b s = _
    exact cellIn_next hphase hheard hsub (homeReplace_slot hh he hslot hhealth hpage)

/-! ### Replies -/

section
variable {s : State} {src : Nat} {m : CMsg} {r : Req} (hr : askedOf s src m r)
include hr

/-- A reply from the party asked, about what it was asked of, passes the guard of the replies. -/
theorem askedOf_guard : ¬(r.dst ≠ src ∨ r.obj ≠ m.obj ∧ m.sub ≠ mAdmitReply) := by
  obtain ⟨-, hdst, hobj⟩ := hr
  rintro (hother | ⟨hobj', hsub⟩)
  · exact hother hdst
  · exact hobj.elim hobj' hsub

/-- Replies that act on the request whatever their status. -/
theorem cellAnswer_admission {job : Nat} (huse : r.use = .admission job) (rs : List StripeRead) :
    cellAnswer s src m rs = admitReply (answered s m.req) job m := by
  simp only [cellAnswer, hr.1, huse]
  exact if_neg (askedOf_guard hr)

theorem cellAnswer_retire {q : Nat} (huse : r.use = .retire q) (rs : List StripeRead) :
    cellAnswer s src m rs = if m.status = sTargetDead then askLater (answered s m.req) m.req r else answered s m.req := by
  simp only [cellAnswer, hr.1, huse]
  exact if_neg (askedOf_guard hr)

theorem cellAnswer_logNew {q w : Nat} (huse : r.use = .logNew q w) (hst : m.status = sOk) (rs : List StripeRead) :
    cellAnswer s src m rs = logNamed (answered s m.req) q w m.a := by
  simp only [cellAnswer, hr.1, huse, hst, beq_self_eq_true, if_true]
  exact if_neg (askedOf_guard hr)

theorem cellAnswer_mirrorNew {q : Nat} (huse : r.use = .mirrorNew q) (hst : m.status = sOk) (rs : List StripeRead) :
    cellAnswer s src m rs = mirrorNamed (answered s m.req) q m.a := by
  simp only [cellAnswer, hr.1, huse, hst, beq_self_eq_true, if_true]
  exact if_neg (askedOf_guard hr)

theorem cellAnswer_lookup {q : Nat} (huse : r.use = .lookup q) (hst : m.status = sOk) (rs : List StripeRead) :
    cellAnswer s src m rs =
      (waiters (answered s m.req) m.req).foldl (fun s id => askHome s id ⟨false, q⟩ m.a) (answered s m.req) := by
  simp only [cellAnswer, hr.1, huse, hst, beq_self_eq_true, if_true]
  exact if_neg (askedOf_guard hr)

theorem cellAnswer_spill {q : Nat} (huse : r.use = .spill q) (rs : List StripeRead) :
    cellAnswer s src m rs = reportIn (answered s m.req) q m.req (bits m.a 31 0) (bits m.a 63 32) true := by
  simp only [cellAnswer, hr.1, huse]
  exact if_neg (askedOf_guard hr)

theorem cellAnswer_refInc {job : Nat} (huse : r.use = .refInc job) (hst : m.status = sOk) (rs : List StripeRead) :
    cellAnswer s src m rs = refCounted (answered s m.req) job src := by
  simp only [cellAnswer, hr.1, huse, hst, beq_self_eq_true, if_true]
  exact if_neg (askedOf_guard hr)

/-- The report of a prefetch, of a sequence without pages in summary. -/
theorem cellAnswer_prefetch {q : Nat} (huse : r.use = .prefetch q) (rs : List StripeRead) :
    let v := reportIn (answered s m.req) q m.req 0 (bits m.a 31 0) (m.status == sOk)
    (∀ x, seqOf v q = some x → x.summarised = 0) → cellAnswer s src m rs = v := by
  intro v hnone
  simp only [cellAnswer, hr.1, huse]
  refine (if_neg (askedOf_guard hr)).trans ?_
  show (match tget v.pg.reports q, seqOf v q with
    | some p, some x => if p.waiting.isEmpty ∧ p.usable ∧ x.summarised ≠ 0 then rs.foldl (fun s e => stripeRestore s q e) v else v
    | _, _ => v) = v
  cases tget v.pg.reports q with
  | none => rfl
  | some p =>
    cases hx : seqOf v q with
    | none => rfl
    | some x => exact if_neg fun h => h.2.2 (hnone x hx)

theorem stripeReply_placed {x : Rebuild} {h : Holding} {rest : List Rebuild} (huse : r.use = .replace) (hobj : r.obj = m.obj)
    (hx : s.ce.rebuilds = x :: rest) (hpend : x.pend = some h) (hst : m.status = sOk) : stripeReply s src m =
    rebuildNext (modPg (answered s m.req) fun g => { g with index := g.index ++ [h] }) := by
  obtain ⟨seq, n, j, lost, new, cell, pend, step⟩ := x
  subst hpend
  have hrebuilds : (answered s m.req).ce.rebuilds = _ := hx
  unfold answered at hrebuilds ⊢
  simp only [stripeReply, hr.1, hrebuilds, hst, if_true]
  exact if_pos ⟨huse, hr.2.1, hobj⟩

end

/-- Settles O48: each reply from the party asked, by the use of the request it answers. -/
theorem cellRepliesComplete : Obligations.CellRepliesComplete := by
  unfold Obligations.CellRepliesComplete
  intro s t src b m r hphase u w hheard hr
  refine ⟨fun job hsub huse => ?admission, fun q hsub huse hst => ?retired, fun q hsub huse hst => ?retireLater,
    fun q which hsub huse hst => ?logNew, fun q hsub huse hst => ?mirrorNew, fun q hsub huse hst => ?lookup, fun q hsub huse => ?spill,
    fun q rs hsub huse => ?prefetch, fun job hsub huse hst => ?refInc, fun x h rest hsub huse hobj hx hpend hst => ?stripe⟩
  case admission =>
    show execAdmitReply t src b s = _
    exact cellIn_next hphase hheard hsub (cellAnswer_admission hr huse [])
  case retired =>
    show execMgrAck t src b s = _
    refine cellIn_next hphase hheard hsub ((cellAnswer_retire hr huse []).trans (if_neg ?_))
    rw [hst]
    decide
  case retireLater =>
    show execMgrAck t src b s = _
    exact cellIn_next hphase hheard hsub ((cellAnswer_retire hr huse []).trans (if_pos hst))
  case logNew =>
    show execLogReplicaReply t src b s = _
    exact cellIn_next hphase hheard hsub (cellAnswer_logNew hr huse hst [])
  case mirrorNew =>
    show execMirrorReply t src b s = _
    exact cellIn_next hphase hheard hsub (cellAnswer_mirrorNew hr huse hst [])
  case lookup =>
    show execHomeLookupReply t src b s = _
    exact cellIn_next hphase hheard hsub (cellAnswer_lookup hr huse hst [])
  case spill =>
    show execSpillReport t src b s = _
    exact cellIn_next hphase hheard hsub (cellAnswer_spill hr huse [])
  case prefetch =>
    intro v hnone
    show execPrefetchReport t src b rs s = _
    exact cellIn_next hphase hheard hsub (cellAnswer_prefetch hr huse rs hnone)
  case refInc =>
    show execRefAck t src b s = _
    exact cellIn_next hphase hheard hsub (cellAnswer_refInc hr huse hst [])
  case stripe =>
    show execStripeReply t src b s = _
    exact cellIn_next hphase hheard hsub (stripeReply_placed hr huse hobj hx hpend hst)

end Sys2Proof.Machine
end

section
/-! Timers of a cell (R272–R274, R276, R280, R281, R285, R478), once their time has come. -/
namespace Sys2Proof.Machine

section
variable {s : State}

/-! ### Offers, leases and Hinges -/

theorem offerTimeout_due {o : Obj} {v : Lv} (hv : lvOf s o = some v) (hst : v.st = 1)
    (hasked : o.region = false → ∀ h, homeOf s o.id = some h → h.asked = 0) (hdue : offerEnd s v ≤ s.now) :
    offerTimeout s o = endOffer s o v := by
  have hzero : (if o.region then 0 else ((homeOf s o.id).map (·.asked)).getD 0) = 0 := by
    split
    · rfl
    · next hregion =>
      cases hh : homeOf s o.id with
      | none => rfl
      | some h => exact hasked (Bool.eq_false_iff.2 hregion) h hh
  simp only [offerTimeout, hv, hzero]
  exact (if_neg (not_not.2 hst)).trans ((if_neg (not_not.2 rfl)).trans (if_neg (Nat.not_lt.2 hdue)))

theorem leaseExpire_due {owner : Nat} {l : Lease} (hl : tget s.ce.leases owner = some l) (hlive : l.expired = false)
    (hdue : l.last + leaseNs s ≤ s.now) : leaseExpire s owner =
    let w := bump (modCe s fun c => { c with leases := tput c.leases owner { l with expired := true } }) rLtFenceCnt 0 47 32 1
    let x := (homedObjs w fun v => v.owner == owner && v.st == 1 && !v.assigning).foldl (fun s o =>
      match lvOf s o with | some v => putLv s o { v with expired := true } | none => s) w
    (homedObjs x fun v => v.owner == owner && v.st == 0).foldl (fun s o =>
      match lvOf s o with
      | some v => if mayAdvance s o v then goOrphan s o v true else putLv s o { v with expired := o.region }
      | none => s) x := by
  simp only [leaseExpire, hl]
  exact if_neg (not_or.2 ⟨Bool.eq_false_iff.1 hlive, Nat.not_lt.2 hdue⟩)

theorem ownerExpiry_due {home a : Nat} {l : OwnLease} (hl : tget s.ce.own home = some l) (ha : l.acked = some a)
    (hlive : l.lapsed = false) (hdue : a + leaseNs s ≤ s.now) : ownerExpiry s home =
    let w := modCe s fun c => { c with own := tput c.own home { l with lapsed := true } }
    let x := (w.pg.seqs.filter fun kv => kv.2.home == home).foldl (fun s kv =>
      askL s home (lmsg mLatchQuery ⟨false, kv.1⟩ kv.2.epoch) (.query ⟨false, kv.1⟩)) w
    (x.ce.regs.filter fun kv => kv.1 / 2 ^ 44 == home).foldl (fun s kv =>
      askL s home (lmsg mLatchQuery ⟨true, kv.1⟩ kv.2.epoch) (.query ⟨true, kv.1⟩)) x := by
  simp only [ownerExpiry, hl, ha]
  exact if_neg (not_or.2 ⟨Bool.eq_false_iff.1 hlive, Nat.not_lt.2 hdue⟩)

section
variable {o : Obj} {h : Hinge} (hh : hingeOf s o = some h) (hdue : h.queryAt ≤ s.now)
include hh hdue

/-- The page tables read again, of a Hinge that gained its sequence. -/
theorem hingeTimer_tables (x : TableRead) (hphase : h.phase = 3) : hingeTimer s o (some x) = gainedRun s h x := by
  simp only [hingeTimer, hh]
  refine (if_neg (not_or.2 ⟨?_, Nat.not_lt.2 hdue⟩)).trans (if_pos hphase)
  rw [hphase]
  decide

/-- The first query of a Hinge that waits for its home. -/
theorem hingeTimer_asks (x : Option TableRead) (hphase : h.phase = 1 ∨ h.phase = 2) (hasked : h.askedAt = none) : hingeTimer s o x =
    sendL (setHinge s { h with askedAt := some s.now, queryAt := s.now + leaseNs s }) h.home (lmsg mLatchQuery o h.epoch) := by
  have hne (k : Nat) (h1 : 1 ≠ k) (h2 : 2 ≠ k) : h.phase ≠ k := fun hk =>
    hphase.elim (fun h' => h1 (h'.symm.trans hk)) fun h' => h2 (h'.symm.trans hk)
  simp only [hingeTimer, hh, hasked]
  exact (if_neg (not_or.2 ⟨hne 0 (by decide) (by decide), Nat.not_lt.2 hdue⟩)).trans
    ((if_neg (hne 3 (by decide) (by decide))).trans (if_neg (hne 5 (by decide) (by decide))))

end

theorem noticeResend_due {q : Nat} {h : Home} (hh : homeOf s q = some h) (hsome : h.notices ≠ []) (hdue : h.noticeAt + 20000 ≤ s.now) :
    noticeResend s q = if h.noticeFrom + leaseNs s ≤ s.now then setHome s q { h with notices := [] }
      else sendNotices (setHome s q { h with noticeAt := s.now }) q h.epoch h.notices := by
  simp only [noticeResend, hh]
  exact if_neg (not_or.2 ⟨fun hempty => hsome (List.isEmpty_iff.1 hempty), Nat.not_lt.2 hdue⟩)

/-! ### Requests, members and homes that do not answer -/

theorem requestTimeout_due {n : Nat} {r : Req} (hr : tget s.ce.reqs n = some r) (huse : reportUse r.use = false) (hfw : r.fw ≠ 2 ^ 40)
    (hdue : r.sentAt + leaseNs s ≤ s.now) : requestTimeout s n = unanswered s n := by
  simp only [requestTimeout, hr]
  exact if_neg (not_or.2 ⟨Bool.eq_false_iff.1 huse, not_or.2 ⟨hfw, Nat.not_lt.2 hdue⟩⟩)

theorem probeTimer_due (hmgr : isMgr s = true) (hdue : s.ce.probeAt + renewNs s ≤ s.now) : probeTimer s =
    let w := modCe s fun c => { c with
      probeAt := s.now, members := (probed s).foldl (fun t d => if thas t d then t else tput t d ⟨2, s.now, false⟩) c.members }
    (probed w).foldl (fun s d => (askC s d mProbe 0 0 0 0 .plain).2) w :=
  if_neg (not_or.2 ⟨fun hother => Bool.eq_false_iff.1 hother hmgr, Nat.not_lt.2 hdue⟩)

theorem memberSilent_due {ep : Nat} {x : Member} (hx : tget s.ce.members ep = some x) (hmgr : isMgr s = true) (hother : ep ≠ self s)
    (hheard : x.silent = false) (hdue : x.lastAck + homeDeadNs s ≤ s.now) : memberSilent s ep =
    memberGone (modCe s fun c => { c with members := tput c.members ep { x with silent := true } }) ep := by
  simp only [memberSilent, hx]
  exact if_neg (not_or.2 ⟨fun hno => Bool.eq_false_iff.1 hno hmgr,
    not_or.2 ⟨hother, not_or.2 ⟨Bool.eq_false_iff.1 hheard, Nat.not_lt.2 hdue⟩⟩⟩)

theorem homeOutage_due {home a : Nat} (ha : tget s.ce.unreach home = some a) (hdue : a + homeDeadNs s + 100000000 ≤ s.now) :
    homeOutage s home = (((s.ce.held.map (·.1)).eraseDups).filter fun q => match seqOf s q with
      | some x => x.home == home | none => false).foldl (fun s q => recoveryPause s q) s := by
  simp only [homeOutage, ha]
  exact if_neg (Nat.not_lt.2 hdue)

theorem regionRenewTimeout_due {a : Nat} {r : RegionR} {v : Lv} (hr : tget s.fab.regions a = some r) (hnew : r.renewed = false)
    (hlatch : r.latch = 0) (hdue : r.createdAt + leaseNs s ≤ s.now) (hv : lvOf s ⟨true, self s * 2 ^ 44 + a⟩ = some v)
    (hmay : mayAdvance s ⟨true, self s * 2 ^ 44 + a⟩ v = true) :
    regionRenewTimeout s a = goOrphan s ⟨true, self s * 2 ^ 44 + a⟩ v true := by
  simp only [regionRenewTimeout, hr, hv, hmay, if_true]
  exact if_neg (not_or.2 ⟨Bool.eq_false_iff.1 hnew, not_or.2 ⟨not_not.2 hlatch, Nat.not_lt.2 hdue⟩⟩)

end

/-- Settles O49: each timer past its time. -/
theorem cellTimersComplete : Obligations.CellTimersComplete := by
  unfold Obligations.CellTimersComplete
  intro s t hphase u
  refine ⟨fun o v hv hst hasked hdue => ?offer, fun owner l hl hlive hdue => ?lease, fun home a l hl ha hlive hdue => ?own, fun hdue => ?renew,
    fun o h x hh hph hdue => ?tables, fun o h x hh hph hdue hasked => ?asks, fun q h hh hsome hdue hlive => ?notice,
    fun q h hh hsome hdue hpast => ?noticeEnd, fun n r hr huse hfw hdue => ?request, fun hmgr hdue => ?probe,
    fun ep x hx hmgr hother hheard hdue => ?member, fun home a ha hdue => ?outage, fun a r v hr hnew hlatch hdue => ?region⟩
  case offer =>
    show execOfferTimeout t o s = _
    exact running_next hphase (offerTimeout_due hv hst hasked hdue)
  case lease =>
    show execHomeLeaseExpiry t owner s = _
    exact running_next hphase (leaseExpire_due hl hlive hdue)
  case own =>
    show execOwnerLeaseExpiry t home s = _
    exact running_next hphase (ownerExpiry_due hl ha hlive hdue)
  case renew =>
    show execLeaseRenewTimer t s = _
    exact running_next hphase (if_neg (Nat.not_lt.2 hdue))
  case tables =>
    show execHingeQueryTimer t o (some x) s = _
    exact running_next hphase (hingeTimer_tables hh hdue x hph)
  case asks =>
    show execHingeQueryTimer t o x s = _
    exact running_next hphase (hingeTimer_asks hh hdue x hph hasked)
  case notice =>
    show execEpochNoticeResend t q s = _
    exact running_next hphase ((noticeResend_due hh hsome hdue).trans (if_neg (Nat.not_le.2 hlive)))
  case noticeEnd =>
    show execEpochNoticeResend t q s = _
    exact running_next hphase ((noticeResend_due hh hsome hdue).trans (if_pos hpast))
  case request =>
    show execRequestUnanswered t n s = _
    exact running_next hphase (requestTimeout_due hr huse hfw hdue)
  case probe =>
    show execProbeTimer t s = _
    exact running_next hphase (probeTimer_due hmgr hdue)
  case member =>
    show execMemberSilent t ep s = _
    exact running_next hphase (memberSilent_due hx hmgr hother hheard hdue)
  case outage =>
    show execHomeOutageTimeout t home s = _
    exact running_next hphase (homeOutage_due ha hdue)
  case region =>
    intro o hv hmay
    show execRegionRenewTimeout t a s = _
    exact running_next hphase (regionRenewTimeout_due hr hnew hlatch hdue hv hmay)

end Sys2Proof.Machine
end

section
/-! Steps (R104, R110, R162, R163, R317, R321, R322, R344, R348): dispatch, stages, boundaries, deadlines and late reads. -/
namespace Sys2Proof.Machine

section
variable {s : State} {id : Nat} {x : Step} {p : Plan} (hx : stepOf s id = some x) (hp : tget s.st.plans x.plan = some p)
include hx hp

theorem stepDispatch_may (arg : StageArg) (hmay : mayDispatch s x = true) :
    stepDispatch s id arg = stageBegin (stepStart s id x p) id arg := by
  simp only [stepDispatch, hx, hp]
  exact if_pos hmay

section
variable {g : Stage} (hg : p.stages[x.stage]? = some g) (hrun : x.running = true)
include hg hrun

omit hx hrun in
/-- The plan and stage that a step is at. -/
theorem stageAt : ((tget s.st.plans x.plan).bind fun p => (p.stages[x.stage]?).map fun g => (p, g)) = some (p, g) := by
  rw [hp, Option.bind_some, hg, Option.map_some]

/-- The end of an idle stage, by what its kind leaves to do. -/
theorem stageBoundary_idle (arg : StageArg) (hidle : stageIdle s id x g = true) : stageBoundary s id arg =
    let w := stopDeferred s id
    let y := match g.kind with
      | 2 => attnEnd w id x.stage g.teFirst (attnOf g.body)
      | 4 => (((stepOf w id).map runSlots).getD []).foldl (fun s y => chooseSlot s id y.1 x p y.2) w
      | _ => w
    stageNext (riskJudge y id x p g) id p arg := by
  simp only [stageBoundary, hx, stageAt hp hg]
  refine (if_neg ?_).trans rfl
  rw [hrun, hidle]
  decide

theorem stageBoundary_plain (arg : StageArg) (hidle : stageIdle s id x g = true) (h2 : g.kind ≠ 2) (h4 : g.kind ≠ 4) :
    stageBoundary s id arg = stageNext (riskJudge (stopDeferred s id) id x p g) id p arg := by
  rw [stageBoundary_idle hx hp hg hrun arg hidle]
  simp only

theorem stageBoundary_attn (arg : StageArg) (hidle : stageIdle s id x g = true) (h2 : g.kind = 2) : stageBoundary s id arg =
    stageNext (riskJudge (attnEnd (stopDeferred s id) id x.stage g.teFirst (attnOf g.body)) id x p g) id p arg := by
  rw [stageBoundary_idle hx hp hg hrun arg hidle]
  simp only [h2]

theorem stageBoundary_choice (arg : StageArg) (hidle : stageIdle s id x g = true) (h4 : g.kind = 4) : stageBoundary s id arg =
    let w := stopDeferred s id
    let y := (((stepOf w id).map runSlots).getD []).foldl (fun s y => chooseSlot s id y.1 x p y.2) w
    stageNext (riskJudge y id x p g) id p arg := by
  rw [stageBoundary_idle hx hp hg hrun arg hidle]
  simp only [h4]

theorem waitRelease_reached (arg : StageArg) (h7 : g.kind = 7)
    (hreached : g.waitDelta ≤ sub32 (rf s rXeArmCtr (x.ctx * 16 + g.waitCtr) 31 0) (x.ctrs.getD g.waitCtr 0)) :
    waitRelease s id arg = stageNext (riskJudge (stopDeferred s id) id x p g) id p arg := by
  simp only [waitRelease, hx, stageAt hp hg]
  exact if_neg (not_or.2 ⟨fun hno => Bool.eq_false_iff.1 hno hrun, not_or.2 ⟨not_not.2 h7, Nat.not_lt.2 hreached⟩⟩)

end

theorem stepBoundary_ready (hready : stepReady s id x p = true) : stepBoundary s id = stepEnd s id x := by
  simp only [stepBoundary, hx, hp]
  refine if_neg ?_
  rw [hready]
  decide

theorem budgetExpiry_due (hrun : x.running = true) (hfirst : x.overrun = false) (hdue : x.startAt + p.wcet ≤ s.now) :
    budgetExpiry s id = raiseCtx
      (bump (modStep s id fun y => { y with overrun := true }) rMtStepCnt x.ctx 47 32 1) x.ctx evStepOverrun 0 x.plan (s.now - x.startAt) := by
  simp only [budgetExpiry, hx, hp]
  exact if_neg (not_or.2 ⟨fun hno => Bool.eq_false_iff.1 hno hrun, not_or.2 ⟨Bool.eq_false_iff.1 hfirst, Nat.not_lt.2 hdue⟩⟩)

theorem tierDeadline_due {i : Nat} {r : SlotRun} (hr : slotAt s id i = some r) (hspilled : slotSpilled s id i ≠ 0)
    (hpolicy : rf s rMcTierPolicy x.ctx 1 0 ≠ 1)
    (hdue : x.startAt + (if p.tierDeadline = 0 then p.wcet * rf s rMcTierCtrl 0 7 1 / 100 else p.tierDeadline) ≤ s.now) :
    tierDeadline s id i none = recoveryPause (tierFail s id i 1) r.seq := by
  simp only [tierDeadline, hx, hr, hp]
  exact if_neg (not_or.2 ⟨hspilled, not_or.2 ⟨Nat.not_lt.2 hdue, hpolicy⟩⟩)

end

/-- A count of late reads leaves the policy of the context as it was. -/
theorem tierPolicy_count (s : State) (c hi lo n : Nat) : rf (bump s rMcTierCnt c hi lo n) rMcTierPolicy c 1 0 = rf s rMcTierPolicy c 1 0 := by
  refine rf_wf_ne s rMcTierCnt rMcTierPolicy c c hi lo _ 1 0 ?_
  show 0x741000 + c * 8 ≠ 0x741800 + c * 8
  omega

/-- A late read of a step that the policy of its context does not end. -/
theorem tierReadLate_step {s : State} {id i n : Nat} {x : Step} {r : SlotRun} {err solved : Bool} (hx : stepOf s id = some x)
    (hr : slotAt s id i = some r) (hsome : Nat.min n (slotSpilled s id i) ≠ 0)
    (hdue : err = false → r.readAt + rf s rMcTierCtrl 0 17 8 * 1000 ≤ s.now) (hgo : solved = true ∨ rf s rMcTierPolicy x.ctx 1 0 ≠ 1) :
    let k := Nat.min n (slotSpilled s id i)
    let w := if err then bump s rMcTierCnt x.ctx 63 32 k else bump s rMcTierCnt x.ctx 31 0 k
    tierReadLate s id i none n err solved = modSlot w id i fun r => { r with readAt := s.now } := by
  intro k w
  have hlate : ¬(k = 0 ∨ (err = false ∧ readsLate s r.readAt = false)) :=
    not_or.2 ⟨hsome, fun h => of_decide_eq_false h.2 (hdue h.1)⟩
  have hpolicy : rf w rMcTierPolicy x.ctx 1 0 = rf s rMcTierPolicy x.ctx 1 0 := by
    show rf (if err then _ else _) rMcTierPolicy x.ctx 1 0 = _
    split <;> exact tierPolicy_count s x.ctx _ _ k
  have hgo' : solved = true ∨ rf (modSlot w id i fun r => { r with readAt := s.now }) rMcTierPolicy x.ctx 1 0 ≠ 1 :=
    hgo.imp_right fun h => by rwa [← hpolicy] at h
  simp only [tierReadLate, hx, hr]
  exact (if_neg hlate).trans (if_pos hgo')

theorem tierDeadline_job {s : State} {k i id : Nat} {j : PaneJob} (hj : s.st.jobs.find? (fun j => j.id == k) = some j)
    (hdue : (paneReqOf j.req).deadline ≤ s.now) (hspilled : (j.pages.any fun h => (localSlot s h.entry).isSome) = true) :
    tierDeadline s id i (some k) = jobDrop s j := by
  simp only [tierDeadline, hj]
  exact if_pos ⟨hdue, hspilled⟩

theorem paneDeadline_due {s : State} {n : Nat} {p : Pane} (hp : tget s.st.panes n = some p) (hst : p.st = 0) (hdue : p.deadline ≤ s.now) :
    paneDeadline s n = paneMissing s n := by
  simp only [paneDeadline, hp]
  exact if_pos ⟨hst, hdue⟩

/-! ### Units -/

/-- A tile engine or matrix unit that runs a quantum of work without an error. -/
theorem unitDispatch_work {s v : State} {cls n c : Nat} {w : Work} {q : Quantum} (hcls : cls = 0 ∨ cls = 2) (hserves : unitServes s cls n = true)
    (hstop : cls = 0 → s.gl.power.stopTiles = false) (hctx : pickCtx s cls (dieOf cls n) q.copies = some c)
    (hwork : pickWork s cls (dieOf cls n) c q.copies = some w)
    (hwake : wakeUnit s cls n (if cls = 0 then n % 32 / 8 * 500 else 0) = (true, v)) (hparity : q.parity = 0) (hfault : q.fault = none) :
    let used := Nat.min w.ns (if cls = 0 then engineNs v 3200 else rf v rMtSched 0 19 10 * 1000)
    let ns := used + switchNs v cls n c
    let y := if cls = 0 then teSwitch v n c else v
    let x := q.ecc.foldl eccHit (unitRuns (chargeUnit y cls n c ns) cls n ns (workOp v w))
    unitDispatch s cls n q =
      if w.ns > used then modMt x fun m => { m with work := m.work.map fun y => if y == w then { y with ns := y.ns - used } else y }
      else workDone (modMt x fun m => { m with work := delFirst (· == w) x.mt.work }) n w q.copies := by
  have hguard : ¬(cls > 3 ∨ unitServes s cls n = false ∨ (cls = 0 ∧ s.gl.power.stopTiles = true)) := by
    rw [hserves]
    rintro (hbig | hno | ⟨hzero, hstopped⟩)
    · omega
    · exact absurd hno (by decide)
    · exact Bool.eq_false_iff.1 (hstop hzero) hstopped
  have hkind : ¬(cls = 1 ∨ cls = 3) := by omega
  simp only [unitDispatch]
  rw [if_neg hguard, if_neg hkind, hctx, Option.bind_some, hwork, Option.map_some]
  simp only [hwake, hparity, hfault, if_true, ge_iff_le, Nat.le_zero_eq, OfNat.ofNat_ne_zero, if_false, ite_self]

/-- A unit of the other two classes, that the simulation gives its work. -/
theorem unitDispatch_other {s v : State} {cls n : Nat} {q : Quantum} (hcls : cls = 1 ∨ cls = 3) (hserves : unitServes s cls n = true)
    (hctx : ctxState s q.ctx = 1) (hwake : wakeUnit s cls n 0 = (true, v)) (hparity : q.parity = 0) (hfault : q.fault = none) :
    let ns := q.ns + switchNs v cls n q.ctx
    unitDispatch s cls n q = q.ecc.foldl eccHit
      (unitRuns (chargeUnit v cls n q.ctx ns) cls n ns (if cls = 3 then q.op % 6 else 0)) := by
  have hguard : ¬(cls > 3 ∨ unitServes s cls n = false ∨ (cls = 0 ∧ s.gl.power.stopTiles = true)) := by
    rw [hserves]
    rintro (hbig | hno | ⟨hzero, -⟩)
    · omega
    · exact absurd hno (by decide)
    · omega
  simp only [unitDispatch]
  rw [if_neg hguard, if_pos hcls, if_neg (not_not.2 hctx)]
  simp only [hwake, hparity, hfault, if_true, ge_iff_le, Nat.le_zero_eq, OfNat.ofNat_ne_zero, if_false]

/-- Settles O50: each row where its condition holds. -/
theorem stepRowsComplete : Obligations.StepRowsComplete := by
  unfold Obligations.StepRowsComplete
  intro s t id hphase u
  refine ⟨fun x p hx hp => ⟨fun arg hmay => ?dispatch, fun g arg hg hrun hidle h2 h4 => ?plain, fun g arg hg hrun hidle h2 => ?attn,
      fun g arg hg hrun hidle h4 => ?choice, fun g arg hg hrun h7 hreached => ?wait, fun hready => ?boundary, fun hrun hfirst hdue => ?budget,
      fun i n r err solved => ?late, fun i r hr hspilled hpolicy hdue => ?deadline⟩,
    fun n p hp hst hdue => ?pane, fun k i j hj hdue hspilled => ?job,
    fun cls n c w q v hcls hserves hstop hctx hwork hwake hparity hfault => ?work,
    fun cls n q v hcls hserves hctx hwake hparity hfault => ?other⟩
  case dispatch =>
    show execStepDispatch t id arg s = _
    exact running_next hphase (stepDispatch_may hx hp arg hmay)
  case plain =>
    show execStageBoundary t id arg s = _
    exact running_next hphase (stageBoundary_plain hx hp hg hrun arg hidle h2 h4)
  case attn =>
    show execStageBoundary t id arg s = _
    exact running_next hphase (stageBoundary_attn hx hp hg hrun arg hidle h2)
  case choice =>
    show execStageBoundary t id arg s = _
    exact running_next hphase (stageBoundary_choice hx hp hg hrun arg hidle h4)
  case wait =>
    show execWaitStageRelease t id arg s = _
    exact running_next hphase (waitRelease_reached hx hp hg hrun arg h7 hreached)
  case boundary =>
    show execStepBoundary t id s = _
    exact running_next hphase (stepBoundary_ready hx hp hready)
  case budget =>
    show execStepBudgetExpiry t id s = _
    exact running_next hphase (budgetExpiry_due hx hp hrun hfirst hdue)
  case late =>
    intro k w hr hsome hdue hgo
    show execTierReadLate t id i none n ⟨err, solved⟩ s = _
    exact running_next hphase (tierReadLate_step hx hr hsome hdue hgo)
  case deadline =>
    show execTierDeadline t id i none s = _
    exact running_next hphase (tierDeadline_due hx hp hr hspilled hpolicy hdue)
  case pane =>
    show execPaneDeadline t n s = _
    exact running_next hphase (paneDeadline_due hp hst hdue)
  case job =>
    show execTierDeadline t id i (some k) s = _
    exact running_next hphase (tierDeadline_job hj hdue hspilled)
  case work =>
    show execUnitDispatch t cls n q s = _
    exact running_next hphase (unitDispatch_work hcls hserves hstop hctx hwork hwake hparity hfault)
  case other =>
    show execUnitDispatch t cls n q s = _
    exact running_next hphase (unitDispatch_other hcls hserves hctx hwake hparity hfault)

end Sys2Proof.Machine
end

section
/-! Upkeep of pages, sequences, images, adapters and records (R44, R50, R57, R58, R137, R140, R158, R159, R167, R170, R294, R297, R358). -/
namespace Sys2Proof.Machine

section
variable {s : State}

/-! ### Pages and sequences -/

theorem reclamationTick_due (hdue : s.pg.lastTick + rf s rPgReclaim 0 16 0 * 1000 ≤ s.now)
    (hidle : (s.st.steps.any fun kv => kv.2.running) = false) : reclamationTick s =
    ledgerTick (reclaim (modSt (modPg s fun p => { p with lastTick := s.now }) fun t => { t with counted := [] })) := by
  simp only [reclamationTick]
  refine (if_neg ?_).trans (if_neg ?_)
  · rw [decide_eq_true hdue]
    decide
  · exact Bool.eq_false_iff.1 hidle

theorem backgroundSpill_low (hon : rbit s rPgCtrl 0 1 = true) (hlow : freeFrames s < lowMark s) :
    backgroundSpill s = (spillOne (modPg s fun p => { p with bgSpill := true })).2 := by
  simp only [backgroundSpill, hon, decide_eq_true hlow, Bool.true_or, Bool.and_true, if_true]

theorem spaceResume_one {kv : Nat × Seq} {v : State}
    (hqueue : sortBy refillLe (s.pg.seqs.filter fun kv => kv.2.st == .paused && kv.2.pauseCause == 1) = [kv])
    (hfill : fillReserve s kv.1 = some v) : spaceResume s =
    let w := finishAll (changeSeq v kv.1 fun y => { y with st := .runnable }) (.resume kv.1) sOk 0 0 0
    raiseSeq w kv.2.ctx evResumeReady 0 kv.1 (leftHere w kv.1 % 2 ^ 32) := by
  simp only [spaceResume, hqueue, List.foldl_cons, List.foldl_nil, Bool.true_eq_false, if_false, hfill]

/-- Enough pages without a stripe, of a sequence that lives. -/
theorem tailMigrate_starts {q layer : Nat} {x : Seq} (hx : seqOf s q = some x) (hon : rbit s rPgCtrl 0 0 = true) (hrole : role s ≠ 0)
    (hk : groupK s x ≠ 0) (hst : x.st = .runnable ∨ x.st = .starved ∨ x.st = .paused) (hsum : x.summarised = 0)
    (htail : groups x.geo * rf s rPgTailCtrl 0 8 0 + groupK s x ≤ (sortBy tailLe (x.unstriped.filter fun v => v.1 == layer)).length) :
    tailMigrate s q layer = stripeStart s q ((sortBy tailLe (x.unstriped.filter fun v => v.1 == layer)).take (groupK s x)) := by
  simp only [tailMigrate, hx]
  refine if_neg ?_
  rintro (hoff | hzero | hnone | hout | hsummary | hshort)
  · exact Bool.eq_false_iff.1 hoff hon
  · exact hrole hzero
  · exact hk hnone
  · rcases hst with h | h | h <;> rw [h] at hout <;> exact absurd hout (by decide)
  · exact hsummary hsum
  · exact Nat.not_lt.2 htail hshort

theorem pauseExpiry_due {q : Nat} {x : Seq} (hx : seqOf s q = some x) (hst : x.st = .paused) (hset : x.expiry ≠ 0) (hdue : x.expiry ≤ s.now)
    (hopen : ∀ o ∈ s.host.opens, o.wait ≠ .resume q) : pauseExpiry s q =
    let w := releasePages (migrateEnd (bump (finishSeq s q .ended sExpired) rMcPauseCnt 0 31 16 1) q sExpired) q
    (askX w ((seqOf w q).getD x).home 2 q (fun i => .retire i q) .plain).2 := by
  simp only [pauseExpiry, hx]
  refine if_neg ?_
  rintro (hother | hnone | hearly | hresume)
  · exact hother hst
  · exact hset hnone
  · exact Nat.not_lt.2 hdue hearly
  · obtain ⟨o, ho, hwait⟩ := List.any_eq_true.1 hresume
    exact hopen o ho (beq_iff_eq.1 hwait)

theorem spillWriteDone_leased {n : Nat} {x : Spill} (ok : Bool) (hx : s.pg.spills.find? (·.slot == n) = some x) (hleased : x.leased = true) :
    spillWriteDone s n ok = if ok then spillDone s x else spillFail s x := by
  simp only [spillWriteDone, hx]
  refine if_neg ?_
  rw [hleased]
  decide

theorem reportTimeout_due {q : Nat} {r : Reports} (hr : tget s.pg.reports q = some r)
    (hdue : r.sent + rf s rMcTierCtrl 0 33 18 * 1000000 ≤ s.now) : reportTimeout s q =
    modCe (r.waiting.foldl (fun s i => match tget s.ce.reqs i with
      | some x => reportMiss s q i x.dst
      | none => reportIn s q i 0 0 true) s) fun c => { c with reqs := c.reqs.filter fun kv => !r.waiting.contains kv.1 } := by
  simp only [reportTimeout, hr]
  exact if_neg (Nat.not_lt.2 hdue)

/-! ### Rebuilds, images and adapters -/

section
variable {r : Rebuild} {rest : List Rebuild} (hr : s.ce.rebuilds = r :: rest) (hop : r.op ≠ 0) (hpend : r.pend = none)
include hr hop hpend

theorem rebuildStep_writes {q home : Nat} (x : RebuildRead) (hseq : r.seqs[r.done]? = some (q, home)) :
    rebuildStep s (some x) = rebuildWrite s r q home x := by
  simp only [rebuildStep, hr, hseq, hpend]
  exact if_neg (not_or.2 ⟨hop, by decide⟩)

theorem rebuildStep_ends (x : Option RebuildRead) (hseq : r.seqs[r.done]? = none) : rebuildStep s x = rebuildFinish s r := by
  simp only [rebuildStep, hr, hseq, hpend]
  exact if_neg (not_or.2 ⟨hop, by decide⟩)

end

/-- An image whose bytes and tiles pass their checks. -/
theorem imgCopyDone_good {i op : Nat} {im : Image} {body : List Byte} (him : tget s.st.images i = some im)
    (hop : jrFind s (.image i) = some op) (hst : im.st = 0) :
    let wb := w64At im.header 0x20
    let b := slice body 0 (wb + w64At im.header 0x28)
    let nw := cdiv wb frameBytes
    let w := jrPhase (fillFrames (fillFrames s (im.frames.take nw) (b.take wb)) (im.frames.drop nw) (b.drop wb)) op 2 0
    crc32c b = leAt im.header 0x40 4 → imageTilesCheck w im.ctx (b.drop wb) = none →
    imgCopyDone s i (some body) = imageDone w i im op (b.drop wb) := by
  intro wb b nw w hcrc htiles
  simp only [imgCopyDone, him, hop]
  refine (if_neg (not_not.2 hst)).trans ((if_neg (not_not.2 hcrc)).trans ?_)
  show (match imageTilesCheck w im.ctx (b.drop wb) with
    | some (st, d) => imageFail w i st d
    | none => imageDone w i im op (b.drop wb)) = _
  rw [htiles]

theorem adpCopyDone_good {n : Nat} {a : Adapter} {body : List Byte} (ha : tget s.st.adapters n = some a) (hcmd : a.cmd ≠ 0)
    (hcrc : crc32c (slice body 0 a.bytes) = a.crc) : adpCopyDone s n (some body) = adapterReady s n a (slice body 0 a.bytes) := by
  simp only [adpCopyDone, ha]
  exact (if_neg hcmd).trans (if_neg (not_not.2 hcrc))

/-! ### Records in flash, and transactions -/

theorem flashDone_busy {i : FlashItem} (hi : s.gl.flash.busy = some i) : flashDone s =
    let w := flashStored (modFlash s fun f => { f with busy := none }) i
    (some i, flashNext w (w.gl.flash.queue.length + 1)) := by
  simp only [flashDone, hi]

theorem txnExpire_due {n : Nat} {x : Txn} (hx : tget s.host.txns n = some x) (hopen : x.committing = false)
    (hdue : x.opened + rf s rCqTxnCtrl 0 16 0 * 1000000 ≤ s.now) : txnExpire s n =
    raiseDev (bump (modHost s fun h => { h with txns := tdel h.txns n, txnEnds := tput h.txnEnds n ⟨x.ring, 1⟩ }) rCqTxnStatus 0 35 20 1)
      evTxnExpired sTxnTimeout (n + x.ring * 256) 0 := by
  simp only [txnExpire, hx, hopen, decide_eq_true hdue]
  rfl

end

theorem exec_prefetchReadDone_found {s : State} {t n : Nat} {ok : Bool} {x : Prefetch} (hphase : s.gl.phase = 2)
    (hx : (tick s t).pg.prefetches.find? (·.slot == n) = some x) :
    exec (.prefetchReadDone t n ok) s = .next (after s (prefetchDone (tick s t) x ok)) := by
  show execPrefetchReadDone t n ok s = _
  refine running_next hphase ?_
  rw [hx]

/-- Settles O51: each row where its condition holds. -/
theorem upkeepRowsComplete : Obligations.UpkeepRowsComplete := by
  unfold Obligations.UpkeepRowsComplete
  intro s t hphase u
  refine ⟨fun hdue hidle => ?tick, ?refill, fun hon hlow => ?spill, fun kv v hqueue hfill => ?resume,
    fun q layer x hx => ?tail, fun q x hx hst hset hdue hopen => ?pause,
    fun n x hx hleased => ⟨?written, ?unwritten⟩, fun n ok x hx => exec_prefetchReadDone_found hphase hx, fun q r hr hdue => ?report,
    fun r rest q home x hr hop hpend hseq => ?rebuild, fun r rest x hr hop hpend hseq => ?rebuildEnd,
    fun i op im body him hop hst => ?image, fun n a body ha hcmd hcrc => ?adapter, fun hdue => ?retry, ?journal,
    fun i hi => ?flash, fun n x hx hopen hdue => ?txn⟩
  case tick =>
    show execReclamationTick t s = _
    exact running_next hphase (reclamationTick_due hdue hidle)
  case refill =>
    show execReserveRefill t s = _
    exact running_next hphase rfl
  case spill =>
    show execBackgroundSpill t s = _
    exact running_next hphase (backgroundSpill_low hon hlow)
  case resume =>
    show execSpaceResume t s = _
    exact running_next hphase (spaceResume_one hqueue hfill)
  case tail =>
    intro tail hon hrole hk hst hsum htail
    show execTailMigration t q layer s = _
    exact running_next hphase (tailMigrate_starts hx hon hrole hk hst hsum htail)
  case pause =>
    show execPauseExpiry t q s = _
    exact running_next hphase (pauseExpiry_due hx hst hset hdue hopen)
  case written =>
    show execSpillWriteDone t n true s = _
    exact running_next hphase (spillWriteDone_leased true hx hleased)
  case unwritten =>
    show execSpillWriteDone t n false s = _
    exact running_next hphase (spillWriteDone_leased false hx hleased)
  case report =>
    show execReportTimeout t q s = _
    exact running_next hphase (reportTimeout_due hr hdue)
  case rebuild =>
    show execRebuildStripe t (some x) s = _
    exact running_next hphase (rebuildStep_writes hr hop hpend x hseq)
  case rebuildEnd =>
    show execRebuildStripe t x s = _
    exact running_next hphase (rebuildStep_ends hr hop hpend x hseq)
  case image =>
    intro wb b nw w hcrc htiles
    show execImgCopyDone t i (some body) s = _
    exact running_next hphase (imgCopyDone_good him hop hst hcrc htiles)
  case adapter =>
    show execAdpCopyDone t n (some body) s = _
    exact running_next hphase (adpCopyDone_good ha hcmd hcrc)
  case retry =>
    show execRepairRecordRetry t s = _
    exact running_next hphase (if_neg (Nat.not_lt.2 hdue))
  case journal =>
    show execJournalRecordReuse t s = _
    exact running_next hphase rfl
  case flash =>
    show execFlashWriteDone t s = _
    refine always_next ?_
    rw [flashDone_busy hi]
    cases i <;> rfl
  case txn =>
    show execTxnExpired t n s = _
    exact running_next hphase (txnExpire_due hx hopen hdue)

end Sys2Proof.Machine
end

section
/-! Power (R28–R33, R152, R400, R401, R404–R417, R426, R428, R456): sleep, the scrub, temperatures, supplies, pacing, the sprint, wear. -/
namespace Sys2Proof.Machine

section
variable {s : State}

/-! ### Sleep of units, clocks, stacks and SRAM banks -/

theorem unitGate_idle {cls n : Nat} (hn : n < unitCount cls) (hon : rbit s (pwrReg cls) n 0 = true)
    (hidle : unitIdleFrom s cls n + rf s (pwrReg cls) n 23 4 * 1000 ≤ s.now) : unitGate s cls n =
    let w := modSleep s fun x => { x with gated := addSorted (unitKey cls n) x.gated }
    if cls < 3 ∧ (dieUnits (unitDie cls n)).all (fun v => isGated w v.1 v.2) = true ∧ thas w.gl.sleep.pllIdle (unitDie cls n) = false then
      modSleep w fun x => { x with pllIdle := tput x.pllIdle (unitDie cls n) s.now } else w :=
  if_pos ⟨hn, hon, hidle⟩

theorem unitAwake_due {cls n a : Nat} (ha : tget s.gl.sleep.waking (unitKey cls n) = some a) (hdue : a ≤ s.now)
    (hpll : cls < 3 → s.gl.sleep.plls.contains (unitDie cls n) = false) : unitAwake s cls n = modSleep s fun x => { x with
      waking := tdel x.waking (unitKey cls n), gated := x.gated.filter (· != unitKey cls n),
      pllIdle := if cls < 3 then tdel x.pllIdle (unitDie cls n) else x.pllIdle } := by
  simp only [unitAwake, ha]
  exact if_pos ⟨hdue, fun h => Bool.eq_false_iff.1 (hpll h.1) h.2⟩

theorem pllStop_due {die a : Nat} (ha : tget s.gl.sleep.pllIdle die = some a) (hon : rbit s rPmSleep 0 0 = true)
    (hdue : a + rf s rPmSleep 0 31 16 * 1000000 ≤ s.now) (hlocked : s.gl.sleep.plls.contains die = false) :
    pllStop s die = modSleep s fun x => { x with plls := addSorted die x.plls } := by
  simp only [pllStop, ha]
  exact if_pos (by rw [hon, decide_eq_true hdue, hlocked]; rfl)

theorem pllDone_due {die a : Nat} (ha : tget s.gl.sleep.pllWake die = some a) (hdue : a ≤ s.now) :
    pllDone s die = modSleep s fun x => { x with plls := x.plls.filter (· != die), pllWake := tdel x.pllWake die } := by
  simp only [pllDone, ha]
  exact if_pos hdue

theorem stackSleep_idle {k : Nat} (hon : rbit s rPmSleep 0 1 = true) (hready : rf s rMcStatus k 2 0 = 2)
    (hidle : tgetD s.mt.stackAt k 0 + rf s rPmSleep 0 47 32 * 1000 ≤ s.now) : stackSleep s k = wf s rMcStatus k 2 0 3 := by
  refine if_pos ?_
  rw [hon, hready, decide_eq_true hidle]
  rfl

theorem sramRetain_idle {b : Nat} (hon : rbit s rSpBankPwr (b / 64) (b % 64) = true) (hbusy : sramBusy s = false)
    (hidle : Nat.max s.mt.sramAt (tgetD s.mt.bankAt b 0) + rf s rSpRetCtrl 0 15 0 * 1000 ≤ s.now) : sramRetain s b =
    wrReg s rSpBankState (b / 64) 0 (word ((rdReg s rSpBankState (b / 64) 0).toNat ||| 2 ^ (b % 64))) := by
  refine if_pos ?_
  rw [hon, hbusy, decide_eq_true hidle]
  rfl

theorem bankAwake_due {b a : Nat} (ha : tget s.gl.sleep.bankWake b = some a) (hdue : a ≤ s.now) : bankAwake s b =
    let w := modSleep s fun x => { x with bankWake := tdel x.bankWake b }
    wrReg w rSpBankState (b / 64) 0 (setFld (rdReg w rSpBankState (b / 64) 0) (b % 64) (b % 64) 0) := by
  simp only [bankAwake, ha]
  exact if_pos hdue

/-! ### The scrub, and temperatures -/

theorem patrolScrub_due {f : Nat} (corrected : NTable Nat) (hits : List EccHit) (hf : f < numFrames)
    (hon : rbit s rMcCtrl (frameStack f) 0 = true) (hlive : stackDead s (frameStack f) = false)
    (hdue : ∀ a, tget s.gl.scrubAt f = some a → a + rf s rMcScrub (frameStack f) 7 0 * 3600000000000 ≤ s.now) :
    let k := frameStack f
    let hits' := hits.filter fun h => decide (frameAddr f ≤ h.addr ∧ h.addr < frameAddr f + frameBytes)
    let w := wf (stackWake (modGl s fun g => { g with scrubAt := tput g.scrubAt f s.now }) k) rMcScrub k 27 8 (f % 0x100000)
    let n := corrected.foldl (fun n c => n + c.2) 0 + hits'.length
    let x := if n = 0 then w else bump w rMcEccCnt k 63 48 n
    patrolScrub s f corrected hits = hits'.foldl eccHit (corrected.foldl (fun s c => eccCorrected s k c.1 c.2) x) := by
  refine if_neg ?_
  rintro (hbig | hoff | hdead | hearly)
  · exact Nat.not_le.2 hf hbig
  · exact Bool.eq_false_iff.1 hoff hon
  · exact Bool.eq_false_iff.1 hlive hdead
  · cases ha : tget s.gl.scrubAt f with
    | none => rw [ha] at hearly; exact Bool.noConfusion hearly
    | some a => rw [ha] at hearly; exact of_decide_eq_false hearly (hdue a ha)

theorem stackTemp_eq (k temp : Nat) : stackTemp s k temp =
    let w := wf (wf s rMcStatus k 15 8 (Nat.min 255 temp)) rMcStatus k 5 5 (b2n (decide (temp > 85)))
    if 85 < temp ∧ rbit s rMcStatus k 5 = false then penalise_ w k 128 else w :=
  ite_cond_congr (by simp only [Bool.and_eq_true, decide_eq_true_eq, gt_iff_lt, Bool.not_eq_true'])

/-! ### Supplies, estimates and pacing -/

theorem pmbusPoll_answered {i : Nat} {p : Poll} (hi : vrValid s i = true) (hfault : p.fault = false) :
    let w := wrReg s rPmVr1 i 0 (word (Nat.min 0xFFFF p.vout + Nat.min 0xFFF p.iout * 2 ^ 16 + Nat.min 0xFFF p.pout * 2 ^ 28 +
      Nat.min 0xFF p.temp * 2 ^ 40))
    let x := modFlash w fun f => { f with vcap := tput f.vcap i p.vcap }
    let y := if rf x rPmHoldupCfg 0 1 0 = 1 then holdupNote x else x
    pmbusPoll s i (some p) = telemetryBack (modPower y fun z => { z with polls := tput z.polls i (Nat.min 3 (tgetD z.polls i 0 + 1)) }) := by
  refine (if_neg ?_).trans (if_neg (Bool.eq_false_iff.1 hfault))
  rw [hi]
  decide

theorem pmbusPoll_silent {i : Nat} (hi : vrValid s i = true) : pmbusPoll s i none =
    let w := modPower (bump s rPmVr1 i 55 48 1) fun x => { x with polls := tput x.polls i 0 }
    if rf w rPmVr1 i 55 48 ≥ 3 then telemetryLost w i else w := by
  refine if_neg ?_
  rw [hi]
  decide

/-- An estimate within the current that the supplies carry. -/
theorem estimateTick_within {seA : Nat} (uj sense : Nat) (hsmall : seA ≤ 1750) :
    let e := s.gl.power.energyUj + uj
    let v := modPower s fun x => { x with energyUj := e % 1000 }
    let w := wrReg v rPmEnergy 0 0 (word ((rdReg v rPmEnergy 0 0).toNat + e / 1000))
    let rated := rf w rPmElec 0 11 0
    let x := modPower w fun x => { x with
      stopTiles := false, overAt := if seA > rated then (if x.overAt.isSome then x.overAt else some s.now) else none }
    estimateTick s seA uj sense = holdupNote (modFlash x fun f => { f with sense := Nat.min 1500 sense }) := by
  simp only [estimateTick, decide_eq_false (Nat.not_lt.2 hsmall : ¬seA > 1750), Bool.false_eq_true, if_false]
  rfl

/-- Pacing where no temperature limits it. -/
theorem pacingTick_cool (p now : Nat) (hsprint : inSprint s = false) (hdie : dieHot s (rf s rPmTherm 0 6 0) = false)
    (hstack : stackHot s (rf s rPmTherm 0 14 8) = false) :
    let w := wf (modPower s fun x => { x with thermLimit := none }) rPmStatus 0 3 3 0
    let x := paceN (limitNote w) p (if windDown w && p > 1100 then 16 else 1)
    let paced := decide (rf x rPmPace 0 8 0 < 256) || decide (rf x rPmPace 0 17 9 < 256)
    let y := wf x rPmStatus 0 2 2 (b2n paced)
    let us := y.gl.power.pacedUs + 100
    let z := modPower y fun x => { x with pacedUs := us % 1000 }
    pacingTick s p now = if paced then (if us ≥ 1000 then bump z rPmPace 0 63 32 1 else z) else y := by
  simp only [pacingTick, hsprint, hdie, hstack, Bool.or_false, Bool.and_false, Bool.false_eq_true, if_false, Bool.not_false, Bool.and_true]
  rfl

/-- A thermal evaluation outside a sprint that gives no cause to end one. -/
theorem thermalEval_calm (x : Thermal) :
    let a := dieTemps (wearAccrue s) x.temps
    let b := wf (wf a rPmStatus 0 27 16 (Nat.min 4095 x.pkgW)) rPmStatus 0 39 28 (Nat.min 4095 x.seA)
    let tj := Nat.max (rf b rPmDieTemp 0 7 0) (rf b rPmDieTemp 1 7 0)
    let l := rf b rPmTherm 0 6 0
    let ms := thermalMs (rf b rPmThermModel 0 15 0) (tj * 1000) (tSteady b (tj * 1000) 1330000 x.pf 211500 x.psef) (l * 1000)
    let c := wf b rPmSprintRemain 0 47 24 ms
    let d := wf c rPmSprintRemain 0 23 0 (Nat.min 0xFFFFFF (Nat.min (Nat.min ms (wearLeftMs c)) ((maxLeftMs c).getD 0xFFFFFF)))
    let e := if d.gl.power.rearm && decide (tj + rf d rPmSprintCtrl 0 39 32 ≤ l) then modPower d fun y => { y with rearm := false } else d
    inSprint b = false → endCauses e x = [] →
    thermalEval s x = (List.range 256).foldl (fun s c => if ctxState s c = 0 then s else meter s rMtFrameMs c 0 (framesUsed s c)) e := by
  intro a b tj l ms c d e hsprint hcauses
  simp only [b, a] at hsprint
  simp only [e, d, c, ms, l, tj, b, a] at hcauses ⊢
  simp only [thermalEval, hsprint, Bool.false_eq_true, if_false, hcauses, List.filter_nil]

/-! ### The sprint, wear and health -/

theorem voltageStep_eq (mon : Option Bool) : voltageStep s mon =
    let w := mon.elim s (monitorStep s)
    if w.now < w.gl.power.stepAt + 10000 then w
    else
      let v' := if nowMv w < w.gl.power.target then Nat.min w.gl.power.target (nowMv w + 5) else Nat.max w.gl.power.target (nowMv w - 5)
      sprintReady (wf (modPower w fun x => { x with stepAt := w.now }) rPmVse 0 29 20 v') := by
  cases mon <;> rfl

theorem thermalTrip_hot {die sensor temp : Nat} (hhot : 115 ≤ temp) (hpin : s.gl.pins.contains 0 = false) :
    let w := flashDue (if inSprint s then ratePoint s false else s) (.trip die sensor temp)
    thermalTrip s die sensor temp = modGlobal (wf { w with mem := [] } rGlStatus 0 0 0 0) fun g =>
      { g with phase := 3, pins := addSorted 0 g.pins } :=
  if_neg (not_or.2 ⟨Nat.not_lt.2 hhot, Bool.eq_false_iff.1 hpin⟩)

end

/-- Settles O52: each row where its condition holds. -/
theorem powerRowsComplete : Obligations.PowerRowsComplete := by
  unfold Obligations.PowerRowsComplete
  intro s t hphase u
  refine ⟨fun cls n hn hon hidle => ?gate, fun cls n a ha hdue hpll => ?wake, fun die a ha hon hdue hlocked => ?pllStop,
    fun die a ha hdue => ?pllDone, fun k hon hready hidle => ?stackSleep, fun b hon hbusy hidle => ?retain, fun b a ha hdue => ?bank,
    fun f corrected hits => ?scrub, fun k => ?calibration, fun k temp => ?stackTemp, fun faults => ?alert, fun i p hi hfault => ?poll,
    fun i hi => ?silent, fun seA uj sense hsmall => ?estimate, fun p now hsprint hdie hstack => ?pacing, fun x => ?thermal,
    fun mon => ⟨fun hdue => ?step, fun hearly => ?wait⟩, ?wear, fun hdue => ?decay, fun die sensor temp hhot hpin => ?trip⟩
  case gate =>
    show execUnitIdleGate t cls n s = _
    exact running_next hphase (unitGate_idle hn hon hidle)
  case wake =>
    show execUnitWakeDone t cls n s = _
    exact running_next hphase (unitAwake_due ha hdue hpll)
  case pllStop =>
    show execPllStop t die s = _
    exact running_next hphase (pllStop_due ha hon hdue hlocked)
  case pllDone =>
    show execPllRestartDone t die s = _
    exact running_next hphase (pllDone_due ha hdue)
  case stackSleep =>
    show execStackSelfRefresh t k s = _
    exact running_next hphase (stackSleep_idle hon hready hidle)
  case retain =>
    show execSramRetention t b s = _
    exact running_next hphase (sramRetain_idle hon hbusy hidle)
  case bank =>
    show execSramBankWake t b s = _
    exact running_next hphase (bankAwake_due ha hdue)
  case scrub =>
    intro k hf hon hlive hdue
    show execPatrolScrub t f corrected hits s = _
    exact running_next hphase (patrolScrub_due corrected hits hf hon hlive hdue)
  case calibration =>
    show execStackCalibration t k s = _
    exact running_next hphase rfl
  case stackTemp =>
    show execStackTempReport t k temp s = _
    exact running_next hphase (stackTemp_eq k temp)
  case alert =>
    show execPmbAlert t faults s = _
    exact running_next hphase rfl
  case poll =>
    show execPmbusPoll t i (some p) s = _
    exact running_next hphase (pmbusPoll_answered hi hfault)
  case silent =>
    show execPmbusPoll t i none s = _
    exact running_next hphase (pmbusPoll_silent hi)
  case estimate =>
    show execPowerEstimateTick t seA uj sense s = _
    exact running_next hphase (estimateTick_within uj sense hsmall)
  case pacing =>
    show execPacingTick t p now s = _
    exact running_next hphase (pacingTick_cool p now hsprint hdie hstack)
  case thermal =>
    intro a b tj l ms c d e hsprint hcauses
    show execThermalEval t x s = _
    exact running_next hphase (thermalEval_calm x hsprint hcauses)
  case step =>
    show execSprintVoltageStep ⟨t, mon⟩ s = _
    exact running_next hphase ((voltageStep_eq mon).trans (if_neg (Nat.not_lt.2 hdue)))
  case wait =>
    show execSprintVoltageStep ⟨t, mon⟩ s = _
    exact running_next hphase ((voltageStep_eq mon).trans (if_pos hearly))
  case wear =>
    intro v n w hdue
    show execWearSlotChange t s = _
    exact running_next hphase (if_neg (Nat.not_lt.2 hdue))
  case decay =>
    show execHealthDecay t s = _
    exact running_next hphase (if_neg (Nat.not_lt.2 hdue))
  case trip =>
    show execThermalTrip t die ⟨sensor, temp⟩ s = _
    exact always_next (thermalTrip_hot hhot hpin)

end Sys2Proof.Machine
end

section
/-! Resets and errors (R19, R20, R30, R173, R400, R402, R422–R442), and the SPDM responder (R395, R396). -/
namespace Sys2Proof.Machine

section
variable {s : State}

/-! ### Resets -/

/-- An internal error of a running controller begins a warm reset (R422, R426). -/
theorem warmBegin_error (code : Nat) (hphase : s.gl.phase = 2) (hheld : rbit s rGlStatus 0 5 = false) :
    let a := timeSet (if shutter s = 1 then raiseDev (wf s rGlStatus 0 2 1 0) evShutterChanged 0 0 0 else s) 0
    let b := warmDevice (warmCell (warmFabric (warmTransfers (warmSteps (warmHost a)))))
    let d := bump (wf (wf (wf (wf b rGlStatus 0 0 0 0) rGlStatus 0 3 3 0) rGlResetCause 0 3 0 4) rGlResetCause 0 11 4 code)
      rGlResetCause 0 27 12 1
    let e := modGlobal d fun g => { g with
      phase := 1, warm := true, resetAt := d.now, fatals := d.now :: g.fatals
      sleep := { g.sleep with gated := unitKeys, waking := [], pllIdle := [(0, d.now), (1, d.now)], plls := [], pllWake := [] } }
    warmBegin s 4 code = (List.range 24).foldl (fun s n => if rbit s rEpCtrl n 0 then trainStart s n else s)
      (uartReset (modTime e fun t => { t with refLoss := false })) := by
  have hup : ¬(s.gl.phase = 3 ∧ ((4 == 5 && rbit s rGlStatus 0 3) = false ∨ s.gl.pins.contains 0 = true)) :=
    fun h => phase_ne_stopped hphase h.1
  have hrun : ¬(s.gl.phase = 1 ∧ s.gl.warm = false ∧ (4 == 5 && rbit s rGlStatus 0 3) = false) := by
    rw [hphase]
    exact fun h => absurd h.1 (by decide)
  have hgo : ¬(rbit s rGlStatus 0 5 = true ∧ 4 ≠ 3) := fun h => Bool.eq_false_iff.1 hheld h.1
  exact (if_neg hup).trans ((if_neg hrun).trans (if_neg hgo))

/-- The same while resets are held back: the block stops. -/
theorem warmBegin_held (code : Nat) (hphase : s.gl.phase = 2) (hheld : rbit s rGlStatus 0 5 = true) :
    warmBegin s 4 code = modGlobal (wf s rGlStatus 0 0 0 0) fun g => { g with phase := 3 } := by
  have hup : ¬(s.gl.phase = 3 ∧ ((4 == 5 && rbit s rGlStatus 0 3) = false ∨ s.gl.pins.contains 0 = true)) :=
    fun h => phase_ne_stopped hphase h.1
  have hrun : ¬(s.gl.phase = 1 ∧ s.gl.warm = false ∧ (4 == 5 && rbit s rGlStatus 0 3) = false) := by
    rw [hphase]
    exact fun h => absurd h.1 (by decide)
  exact (if_neg hup).trans ((if_neg hrun).trans ((if_pos ⟨hheld, by decide⟩).trans (if_pos rfl)))

/-- A stall of a live die-to-die link. -/
theorem d2dStall_live {n ns retried : Nat} (hlive : rf s rGlD2dStatus n 7 5 = 2 ∨ rf s rGlD2dStatus n 7 5 = 3) :
    d2dStall s n ns retried =
    let was := rf s rGlD2dStatus n 47 16
    let w := bump s rGlD2dStatus n 47 16 retried
    let k := (was + retried) / 1024 - was / 1024
    let x := if k = 0 then w else penalise_ w (d2dDie n) k
    if 100000 ≤ ns then warmBegin x 4 1 else x :=
  if_neg fun h => hlive.elim h.1 h.2

section
variable (hlost : rbit s rGlStatus 0 3 = true) (hpin : s.gl.pins.contains 0 = false)
include hlost hpin

theorem refReturn_live : refReturn s = if s.pg.tableBuilt then warmBegin s 5 0 else coldBegin s (rf s rGlResetCause 0 3 0) :=
  (if_neg fun h => Bool.eq_false_iff.1 h hlost).trans (if_neg (Bool.eq_false_iff.1 hpin))

end

/-! ### Tampering and bring-up -/

theorem tamperTrip_off {d : Nat} : let w := tamperActive (modSec s fun x => { x with conditions := addSorted d x.conditions })
    rbit w rScTamperCtrl 0 d = false → tamperTrip s d = (false, w) :=
  fun hoff => if_neg (Bool.eq_false_iff.1 hoff)

theorem tamperTrip_on {d : Nat} : let w := tamperActive (modSec s fun x => { x with conditions := addSorted d x.conditions })
    let x := wrReg w rScTamper 0 0 (word ((rdReg w rScTamper 0 0).toNat ||| 2 ^ d))
    let y := modSec (closeSessions (dbWipe (bump x rScTamper 0 31 16 1))) fun x => { x with deadbolt := false }
    rbit w rScTamperCtrl 0 d = true → tamperTrip s d = (rbit y rScTamperCtrl 0 (4 + d) && !rbit w rScTamper 0 d, y) :=
  fun hon => if_pos hon

theorem ready_up {b : BringUp} (hphase : s.gl.phase = 1) (hports : ((List.range 24).any fun n => portWaits s n) = false) :
    let v := (List.range 21).foldl (fun s n => d2dTrained s n (b.d2d.getD n 0)) (wf s rGlStatus 0 4 4 0)
    let w := (List.range 24).foldl (fun s k => stackTrained s k (b.trained.getD k ⟨2, 0, 0, 0, 0⟩)) v
    let x := if w.gl.warm then warmReady w b else coldReady w b
    x.gl.phase ≠ 3 →
    let y := wf (wf x rGlReadyTime 0 31 0 (sat 32 ((x.now - x.gl.resetAt) / 1000))) rGlStatus 0 0 0 1
    ready s b = (List.range 24).foldl (fun s n => if rbit s rEpCtrl n 0 ∧ rf s rEpStatus n 1 0 = 0 then trainStart s n else s)
      (uartReady (modGlobal y fun g => { g with phase := 2 }) (if y.gl.warm then 1 else 2) b.uartRx) := by
  intro v w x hlive
  have hstart : ¬(s.gl.phase ≠ 1 ∨ (List.range 24).any (fun n => portWaits s n) = true) :=
    not_or.2 ⟨not_not.2 hphase, Bool.eq_false_iff.1 hports⟩
  exact (if_neg hstart).trans (if_neg hlive)

theorem egressDrained_due (hclosing : shutter s = 1) (hstep : s.gl.close.step = 7)
    (hdue : egressEmpty s = true ∨ s.gl.close.step7At + 8000000 ≤ s.now) : egressDrained s =
    let c := s.gl.close
    let a := modMt s fun m => { m with drr := m.drr.map fun kv => (kv.1, { kv.2 with queue := [] }) }
    let b := a.fab.txs.foldl (fun s t => dropTx s t.id) a
    let d := wf (wf (wf b rGlStatus 0 2 1 0) rGlShutter 0 39 21 c.handed) rGlShutter 0 58 40 c.released
    let e := modClose d fun x => { x with step := 8, cmds := [] }
    raiseDev (c.cmds.foldl (fun s id => finish s id sOk 0 c.handed c.released) e) evShutterChanged 0 0 0 :=
  if_pos ⟨hclosing, hstep, hdue⟩

end

/-- Settles O53: each row where its condition holds. -/
theorem resetRowsComplete : Obligations.ResetRowsComplete := by
  unfold Obligations.ResetRowsComplete
  intro s t u warm
  refine ⟨?powerOn, ?perst, ?tap, ⟨?deassert, ?deassertBad⟩, fun code hphase hheld => ⟨?fatal, ?watchdog⟩, fun hphase hheld code => ?held,
    fun n ns retried hphase hlive => ⟨fun hshort => ?stall, fun hlong hx hxheld => ?stallLong⟩, ?refLoss, fun hlost hpin hbuilt => ?refWarm,
    fun hlost hpin hbuilt => ?refCold, fun rail hrail => ?rail, fun d => ⟨fun hoff => ?tamperOff, fun hon => ?tamperOn⟩, fun d => ?tamperClear,
    fun b hphase hports => ?ready, fun hphase hclosing => ⟨fun hdrained hdue => ?drain, fun hstep hdue => ?qpDrain, fun hstep hdue => ?egress⟩⟩
  case powerOn =>
    show execPowerOnReset t s = _
    exact always_next rfl
  case perst =>
    show execPerstAssert t s = _
    exact always_next rfl
  case tap =>
    show execTapInstructionExit t s = _
    exact always_next rfl
  case deassert =>
    show execHpPerstDeassert t true s = _
    exact always_next rfl
  case deassertBad =>
    show execHpPerstDeassert t false s = _
    exact always_next rfl
  case fatal =>
    show execFatalInternalError t code s = _
    exact always_next (warmBegin_error code hphase hheld)
  case watchdog =>
    show execWatchdogTimeout t s = _
    exact always_next (warmBegin_error 4 hphase hheld)
  case held =>
    show execFatalInternalError t code s = _
    exact always_next (warmBegin_held code hphase hheld)
  case stall =>
    show execD2dLinkStall t n ns retried s = _
    exact running_next hphase ((d2dStall_live hlive).trans (if_neg (Nat.not_le.2 hshort)))
  case stallLong =>
    show execD2dLinkStall t n ns retried s = _
    exact running_next hphase ((d2dStall_live hlive).trans ((if_pos hlong).trans (warmBegin_error 1 hx hxheld)))
  case refLoss =>
    show execRefClockLoss t s = _
    exact always_next rfl
  case refWarm =>
    show execRefClockReturn t s = _
    exact always_next ((refReturn_live hlost hpin).trans (if_pos hbuilt))
  case refCold =>
    show execRefClockReturn t s = _
    exact always_next ((refReturn_live hlost hpin).trans (if_neg (Bool.eq_false_iff.1 hbuilt)))
  case rail =>
    show execRailFault t rail s = _
    exact always_next (if_pos hrail)
  case tamperOff =>
    show execTamperTrip t d s = _
    refine always_next ?_
    rw [tamperTrip_off hoff]
  case tamperOn =>
    show execTamperTrip t d s = _
    refine always_next ?_
    rw [tamperTrip_on hon]
    generalize (rbit _ rScTamperCtrl 0 (4 + d) && !rbit _ rScTamper 0 d) = resets
    cases resets <;> rfl
  case tamperClear =>
    show execTamperConditionClear t d s = _
    exact always_next rfl
  case ready =>
    intro v w x hlive y
    show execReady t b s = _
    exact always_next (ready_up hphase hports hlive)
  case drain =>
    show execShutterDrainExpiry t s = _
    exact running_next hphase (if_pos ⟨hclosing, hdrained, hdue⟩)
  case qpDrain =>
    show execShutterQpDrainTimeout t s = _
    exact running_next hphase (if_pos ⟨hclosing, hstep, hdue⟩)
  case egress =>
    show execShutterEgressDrained t s = _
    exact running_next hphase (egressDrained_due hclosing hstep hdue)

end Sys2Proof.Machine
end

section
/-! The SPDM responder (R395, R396), on and with the deadbolt intact. -/
namespace Sys2Proof.Machine

section
variable {s : State} {bus : Nat} (hon : spdmOn s = true) (hbolt : s.gl.sec.deadbolt = true)
include hon hbolt

/-- A request is served. -/
theorem spdmDo_open (f : State → State) : spdmDo s bus f = f s := by
  refine (if_neg ?_).trans (if_neg ?_)
  · rw [hon]
    decide
  · rw [hbolt]
    decide

theorem spdmMeasure_block {block : Nat} (nonce : List Byte) (h1 : 1 ≤ block) (h5 : block ≤ 5) : spdmMeasure s bus block nonce =
    spdmOut s bus (.measurements [(block, measurement s block)] (Config.ecdsaSign (measurement s block ++ nonce))) := by
  have hall : block ≠ 0xFF := by omega
  simp only [spdmMeasure, if_neg hall, if_pos (And.intro h1 h5), List.map_cons, List.map_nil, List.flatMap_cons, List.flatMap_nil,
    List.append_nil]
  exact spdmDo_open hon hbolt _

theorem spdmKeyExchange_free (owner : Bool) (share : List Byte) (hfree : s.gl.sec.sessions.length < 4) :
    let id := s.gl.sec.sessCtr
    let v := modSec s fun x => { x with sessCtr := id + 1, sessions := tput x.sessions id ⟨false, owner, 0⟩ }
    let w := wf v rScSpdmCnt 0 2 0 v.gl.sec.sessions.length
    spdmKeyExchange s bus owner share =
      spdmOut (bump w rScSpdmCnt 0 31 16 1) bus (.keyExchangeRsp id (Config.ecdsaSign (certChain w ++ share))) :=
  (spdmDo_open hon hbolt _).trans (if_neg (Nat.not_le.2 hfree))

theorem spdmKeyExchange_full (owner : Bool) (share : List Byte) (hfull : 4 ≤ s.gl.sec.sessions.length) :
    spdmKeyExchange s bus owner share = spdmOut s bus (.error .busy) :=
  (spdmDo_open hon hbolt _).trans (if_pos hfull)

section
variable {id : Nat} {x : SpdmSess} (hx : tget s.gl.sec.sessions id = some x)
include hx

/-- A request inside a session that is as far as the request needs. -/
theorem spdmSession_at {finished : Bool} (hfin : x.finished = finished) (f : SpdmSess → State → State) :
    spdmSession s bus id finished f = f x s := by
  refine (spdmDo_open hon hbolt _).trans ?_
  rw [hx]
  exact if_pos (beq_iff_eq.2 hfin)

theorem keyStage_owner {group phase : Nat} (key : Nat) (hfin : x.finished = true) (howner : x.owner = true) (hgroup : groupOk s group = true)
    (hphase : phase < 2) (hother : phase ≠ rf s rScKeyStatus 0 18 18) : keyStage s bus id group phase key =
    let w := modFab s fun f => { f with keys := { f.keys with
      keys := tput f.keys.keys phase key, newest := some phase, newSeen := none
      seenPhase := if f.keys.seenPhase = some phase then none else f.keys.seenPhase } }
    spdmOut (keyFlags (wf w rScKeyStatus 0 15 0 group)) bus .vendorOk := by
  refine (spdmSession_at hon hbolt hx hfin _).trans ?_
  simp only [howner, hgroup, Nat.mod_eq_of_lt hphase]
  refine if_neg ?_
  rw [beq_eq_false_iff_ne.2 hother]
  decide

theorem keyInstall_owner {group : Nat} (hfin : x.finished = true) (howner : x.owner = true) (hgroup : groupOk s group = true) :
    let p := 1 - rf s rScKeyStatus 0 18 18
    thas s.fab.keys.keys p = true →
    let w := modFab (wf s rScKeyStatus 0 18 18 p) fun f => { f with ports := f.ports.map fun y =>
      (y.1, { y.2 with counter := y.2.counter.set p 0 }) }
    keyInstall s bus id group = spdmOut ((List.range 24).foldl (fun s n => wf s rEpStatus n 9 9 p) w) bus .vendorOk := by
  intro p hkey w
  refine (spdmSession_at hon hbolt hx hfin _).trans ?_
  refine if_neg ?_
  rw [howner, hgroup, hkey]
  decide

end

end

/-- Settles O54: each request where the responder serves it. -/
theorem securityRowsComplete : Obligations.SecurityRowsComplete := by
  unfold Obligations.SecurityRowsComplete
  intro s t bus hphase u hon hbolt
  have hserved (f : State → State) : spdmDo u bus f = f u := spdmDo_open hon hbolt f
  refine ⟨?version, ?capabilities, ?algorithms, ?digests, ?certificate, fun nonce => ?challenge, fun block nonce h1 h5 => ?measure,
    fun owner share hfree => ?exchange, fun owner share hfull => ?exchangeBusy, fun id x hx => ⟨fun hfin => ?finish, fun hfin =>
      ⟨?update, ?heartbeat, ?endSession, fun group phase key howner hgroup hph hother => ?stage, fun group howner hgroup => ?install⟩⟩⟩
  case version =>
    show execGetVersion t bus s = _
    exact running_next hphase (hserved _)
  case capabilities =>
    show execGetCapabilities t bus s = _
    exact running_next hphase (hserved _)
  case algorithms =>
    show execNegotiateAlgorithms t bus s = _
    exact running_next hphase (hserved _)
  case digests =>
    show execGetDigests t bus s = _
    exact running_next hphase (hserved _)
  case certificate =>
    show execGetCertificate t bus s = _
    exact running_next hphase (hserved _)
  case challenge =>
    show execChallenge t bus nonce s = _
    exact running_next hphase (hserved _)
  case measure =>
    show execGetMeasurements t bus block nonce s = _
    exact running_next hphase (spdmMeasure_block hon hbolt nonce h1 h5)
  case exchange =>
    show execKeyExchange t bus owner share s = _
    exact running_next hphase (spdmKeyExchange_free hon hbolt owner share hfree)
  case exchangeBusy =>
    show execKeyExchange t bus owner share s = _
    exact running_next hphase (spdmKeyExchange_full hon hbolt owner share hfull)
  case finish =>
    show execFinish t bus id s = _
    exact running_next hphase (spdmSession_at hon hbolt hx hfin _)
  case update =>
    show execKeyUpdate t bus id s = _
    exact running_next hphase (spdmSession_at hon hbolt hx hfin _)
  case heartbeat =>
    show execHeartbeat t bus id s = _
    exact running_next hphase (spdmSession_at hon hbolt hx hfin _)
  case endSession =>
    show execEndSession t bus id s = _
    exact running_next hphase (spdmSession_at hon hbolt hx hfin _)
  case stage =>
    show execLinkKeyStage t bus id group phase key s = _
    exact running_next hphase (keyStage_owner hon hbolt hx key hfin howner hgroup hph hother)
  case install =>
    intro p hkey w
    show execLinkKeyInstall t bus id group s = _
    exact running_next hphase (keyInstall_owner hon hbolt hx hfin howner hgroup hkey)

end Sys2Proof.Machine
end

section
/-! Packets of queue pairs that arrive (R243–R260), and messages received into a slot of a receive ring (R253, R254). -/
namespace Sys2Proof.Machine

/-- A frame that R187 accepts, of a type that the row takes. -/
theorem arrive_taken {s v : State} {port c : Nat} {fr : List Byte} {p : Pkt} {types : List Nat} {f : State → Pkt → State}
    (hp : receive s port fr (rxCtx s c) = (some p, v)) (htype : types.contains p.type = true) : arrive s port fr c types f = f v p := by
  simp only [arrive, hp]
  exact if_pos htype

/-- The row of a frame so accepted. -/
theorem arrive_next {s v r : State} {t port c : Nat} {fr : List Byte} {p : Pkt} {types : List Nat} {f : State → Pkt → State}
    (hphase : s.gl.phase = 2) (hp : receive (tick s t) port fr (rxCtx (tick s t) c) = (some p, v)) (htype : types.contains p.type = true)
    (hf : f v p = r) : running s t (fun u => arrive u port fr c types f) = .next (after s r) :=
  running_next hphase ((arrive_taken hp htype).trans hf)

/-! ### The checks of R251 -/

section
variable {v : State} {p : Pkt} {q : Qp} (hq : qpOf v p.qp = some q) (hserving : serving v = true) (hst : q.st = 1 ∨ q.st = 2)
  (hsrc : p.src = q.remoteEp) (hplace : msnPlace q p.msn = 1)
include hq hserving hst hsrc hplace

/-- A packet in the range of a queue pair that serves its sender, past the checks before its window's. -/
theorem qpArrive_inRange : qpArrive v p =
    let w := winOf v p.winIdx
    if namesWindow p.type ∧ (p.winIdx = 0 ∨ p.winIdx ≥ 262144 ∨ w.isNone) then sendNak v q.remoteQp p sRemoteAccess 1 0
    else if namesWindow p.type && (match w with | some w => !w.live || w.gen != p.winGen | none => true) then
      let s := bump v rXeWinCnt 0 31 0 1
      match w with
      | some w => if w.sink.isSome then setWin (bump s rTePaneEvtCnt 0 15 0 1) p.winIdx { w with sink := none } else s
      | none => s
    else match (if namesWindow p.type then w.bind fun w => winCheck q p.qp w p else none) with
      | some d => sendNak v q.remoteQp p sRemoteAccess d 0
      | none => qpTake v q p w := by
  have hopen : ¬((q.st ≠ 1 ∧ q.st ≠ 2) ∨ (serving v = false ∧ p.type ≠ ptPaneReq)) :=
    not_or.2 ⟨fun h => hst.elim h.1 h.2, fun h => Bool.eq_false_iff.1 h.1 hserving⟩
  simp only [qpArrive, qpIn, hq, hplace]
  exact (if_neg hopen).trans ((if_neg (not_not.2 hsrc)).trans ((if_neg (by decide)).trans ((if_neg (by decide)).trans rfl)))

/-- A packet that names no window is taken. -/
theorem qpArrive_plain (hwin : namesWindow p.type = false) : qpArrive v p = qpTake v q p (winOf v p.winIdx) := by
  rw [qpArrive_inRange hq hserving hst hsrc hplace]
  simp only [hwin, Bool.false_eq_true, false_and, Bool.false_and, if_false]

/-- A packet that names a live window, within its rights. -/
theorem qpArrive_window {w : Win} (hwin : namesWindow p.type = true) (hidx : p.winIdx ≠ 0) (hlow : p.winIdx < 262144)
    (hw : winOf v p.winIdx = some w) (hlive : w.live = true) (hgen : w.gen = p.winGen) (hcheck : winCheck q p.qp w p = none) :
    qpArrive v p = qpTake v q p (some w) := by
  rw [qpArrive_inRange hq hserving hst hsrc hplace]
  simp only [hwin, hw, hlive, hgen, Option.bind_some, hcheck, Option.isNone_some, Bool.not_true, bne_self_eq_false, Bool.or_false,
    Bool.and_false, Bool.false_eq_true, if_true, if_false, or_false, true_and]
  exact if_neg (not_or.2 ⟨hidx, Nat.not_le.2 hlow⟩)

end

/-! ### What a queue pair does with a packet it takes -/

section
variable {v : State} {p : Pkt} {q : Qp} {w : Option Win}

/-- A request waits for its turn; an atomic is acknowledged at once. -/
theorem qpTake_request (htype : p.type = ptReadReq ∨ p.type = ptAtomicReq ∨ p.type = ptFlushReq)
    (hnew : q.held.all (·.msn != p.msn) = true) : qpTake v q p w =
    runTurn (updQp (if p.type = ptAtomicReq then sendAck (qpSeen v p) q.remoteQp p else qpSeen v p) p.qp
      fun q => { q with held := q.held ++ [p] }) p.qp 4096 := by
  have hkind : (p.type == ptSend) = false ∧ multiPkt p.type = false ∧ p.type ≠ ptWriteImm := by
    rcases htype with h | h | h <;> rw [h] <;> decide
  obtain ⟨hsend, hmulti, himm⟩ := hkind
  have hfirst : (q.held.any fun x => x.msn == p.msn) = false := by
    rw [List.any_eq_false]
    intro x hx h
    exact bne_iff_ne.1 (List.all_eq_true.1 hnew x hx) (beq_iff_eq.1 h)
  simp only [qpTake, hsend, hmulti, himm, hfirst, Bool.false_and, Bool.false_eq_true, if_false, or_self, false_and]
  exact if_pos htype

/-- Data for a window is placed there; only data with an immediate needs a place in the completion ring. -/
theorem qpTake_write {x : Win} (htype : p.type = ptWrite ∨ p.type = ptWriteImm)
    (hroom : p.type = ptWriteImm → p.qp < 512 ∨ cqRoom q = true) (htrack : wholeMsg p = true ∨ trackOf v p.qp p.msn ≠ none) :
    qpTake v q p (some x) = acceptData (qpSeen v p) p.qp q p (x.base + bits p.opWord 31 0)
      (((trackOf v p.qp p.msn).map (·.slot)).getD q.rxNext % 2 ^ q.rxLog) x.sink.isNone := by
  have hkind : (p.type == ptSend) = false ∧ namesWindow p.type = true ∧
      ¬(p.type = ptReadReq ∨ p.type = ptAtomicReq ∨ p.type = ptFlushReq) := by
    rcases htype with h | h <;> rw [h] <;> decide
  obtain ⟨hsend, hwin, hdata⟩ := hkind
  have htracked : (!wholeMsg p && (trackOf v p.qp p.msn).isNone) = false := by
    rcases htrack with h | h
    · rw [h]; rfl
    · rw [Option.isNone_eq_false_iff.2 (Option.isSome_iff_ne_none.2 h), Bool.and_false]
  have hcq : ¬((p.type = ptWriteImm ∨ False) ∧ decide (p.qp < 512) = false ∧ cqRoom q = false) := by
    rintro ⟨himm, hfw, hfull⟩
    rcases hroom (himm.resolve_right id) with h | h
    · exact of_decide_eq_false hfw h
    · exact Bool.eq_false_iff.1 hfull h
  simp only [qpTake, hsend, hwin, Bool.false_and, Bool.and_assoc, htracked, Bool.and_false, Bool.false_eq_true, if_false,
    Option.bind_some, Bool.and_true, Bool.not_true, Bool.not_false, Bool.true_and, if_true]
  refine (if_neg hcq).trans ((if_neg hdata).trans ?_)
  rw [Option.not_isSome]
  cases trackOf v p.qp p.msn <;> rfl

/-- A whole message received into the next slot of the receive ring. -/
theorem qpTake_send (htype : p.type = ptSend) (hn : 512 ≤ p.qp) (hslots : q.rx.2 ≠ 0) (hmem : q.rx.1 ≠ 0) (hfits : p.length ≤ 2 ^ q.slotLog)
    (hwhole : wholeMsg p = true) (hnew : trackOf v p.qp p.msn = none) (hroom : sub32 q.rxNext q.rxCi < 2 ^ q.rxLog) (hcq : cqRoom q = true) :
    qpTake v q p w = acceptData (updQp (qpSeen v p) p.qp fun q => { q with rxNext := (q.rxNext + 1) % 2 ^ 32 }) p.qp q p
      (q.rx.2 + (q.rxNext % 2 ^ q.rxLog) * 2 ^ q.slotLog) (q.rxNext % 2 ^ q.rxLog) true := by
  have hkind : (p.type == ptSend) = true ∧ namesWindow p.type = false ∧
      ¬(p.type = ptReadReq ∨ p.type = ptAtomicReq ∨ p.type = ptFlushReq) := by
    rw [htype]
    decide
  obtain ⟨hsend, hwin, hdata⟩ := hkind
  have hfw : decide (p.qp < 512) = false := decide_eq_false (Nat.not_lt.2 hn)
  simp only [qpTake, hsend, hwin, hfw, hwhole, hnew, hcq, beq_eq_false_iff_ne.2 hslots, beq_eq_false_iff_ne.2 hmem,
    decide_eq_false (Nat.not_lt.2 hfits), decide_eq_false (Nat.not_le.2 hroom : ¬sub32 q.rxNext q.rxCi ≥ 2 ^ q.rxLog), gt_iff_lt,
    Option.isNone_none, Bool.not_false, Bool.not_true, Bool.and_true, Bool.and_false, Bool.false_and, Bool.or_false, Bool.false_eq_true,
    Bool.true_eq_false, if_false, if_true, and_false]
  exact if_neg hdata

/-- Settles O56: the packet is in range and names no window, and the next slot takes it. -/
theorem sendPacketsComplete : Obligations.SendPacketsComplete := by
  unfold Obligations.SendPacketsComplete
  intro s v t port c fr p q hphase hp hq htype hn hserving hst hsrc hplace hslots hmem hfits hwhole hnew hroom hcq n x
  show execRxSend t port fr c s = _
  refine arrive_next hphase hp (by rw [htype]; rfl) ?_
  rw [qpArrive_plain hq hserving hst hsrc hplace (by rw [htype]; rfl)]
  exact qpTake_send htype hn hslots hmem hfits hwhole hnew hroom hcq

end

/-! ### Responses, acknowledgements and NAKs -/

section
variable {v : State} {p : Pkt} {q : Qp}

theorem readRespIn_tracked {x : Track} (hq : qpOf v p.qp = some q)
    (hx : v.fab.tracks.find? (fun t => t.qp == p.qp && t.msn == p.msn && t.type == ptReadResp && t.src == p.src) = some x) :
    let a := ((v.fab.txs.filter fun x => x.qp == some p.qp && x.pkt.msn == p.msn && x.pkt.type == ptReadReq).map (·.id)).foldl dropTx v
    let b := placeGrains a x p true
    let d := sendAck b.1 q.remoteQp p
    readRespIn v p = if b.2.count = b.2.length then finishMsg (modFab d fun f => { f with
        tracks := f.tracks.filter fun x => !(x.qp == p.qp && x.msn == p.msn && x.type == ptReadResp) }) p.qp p.msn
      else modFab d fun f => { f with tracks := f.tracks.map fun x =>
        if x.qp == p.qp && x.msn == p.msn && x.type == ptReadResp then b.2 else x } := by
  simp only [readRespIn, hx, hq]

theorem atomicRespQp_ok {m : TxMsg} (hq : qpOf v p.qp = some q)
    (hm : v.fab.msgs.find? (fun m => m.qp == p.qp && m.msn == p.msn && m.kind == 2) = some m) (hsrc : p.src = q.remoteEp)
    (hst : bits p.opWord 15 0 = sOk) :
    let w := touchSpan (wrMem (sendAck v q.remoteQp p) m.base p.payload) q.ctx (m.base, p.payload.length)
    let a := updWr w p.qp m.wrNo fun r => { r with old := leAt p.payload 0 8 }
    atomicRespQp v p = finishMsg a p.qp p.msn := by
  simp only [atomicRespQp, hm, hq, hst]
  exact (if_neg (not_not.2 hsrc)).trans ((if_neg (by decide)).trans (if_pos trivial))

theorem flushRespIn_ok (hm : (v.fab.msgs.any fun m => m.qp == p.qp && m.msn == p.msn && m.kind == 3) = true) (hst : bits p.opWord 15 0 = sOk) :
    flushRespIn v p = finishMsg v p.qp p.msn :=
  (if_pos hm).trans (if_pos hst)

/-- An acknowledgement for a queue pair concerns no coherence message. -/
theorem cohAcked_qp (hn : p.qp ≠ 0) : cohAcked v p = v := by
  unfold cohAcked
  split
  · exact if_neg hn
  · rfl

/-- The packets that an acknowledgement matches, of a written message. -/
theorem ackIn_matched {x : TxPkt} {rest : List TxPkt}
    (hx : matchTx v p.src (some p.qp) (p.winIdx == 1) p.msn p.offset p.length = x :: rest) :
    let resp := p.winIdx == 1
    let a := onAck v p.src x.path (bits p.opWord 31 0) (((x :: rest).map (·.bytes)).foldl (· + ·) 0)
    let b := (x :: rest).foldl (fun s t =>
      if keptForResponse t then updTx s t.id fun t => { t with bytes := 0, busy := false }
      else modFab s fun f => { f with txs := f.txs.filter (·.id != t.id) }) a
    let d := modFab (flushNew (flushDest b p.src)) fun f => { f with msgs := f.msgs.map fun m =>
      if m.qp == p.qp && m.msn == p.msn && (m.kind == 4) == resp then { m with lastBusy := false } else m }
    ∀ m : TxMsg, d.fab.msgs.find? (fun m => m.qp == p.qp && m.msn == p.msn && (m.kind == 4) == resp) = some m → m.kind = 0 →
      ackIn v p = if (d.fab.txs.any fun t => t.qp == some p.qp && t.pkt.msn == p.msn && (t.pkt.type == ptReadResp) == resp) then d
        else finishMsg d p.qp p.msn := by
  have hqp : x.qp = some p.qp := by
    have hmem : x ∈ matchTx v p.src (some p.qp) (p.winIdx == 1) p.msn p.offset p.length := hx ▸ List.mem_cons_self
    have hmatch := (List.mem_filter.1 hmem).2
    simp only [Bool.and_eq_true, beq_iff_eq] at hmatch
    exact hmatch.1.1.1.1.1.2
  intro resp a b d m hm hkind
  have hplain : ¬(m.kind ≠ 0 ∧ m.kind ≠ 4) := fun h => h.1 hkind
  simp only [d, b, a, resp] at hm ⊢
  simp only [ackIn, hx, List.isEmpty_cons, Bool.false_eq_true, false_and, if_false, hqp, hm, hplain, or_false, if_pos hkind]

/-- A NAK that names a packet under way. -/
theorem nakIn_found {x : TxPkt} (hx : v.fab.txs.find? (fun t =>
      t.pkt.dst == p.src && t.qp == some p.qp && t.pkt.msn == p.msn && t.pkt.offset == p.offset && t.st == 2 &&
        (t.pkt.type == ptReadResp) == (p.winIdx == 1)) = some x) : nakIn v p =
    if bits p.opWord 15 0 = sPending then
      modFab (updTx v x.id fun t => { t with busy := true, busyAt := v.now + bits p.opWord 39 24 * 1000 }) fun f =>
        { f with msgs := f.msgs.map fun m => if m.qp == p.qp && m.msn == p.msn then { m with lastBusy := true } else m }
    else failMsg v p.qp p.msn (bits p.opWord 15 0) (bits p.opWord 23 16) := by
  simp only [nakIn, hx]

end

/-- Settles O55: requests and data in range, and what answers a message of this controller. -/
theorem queuePairPacketsComplete : Obligations.QueuePairPacketsComplete := by
  unfold Obligations.QueuePairPacketsComplete
  intro s v t port fr p q hphase hp hq n seen mine turn
  refine ⟨fun w hmine hidx hlow hw hlive hgen hcheck => ⟨fun slot hslot htrack => ⟨fun htype => ?write, fun htype hroom => ?writeImm⟩,
      fun htype hnew => ?readReq, fun htype hcell hnew => ?atomicReq⟩,
    fun hmine htype hnew => ?flushReq, fun x htype hx => ?readResp, fun m htype hn hm hsrc hst => ?atomicResp,
    fun htype hm hst => ?flushResp, fun x rest htype hn hx => ?ack, fun x htype hx => ⟨fun hst => ?nak, fun hst => ?busy⟩⟩
  case write =>
    obtain ⟨hserving, hopen, hsrc, hplace⟩ := hmine
    subst hslot
    show execRxWrite t port fr s = _
    refine arrive_next hphase hp (by rw [htype]; rfl) ?_
    rw [qpArrive_window hq hserving hopen hsrc hplace (by rw [htype]; rfl) hidx hlow hw hlive hgen hcheck]
    exact qpTake_write (.inl htype) (fun h => absurd (htype.symm.trans h) (by decide)) htrack
  case writeImm =>
    obtain ⟨hserving, hopen, hsrc, hplace⟩ := hmine
    subst hslot
    show execRxWriteImm t port fr s = _
    refine arrive_next hphase hp (by rw [htype]; rfl) ?_
    rw [qpArrive_window hq hserving hopen hsrc hplace (by rw [htype]; rfl) hidx hlow hw hlive hgen hcheck]
    exact qpTake_write (.inr htype) (fun _ => hroom) htrack
  case readReq =>
    obtain ⟨hserving, hopen, hsrc, hplace⟩ := hmine
    show execRxReadReq t port fr s = _
    refine arrive_next hphase hp (by rw [htype]; rfl) ?_
    rw [qpArrive_window hq hserving hopen hsrc hplace (by rw [htype]; rfl) hidx hlow hw hlive hgen hcheck,
      qpTake_request (.inl htype) hnew, if_neg (by rw [htype]; decide)]
  case atomicReq =>
    obtain ⟨hserving, hopen, hsrc, hplace⟩ := hmine
    show execAtomicReq t port fr s = _
    refine arrive_next hphase hp (by rw [htype]; rfl) ((if_neg (Bool.eq_false_iff.1 hcell)).trans ?_)
    rw [qpArrive_window hq hserving hopen hsrc hplace (by rw [htype]; rfl) hidx hlow hw hlive hgen hcheck,
      qpTake_request (.inr (.inl htype)) hnew, if_pos htype]
  case flushReq =>
    obtain ⟨hserving, hopen, hsrc, hplace⟩ := hmine
    show execFlushReq t port fr s = _
    refine arrive_next hphase hp (by rw [htype]; rfl) ?_
    rw [qpArrive_plain hq hserving hopen hsrc hplace (by rw [htype]; rfl), qpTake_request (.inr (.inr htype)) hnew,
      if_neg (by rw [htype]; decide)]
  case readResp =>
    show execReadResp t port fr s = _
    exact arrive_next hphase hp (by rw [htype]; rfl) (readRespIn_tracked hq hx)
  case atomicResp =>
    show execAtomicResp t port fr s = _
    exact arrive_next hphase hp (by rw [htype]; rfl) ((if_neg hn).trans (atomicRespQp_ok hq hm hsrc hst))
  case flushResp =>
    show execFlushResp t port fr s = _
    exact arrive_next hphase hp (by rw [htype]; rfl) (flushRespIn_ok hm hst)
  case ack =>
    intro resp a b d m hm hkind
    show execAck t port fr s = _
    exact arrive_next hphase hp (by rw [htype]; rfl) ((cohAcked_qp hn).trans (ackIn_matched hx m hm hkind))
  case nak =>
    show execNak t port fr s = _
    exact arrive_next hphase hp (by rw [htype]; rfl) ((nakIn_found hx).trans (if_neg hst))
  case busy =>
    show execNak t port fr s = _
    exact arrive_next hphase hp (by rw [htype]; rfl) ((nakIn_found hx).trans (if_pos hst))

end Sys2Proof.Machine
end

section
/-! Rack accesses and coherence messages that arrive (R212, R220–R230), and relaying, egress, panes and device time (R100–R105, R190–R201,
R326, R377). -/
namespace Sys2Proof.Machine

/-! ### Accesses in the window, and their answers -/

section
variable {v : State} {p : Pkt} (hserving : serving v = true) (hon : rbit v rFlCtrl 0 0 = true)
include hserving hon

theorem accessIn_inWindow {w : AccWin} (arg : CohArg) (hw : accWin v p.src = some w) (hlater : p.msn ≠ 0 ∨ p.retx = true)
    (hnear : (p.msn + 2 ^ 24 - w.expect) % 2 ^ 24 ≤ 255) :
    let ack := fun w : State => if p.payload.isEmpty then w else
      sendPlain w 0 (mkPkt w ptAck 0 p.src 0 p.msn 0 p.payload.length 0 0 (p.sendTs + p.entropy * 2 ^ 32 + 2 ^ 48) [])
    accessIn v p (serving v) arg = accTurn (ack (setAccWin v p.src { w with
      held := if w.held.any (·.msn == p.msn) then w.held else w.held ++ [p] })) p.src arg 512 := by
  have hfresh : (p.msn == 0 && !p.retx) = false := by
    rcases hlater with h | h
    · rw [beq_eq_false_iff_ne.2 h]; rfl
    · rw [h]; exact Bool.and_false _
  simp only [accessIn, hserving, hon, hw, hfresh, Bool.not_true, Bool.false_eq_true, if_false]
  exact if_pos hnear

/-- The first access of a sender opens its window anew. -/
theorem accessIn_first (arg : CohArg) (hmsn : p.msn = 0) (hretx : p.retx = false) :
    let ack := fun w : State => if p.payload.isEmpty then w else
      sendPlain w 0 (mkPkt w ptAck 0 p.src 0 p.msn 0 p.payload.length 0 0 (p.sendTs + p.entropy * 2 ^ 32 + 2 ^ 48) [])
    accessIn v p (serving v) arg = accTurn (ack (setAccWin (bump v rFlSeqCnt 0 31 16 1) p.src ⟨0, [p], []⟩)) p.src arg 512 := by
  have hfresh : (p.msn == 0 && !p.retx) = true := by
    rw [hmsn, hretx]
    rfl
  simp only [accessIn, hserving, hon, hfresh, Bool.not_true, Bool.false_eq_true, if_false]
  cases accWin v p.src <;> exact if_pos trivial

end

/-- The rows of accesses and coherence messages: each hands the packet of its own type to the window of its sender. -/
theorem exec_access {s v : State} {t port : Nat} {fr : List Byte} {p : Pkt} {i : Instr} {arg : CohArg} (hphase : s.gl.phase = 2)
    (hp : receive (tick s t) port fr (rxCtx (tick s t) 0) = (some p, v))
    (hi : (i = .loadReq t port fr ∧ p.type = ptLoadReq ∧ arg = ⟨0, false, false⟩) ∨
      (i = .store t port fr ∧ p.type = ptStore ∧ arg = ⟨0, false, false⟩) ∨
      (i = .atomicReq t port fr ∧ p.type = ptAtomicReq ∧ bit p.opWord 47 = true ∧ arg = ⟨0, false, false⟩) ∨
      (p.type = ptCoherence ∧ (bits p.opWord 47 44, i) ∈ ([(cGetS, .getS t port fr arg), (cGetM, .getM t port fr arg),
        (cPutM, .putM t port fr arg), (cPutClean, .putClean t port fr arg), (cInv, .inv t port fr arg), (cFwdS, .fwdS t port fr arg),
        (cFwdM, .fwdM t port fr arg), (cData, .coherenceData t port fr arg), (cAck, .coherenceAck t port fr arg)] : List (Nat × Instr)))) :
    exec i s = .next (after s (accessIn v p (serving v) arg)) := by
  rcases hi with ⟨rfl, htype, rfl⟩ | ⟨rfl, htype, rfl⟩ | ⟨rfl, htype, hcell, rfl⟩ | ⟨htype, hi⟩
  · show execLoadReq t port fr s = _
    exact arrive_next hphase hp (by rw [htype]; rfl) rfl
  · show execStore t port fr s = _
    exact arrive_next hphase hp (by rw [htype]; rfl) rfl
  · show execAtomicReq t port fr s = _
    exact arrive_next hphase hp (by rw [htype]; rfl) (if_pos hcell)
  · have hrow (msg : Nat) (hmsg : bits p.opWord 47 44 = msg) :
        running s t (fun u => cohArrive u port fr arg msg) = .next (after s (accessIn v p (serving v) arg)) :=
      arrive_next hphase hp (by rw [htype]; rfl) (if_pos hmsg)
    simp only [List.mem_cons, Prod.mk.injEq, List.not_mem_nil, or_false] at hi
    rcases hi with ⟨hmsg, rfl⟩ | ⟨hmsg, rfl⟩ | ⟨hmsg, rfl⟩ | ⟨hmsg, rfl⟩ | ⟨hmsg, rfl⟩ |
      ⟨hmsg, rfl⟩ | ⟨hmsg, rfl⟩ | ⟨hmsg, rfl⟩ | ⟨hmsg, rfl⟩
    · exact hrow cGetS hmsg
    · exact hrow cGetM hmsg
    · exact hrow cPutM hmsg
    · exact hrow cPutClean hmsg
    · exact hrow cInv hmsg
    · exact hrow cFwdS hmsg
    · exact hrow cFwdM hmsg
    · exact hrow cData hmsg
    · exact hrow cAck hmsg

theorem respIn_ends {v : State} {p : Pkt} {a : RackAcc}
    (ha : (accSeq v p.src).out.find? (fun a => a.msn == p.msn && respType a.pkt.type == p.type) = some a) (hkind : a.kind ≠ 2)
    (hst : bits p.opWord 15 0 ≠ sTargetDead) :
    let w := if p.payload.isEmpty then v else
      sendPlain v 0 (mkPkt v ptAck 0 p.src 0 p.msn 0 p.payload.length 0 0 (p.sendTs + p.entropy * 2 ^ 32 + 2 ^ 48) [])
    let x := ((w.fab.txs.filter fun t => t.qp.isNone && t.pkt.dst == p.src && t.pkt.msn == p.msn && t.pkt.type == a.pkt.type).map
      (·.id)).foldl dropTx w
    let y := setAccSeq x p.src { accSeq v p.src with out := (accSeq v p.src).out.filter (·.msn != a.msn) }
    respIn v p = refillSeq
      (accDone y a (bits p.opWord 15 0) (bits p.opWord 23 16) (bits p.opWord 43 24) p.payload (bit p.opWord 44)) p.src 256 := by
  simp only [respIn, ha]
  exact (if_neg fun h => hkind h.2).trans (if_neg hst)

/-- Settles O57: what is in the window waits for its turn, and an answer ends its access. -/
theorem accessPacketsComplete : Obligations.AccessPacketsComplete := by
  unfold Obligations.AccessPacketsComplete
  intro s v t port fr p hphase hp ack
  refine ⟨fun i arg hi hserving hon => ⟨fun w hw hlater hnear => ?inWindow, fun hmsn hretx => ?first⟩, fun i a hi ha hkind hst => ?answer⟩
  case inWindow => rw [exec_access hphase hp hi, accessIn_inWindow hserving hon arg hw hlater hnear]
  case first => rw [exec_access hphase hp hi, accessIn_first hserving hon arg hmsn hretx]
  case answer =>
    intro w x y
    simp only [List.mem_cons, Prod.mk.injEq, List.not_mem_nil, or_false] at hi
    rcases hi with ⟨htype, rfl⟩ | ⟨htype, rfl⟩
    · show execLoadResp t port fr s = _
      exact arrive_next hphase hp (by rw [htype]; rfl) (respIn_ends ha hkind hst)
    · show execStoreResp t port fr s = _
      exact arrive_next hphase hp (by rw [htype]; rfl) (respIn_ends ha hkind hst)

/-! ### Relaying and egress -/

section
variable {s : State}

/-- A frame for another endpoint goes to one of the ports that lead there. -/
theorem relay_routed {w : State} {port : Nat} {p : Pkt} {fr : List Byte} {r : Word} (hroute : routeOf w p.dst = some r) (httl : p.hopTtl ≠ 0) :
    let ups := (List.range 24).filter fun n => wbit r (25 + n) && portUp w n
    ups ≠ [] →
    let out := ups.getD (p.entropy % ups.length) 0
    relay w port p fr = setDrr w out { drr w out with queue := (drr w out).queue ++
      [⟨p.tc, 0, 8 + 8 * cdiv (bits (w64At fr 0) 20 8) 8, { p with hopTtl := p.hopTtl - 1 }, none, some (hopDown fr)⟩] } := by
  intro ups hsome out
  simp only [relay, hroute]
  exact (if_neg httl).trans (if_neg fun h => hsome (List.isEmpty_iff.1 h))

/-- What R187 makes of a frame that lives and is for another endpoint. -/
theorem receive_relays {v w : State} {port : Nat} {fr : List Byte} {f : Frame0} (charge : Pkt → Nat) (hport : port < 24)
    (hself : rbit s rEpSelf 0 20 = true) (hup : portUp s port = true) (hf : recvFrame s port fr = (some f, v))
    (hlife : lifeCheck v port f.pkt = (true, w)) (hdst : f.pkt.dst ≠ self w) :
    receive s port fr charge = (none, relay w port f.pkt fr) := by
  have hopen : ¬(rbit s rEpSelf 0 20 = false ∨ (port < 24 ∧ portUp s port = false) ∨ port > 24) := by
    rw [hself, hup]
    simp only [Bool.true_eq_false, and_false, false_or, Nat.not_lt]
    omega
  simp only [receive, hf]
  rw [if_neg hopen]
  simp only [receiveFrame, hlife]
  exact if_pos hdst

theorem arrive_dropped {v : State} {port c : Nat} {fr : List Byte} {types : List Nat} {f : State → Pkt → State}
    (hp : receive s port fr (rxCtx s c) = (none, v)) : arrive s port fr c types f = v := by
  simp only [arrive, hp]

theorem egressNext_class {port k : Nat} {d : DrrS} (hport : port < 24) (hup : portUp s port = true)
    (hkey : portEnc s port = true → thas s.fab.keys.keys (rf s rScKeyStatus 0 18 18) = true ∧
      (tgetD s.fab.ports port ⟨0, [], 0, true, [0, 0], 0⟩).counter.getD (rf s rScKeyStatus 0 18 18) 0 < 2 ^ 59)
    (hclass : nextClass s port = (some k, d)) : egressNext s port = takeEgress s port k d := by
  have hblocked : (portEnc s port && (!(thas s.fab.keys.keys (rf s rScKeyStatus 0 18 18)) ||
      decide ((tgetD s.fab.ports port ⟨0, [], 0, true, [0, 0], 0⟩).counter.getD (rf s rScKeyStatus 0 18 18) 0 ≥ 2 ^ 59))) = false := by
    cases henc : portEnc s port with
    | false => rfl
    | true =>
      obtain ⟨hhas, hcount⟩ := hkey henc
      rw [hhas, decide_eq_false (Nat.not_le.2 hcount : ¬_ ≥ 2 ^ 59)]
      rfl
  simp only [egressNext, hclass]
  refine if_neg ?_
  rintro (hbig | ⟨-, hdown⟩ | hb)
  · omega
  · exact Bool.eq_false_iff.1 hdown hup
  · exact Bool.eq_false_iff.1 hblocked hb

/-- A frame that is not sent again ends the row with its egress. -/
theorem egressRun_new {port : Nat} (hnew : ∀ (x : WireOut) (rest : List WireOut), (egressNext s port).fab.wire = x :: rest → x.pkt.retx = false) :
    egressRun s port = egressNext s port := by
  simp only [egressRun]
  split
  · next x rest hwire => exact if_pos (.inr (.inr (hnew x rest hwire)))
  · rfl

/-! ### Panes -/

theorem paneRequest_passed {src : Nat} {req : List Byte} {x : PaneArg} (hcheck : paneCheck s req x = none) :
    let p := paneReqOf req
    let ps := if p.degraded then [] else panePages s p
    let v := ps.foldl notePage s
    let n := (ps.filter (holdDown s [])).length + b2n x.tierBad
    let w := if n = 0 then v else bump v rMcTierCnt p.ctx 63 32 n
    let wait := ps.filter fun h => (paneCopy x.copies h).isNone && (localFrame w h.entry).isSome
    let y := wakeForPane w (wait.filterMap fun h => (localFrame w h.entry).map frameStack).eraseDups
    let id := y.st.jobCtr
    paneRequest s src req x = jobTry (modSt y fun t => { t with
      jobs := t.jobs ++ [⟨id, src, req, x.geo.kvHeads, x.split, x.scales, ps, wait, [], x.copies, [], false, y.now⟩]
      jobCtr := id + 1 }) id := by
  simp only [paneRequest, hcheck, if_true]

theorem paneComputed_done {id te : Nat} {j : PaneJob} (hj : s.st.jobs.find? (fun j => j.id == id) = some j) (hqueued : j.queued = true)
    (hwork : (s.mt.work.any fun w => w.stage == paneMark && w.step == id) = false) : paneComputed s id te = paneAnswer s j te := by
  simp only [paneComputed, hj]
  exact if_neg (not_or.2 ⟨fun h => Bool.eq_false_iff.1 h hqueued, Bool.eq_false_iff.1 hwork⟩)

/-! ### Device time -/

theorem timeSync_member {p : Pkt} (hmgr : isMgr s = false) (hsrc : p.src = mgrEp s) : timeSync s p =
    timeSend (modTime s fun t => { t with t1 := p.opWord, t2 := s.now, t3 := s.now, waiting := true }) ptTimeReq p.src s.now :=
  if_neg (not_or.2 ⟨Bool.eq_false_iff.1 hmgr, not_not.2 hsrc⟩)

/-- An answer that this controller waits for. -/
theorem timeResp_waited {p : Pkt} (hmgr : isMgr s = false) (hsrc : p.src = mgrEp s) (hwait : s.fab.time.waiting = true) :
    let m := s.fab.time
    let fwd : Int := (m.t2 : Int) - m.t1
    let back : Int := (p.opWord : Int) - m.t3
    let delay := (fwd + back) / 2
    let w := (fresh s).2
    let x := modTime w fun t => { t with waiting := false, delays := (delay :: t.delays).take 16 }
    timeResp s p = if delay > m.delays.foldl min delay + 200 then x else timeSample x ((fwd - back + ((fresh s).1.toNat % 2 : Nat)) / 2) :=
  if_neg (not_or.2 ⟨Bool.eq_false_iff.1 hmgr, not_or.2 ⟨not_not.2 hsrc, fun h => Bool.eq_false_iff.1 h hwait⟩⟩)

theorem timeTimer_due (hdue : ∀ a, s.fab.time.exchAt = some a → a + rf s rEpTimeCtrl 0 15 0 * 1000 ≤ s.now) : timeTimer s =
    let w := modTime s fun t => { t with exchAt := some s.now }
    if isMgr w then
      (if timeState w ≠ 2 then w
      else ((tkeys w.ce.members fun _ => true).filter (· != self w)).foldl (fun s d => timeSend s ptTimeSync d s.now) w)
    else modTime w fun t => { t with waiting := true } := by
  refine if_neg ?_
  cases ha : s.fab.time.exchAt with
  | none => exact fun h => absurd h.symm (Option.some_ne_none true)
  | some a => exact fun h => Nat.not_lt.2 (hdue a ha) (of_decide_eq_true (Option.some.inj h))

theorem holdoverEntry_due (hmgr : isMgr s = false) (hst : timeState s = 2)
    (hdue : s.fab.time.lastSample + 16 * rf s rEpTimeCtrl 0 15 0 * 1000 ≤ s.now) : holdoverEntry s = timeSet s 3 :=
  if_neg (not_or.2 ⟨Bool.eq_false_iff.1 hmgr, not_or.2 ⟨not_not.2 hst, Nat.not_lt.2 hdue⟩⟩)

theorem holdoverLimit_due (hst : timeState s = 3) (hdue : s.fab.time.holdAt + 10000000000 ≤ s.now) : holdoverLimit s = timeSet s 1 :=
  if_neg (not_or.2 ⟨not_not.2 hst, Nat.not_lt.2 hdue⟩)

/-- A pulse at the manager, where it follows the pulses. -/
theorem ppsEdge_follows :
    let v := raiseEdge s irqPps
    isMgr v = true → v.gl.phase = 2 → rbit v rEpTimeCtrl 0 16 = true →
    let w := (fresh v).2
    let up := w.now % 1000000000 > 500000000 || (w.now % 1000000000 == 500000000 && (fresh v).1.toNat % 2 == 1)
    ppsEdge s = if w.fab.time.locked = true ∨ timeState w = 2 ∨ (w.gl.warm = true ∧ w.fab.time.refLoss = false) then
        steer w ((w.now % 1000000000 : Nat) - (b2n up * 1000000000 : Nat))
      else timeSet { w with now := (w.now / 1000000000 + b2n up) * 1000000000 } 2 := by
  intro v hmgr hphase hon
  exact if_neg (not_or.2 ⟨fun h => Bool.eq_false_iff.1 h hmgr, not_or.2 ⟨not_not.2 hphase, fun h => Bool.eq_false_iff.1 h hon⟩⟩)

end

/-- Settles O58: each row where its condition holds. -/
theorem fabricRowsComplete : Obligations.FabricRowsComplete := by
  unfold Obligations.FabricRowsComplete
  intro s t hphase u
  refine ⟨fun port fr f v w r hport hself hup hf hlife hdst hroute httl => ?relay, fun port k d hport hup hkey hclass hnew => ?egress,
    fun src req x hcheck => ?pane, fun id te j hj hqueued hwork => ?computed,
    fun port fr p v hp => ⟨fun htype hmgr hsrc => ?sync, fun htype hmgr hst => ?delayReq, fun htype hmgr hsrc hwait => ?delayResp⟩,
    fun hdue => ⟨fun hmgr hst => ?exchange, fun hmgr => ?wait⟩, fun hmgr hst hdue => ?holdover, fun hst hdue => ?limit, ?pps⟩
  case relay =>
    intro ups hsome out
    show execRelayForward t port fr s = _
    exact running_next hphase ((arrive_dropped (receive_relays _ hport hself hup hf hlife hdst)).trans (relay_routed hroute httl hsome))
  case egress =>
    have hnext := egressNext_class hport hup hkey hclass
    show execEgressNextFrame t port s = _
    exact running_next hphase ((egressRun_new (hnext ▸ hnew)).trans hnext)
  case pane =>
    show execPaneRequest t src req x s = _
    exact running_next hphase (paneRequest_passed hcheck)
  case computed =>
    show execPaneComputed t id te s = _
    exact running_next hphase (paneComputed_done hj hqueued hwork)
  case sync =>
    show execTimeSync t port fr s = _
    exact arrive_next hphase hp (by rw [htype]; rfl) (timeSync_member hmgr hsrc)
  case delayReq =>
    show execTimeDelayReq t port fr s = _
    exact arrive_next hphase hp (by rw [htype]; rfl) (if_pos ⟨hmgr, hst⟩)
  case delayResp =>
    show execTimeDelayResp t port fr s = _
    exact arrive_next hphase hp (by rw [htype]; rfl) (timeResp_waited hmgr hsrc hwait)
  case exchange =>
    show execTimeExchangeTimer t s = _
    exact running_next hphase ((timeTimer_due hdue).trans ((if_pos hmgr).trans (if_neg (not_not.2 hst))))
  case wait =>
    show execTimeExchangeTimer t s = _
    exact running_next hphase ((timeTimer_due hdue).trans (if_neg (Bool.eq_false_iff.1 hmgr)))
  case holdover =>
    show execHoldoverEntry t s = _
    exact running_next hphase (holdoverEntry_due hmgr hst hdue)
  case limit =>
    show execHoldoverLimit t s = _
    exact running_next hphase (holdoverLimit_due hst hdue)
  case pps =>
    intro v hmgr hup hon
    show execPpsInEdge t s = _
    exact running_next hphase (ppsEdge_follows hmgr hup hon)

end Sys2Proof.Machine
end

section
/-! Unit and register rows (R8, R9, R89, R180, R204, R261, R266, R383, R384, R390, R393, R419, R457). -/
namespace Sys2Proof.Machine

/-! ### Registers that the host writes by rows of their own -/

theorem firmwareOwned_rSpApt2 {a : Nat} (ha : a < 256) : firmwareOwned rSpApt2 a = false := by
  have howned : firmwareOwned rSpApt2 a = (isReg coreRegs (0x981010 + a * 0x20) || false) := rfl
  rw [howned, isReg_coreRegs_outside _ (by omega), Bool.or_false]

theorem firmwareOwned_rXeArmCtr {i : Nat} (h16 : 16 ≤ i) : firmwareOwned rXeArmCtr i = false := by
  have howned : firmwareOwned rXeArmCtr i = (decide (i < 16) || false || false || isReg coreRegs (0x448000 + i * 0x8) || false) := rfl
  rw [howned, isReg_coreRegs_outside _ (by omega), decide_eq_false (by omega)]
  rfl

section
variable {s : State} {w : Word}

theorem writeReg_rSpApt2 {a : Nat} (ha : a < 256) (hdef : w.toNat &&& definedMask rSpApt2 = w.toNat) :
    writeReg s rSpApt2 a 0 w true false = aptWrite s a w.toNat := by
  have h : writeReg s rSpApt2 a 0 w true false = if (w.toNat &&& definedMask rSpApt2) ≠ w.toNat then rsvdWrite s
      else if (firmwareOwned rSpApt2 a && true) = true then rsvdWrite s else aptWrite s a w.toNat := rfl
  rw [h, if_neg (not_not_intro hdef), firmwareOwned_rSpApt2 ha]
  rfl

theorem writeReg_rXeArmCtr {i : Nat} (h16 : 16 ≤ i) (hdef : w.toNat &&& definedMask rXeArmCtr = w.toNat) :
    writeReg s rXeArmCtr i 0 w true false = plainWrite s rXeArmCtr i 0 w := by
  have h : writeReg s rXeArmCtr i 0 w true false = if (w.toNat &&& definedMask rXeArmCtr) ≠ w.toNat then rsvdWrite s
      else if (firmwareOwned rXeArmCtr i && true) = true then rsvdWrite s else plainWrite s rXeArmCtr i 0 w := rfl
  rw [h, if_neg (not_not_intro hdef), firmwareOwned_rXeArmCtr h16]
  rfl

theorem writeReg_rScTamper (hdef : w.toNat &&& definedMask rScTamper = w.toNat) :
    writeReg s rScTamper 0 0 w true false = tamperWrite s w.toNat := by
  have h : writeReg s rScTamper 0 0 w true false = if (w.toNat &&& definedMask rScTamper) ≠ w.toNat then rsvdWrite s
      else if (firmwareOwned rScTamper 0 && true) = true then rsvdWrite s else tamperWrite s w.toNat := rfl
  rw [h, if_neg (not_not_intro hdef)]
  exact if_neg (by decide)

theorem writeReg_rPmHoldupCfg (hdef : w.toNat &&& definedMask rPmHoldupCfg = w.toNat) :
    writeReg s rPmHoldupCfg 0 0 w true false = holdupWrite s rPmHoldupCfg w := by
  have h : writeReg s rPmHoldupCfg 0 0 w true false = if (w.toNat &&& definedMask rPmHoldupCfg) ≠ w.toNat then rsvdWrite s
      else if (firmwareOwned rPmHoldupCfg 0 && true) = true then rsvdWrite s else holdupWrite s rPmHoldupCfg w := rfl
  rw [h, if_neg (not_not_intro hdef)]
  exact if_neg (by decide)

theorem writeReg_rPmHoldupReq (hdef : w.toNat &&& definedMask rPmHoldupReq = w.toNat) :
    writeReg s rPmHoldupReq 0 0 w true false = holdupWrite s rPmHoldupReq w := by
  have h : writeReg s rPmHoldupReq 0 0 w true false = if (w.toNat &&& definedMask rPmHoldupReq) ≠ w.toNat then rsvdWrite s
      else if (firmwareOwned rPmHoldupReq 0 && true) = true then rsvdWrite s else holdupWrite s rPmHoldupReq w := rfl
  rw [h, if_neg (not_not_intro hdef)]
  exact if_neg (by decide)

/-! ### Apertures -/

/-- Setting ENABLE of an aperture in a state that allows it takes its frames (R383). -/
theorem aptWrite_enable {a v : Nat} (hoff : rbit s rSpApt2 a 0 = false) (hon : v % 2 = 1)
    (hok : aptOk s a (bits (v % 2 ^ 16) 10 3) = true) : aptWrite s a v =
    (aptFrames s a).foldl lease (wrReg s rSpApt2 a 0 (word (v % 2 ^ 16))) := by
  have hold : (rdReg s rSpApt2 a 0).toNat % 2 ≠ 1 := by
    rw [rbit, wbit, bit_eq_div_mod] at hoff
    simpa using hoff
  have hnew : v % 2 ^ 16 % 2 ≠ 0 := by omega
  exact (if_neg hold).trans ((if_neg hnew).trans (if_pos hok))

/-- A read through the aperture that takes it. -/
theorem bar2_reads {off n a : Nat} (hoff : off < 0x200000000) (ha : aptFor s off n false = some a) :
    let at_ := aptTarget s a + (off - aptBase s a * 0x10000)
    bar2 s off none n false = toHost (touchSpan s (rf s rSpApt2 a 10 3) (at_, n)) (.completion (some (rdMem s at_ n))) := by
  simp only [bar2, ha]
  exact if_pos hoff

/-- A write through the aperture that takes it. -/
theorem bar2_writes {off n a : Nat} {b : List Byte} (hoff : off < 0x200000000) (ha : aptFor s off b.length true = some a) :
    let at_ := aptTarget s a + (off - aptBase s a * 0x10000)
    let w := touchSpan (writeClear s at_ b) (rf s rSpApt2 a 10 3) (at_, b.length)
    bar2 s off (some b) n false =
      if rbit w rSpApt2 a 11 && decide (off + b.length > (aptBase w a + aptSize w a) * 0x10000 - 64) then
        addCtr w (rf w rSpApt2 a 10 3) (rf w rSpApt2 a 15 12) else w := by
  simp only [bar2, ha]
  exact (if_neg Bool.false_ne_true).trans (if_neg (Nat.not_le.2 hoff))

/-! ### Units -/

theorem unitReset_context {cls n : Nat} (hn : n < unitCount cls) (hctx : rbit s (contextReg cls) n 8 = true) :
    let c := rf s (contextReg cls) n 7 0
    let x := chargeUnit s cls n c (if cls = 0 then engineNs s (accCycles (tget s.mt.teLive n)) else if cls = 3 then 8 else engineNs s 8)
    unitReset s cls n = if cls = 0 then accSave x n c else x :=
  if_neg (not_or.2 ⟨Nat.not_le.2 hn, fun h => Bool.eq_false_iff.1 h hctx⟩)

theorem retrainWrite_on {n : Nat} (hn : n < 24) (hon : rbit s rEpCtrl n 0 = true) :
    retrainWrite s n = if portUp s n then retrainUp s n else trainStart s n :=
  if_neg (not_or.2 ⟨Nat.not_le.2 hn, fun h => Bool.eq_false_iff.1 h hon⟩)

theorem lcGo_passed (hfree : rbit s rScLcStatus 0 0 = false) (hcheck : lcCheck s = none) : lcGo s =
    newNonce (flashDue (wf s rScLcStatus 0 0 0 1) (.lifecycle (leAt (lcToken s) 0 1 % 8) (slice (lcToken s) 0x20 48))) := by
  simp only [lcGo, hcheck]
  exact if_neg (Bool.eq_false_iff.1 hfree)

/-! ### The bus and the mailbox -/

/-- An access of four or eight bytes, aligned and inside BAR0, passes the guard of the bus. -/
theorem bus_guard {a n : Nat} (hn : n = 4 ∨ n = 8) (halign : a % n = 0) (ha : a < 0x4000000) :
    (!(n == 4 || n == 8) || a % n != 0 || decide (0x4000000 ≤ a)) = false := by
  rw [halign, decide_eq_false (Nat.not_le.2 ha)]
  rcases hn with rfl | rfl <;> rfl

variable {a n : Nat} {d : RegDesc} {i k : Nat}

section
variable (hphase : s.gl.phase = 2) (hn : n = 4 ∨ n = 8) (halign : a % n = 0) (ha : a < 0x4000000)
  (hd : findReg (a - a % 8) allRegs = some (d, i, k))
include hphase hn halign ha hd

theorem busWrite_found (v : Nat) (core : Bool) :
    let keep := word ((rdReg s d i k).toNat &&& accMask d fun x => x == .rw || x == .rwl)
    busWrite s a n v core = writeReg s d i k
      (if n = 8 then word v else if a % 8 = 0 then setFld keep 31 0 v else setFld keep 63 32 v) (n == 8 || a % 8 == 0) core := by
  simp only [busWrite, hd]
  exact (if_neg (Bool.eq_false_iff.1 (bus_guard hn halign ha))).trans (if_neg fun h => h.1 hphase)

theorem busRead_found (core : Bool) :
    let x := readEffect s d i k (decide (a % 8 = 0)) (decide (n = 8 ∨ a % 8 = 4))
    busRead s a n core = if core then x
      else toHost x (.completion (some (toLE n ((readReg s d i k).toNat / 2 ^ (8 * (a % 8)))))) := by
  have hread : readable s (a - a % 8) = some (d, i, k) := (if_neg fun h => h.1 hphase).trans hd
  simp only [busRead, hread]
  exact if_neg (Bool.eq_false_iff.1 (bus_guard hn halign ha))

end

/-- A register that a read leaves alone: no claim, no count that a read clears. -/
theorem readEffect_none (lo hi : Bool) (hclaim : d.base ≠ rIcCoreClaim.base) (hlost : d.base ≠ rEqStatus.base)
    (hrc : ∀ f ∈ d.fields, f.acc ≠ .rc) : readEffect s d i k lo hi = s := by
  have hnone : ¬(d.fields.any fun f => f.acc == .rc) = true := by
    intro h
    obtain ⟨f, hf, hacc⟩ := List.any_eq_true.1 h
    exact hrc f hf (beq_iff_eq.1 hacc)
  exact (if_neg hclaim).trans ((if_neg hlost).trans (if_neg hnone))

theorem mbRead_found (hoff : s.gl.mbOffset = some a) (hserved : mbServed a = true) (hup : rbit s rGlStatus 0 0 = true)
    (hd : findReg a allRegs = some (d, i, k)) : mbRead s = modGlobal s fun g => { g with
      mbOut := (0, readReg s d i k) :: g.mbOut
      predictAt := if 0xA80000 ≤ a ∧ a < 0xAA0000 then none else g.predictAt } := by
  simp only [mbRead, modGlobal, modGl, hoff, hserved, hup, hd, Bool.true_eq_false, false_and, if_false, true_and, Option.getD_some]

end

/-- Settles O38: each row where it acts on the register it names. -/
theorem registerRowsComplete : Obligations.RegisterRowsComplete := by
  unfold Obligations.RegisterRowsComplete
  intro s t hphase u
  have hup : u.gl.phase = 2 := (congrArg (·.phase) (tick_gl s t)).trans hphase
  refine ⟨fun cls n hn hctx => ?reset, fun cls n hn => ?offline, fun cls n on hn => ?enable, fun n hn hon => ?retrain, ?lock,
    fun ns hfree => ?timeSet, fun hfree hcheck => ?go, fun w hdef => ?tamper, fun a w ha hdef hoff hon hok => ?aperture,
    fun cfg w => ?holdup, fun i w h16 hi hdef => ?counter, fun a n v core d i k hn halign ha hd => ?write,
    fun a n d i k hn halign ha hd => ⟨?readCore, ?readHost, fun hclaim hlost hrc => ?readPlain⟩, fun off n a hoff ha => ?aptRead,
    fun off n a b hoff ha => ?aptWrite, fun off => ?mbOffset, fun a i k d hoff hserved hup hd => ?mbRead⟩
  case reset =>
    show execUnitReset t cls n s = _
    exact running_next hphase (unitReset_context hn hctx)
  case offline =>
    show execOfflineClr t cls n s = _
    exact running_next hphase (if_pos hn)
  case enable =>
    show execUnitEnable t cls n on s = _
    exact running_next hphase (if_neg (Nat.not_le.2 hn))
  case retrain =>
    show execRetrain t n s = _
    exact running_next hphase (retrainWrite_on hn hon)
  case lock =>
    show execEpSelfLock t s = _
    exact running_next hphase rfl
  case timeSet =>
    show execEpTimeSet t ns s = _
    exact running_next hphase (if_neg (Bool.eq_false_iff.1 hfree))
  case go =>
    show execGo t s = _
    exact always_next (lcGo_passed hfree hcheck)
  case tamper =>
    show execTamperLatchClear t w s = _
    exact always_next (writeReg_rScTamper hdef)
  case aperture =>
    show execApertureEnable t a w s = _
    have hword : (word w).toNat % 2 = 1 := by
      rw [BitVec.toNat_ofNat]
      omega
    exact running_next hphase ((writeReg_rSpApt2 ha hdef).trans (aptWrite_enable hoff hword hok))
  case holdup =>
    intro d x hdef hrange
    show execHoldupConfigWrite t cfg w s = _
    cases cfg with
    | true => exact running_next hphase ((writeReg_rPmHoldupCfg hdef).trans (if_pos hrange))
    | false => exact running_next hphase ((writeReg_rPmHoldupReq hdef).trans (if_pos hrange))
  case counter =>
    show execArmCounterWrite t i w s = _
    exact running_next hphase (writeReg_rXeArmCtr h16 hdef)
  case write =>
    show execRegisterWrite t a n (some v) core s = _
    exact always_next (busWrite_found (s := u) hup hn halign ha hd v core)
  case readCore =>
    show execRegisterWrite t a n none true s = _
    exact always_next (busRead_found (s := u) hup hn halign ha hd true)
  case readHost =>
    show execRegisterWrite t a n none false s = _
    exact always_next (busRead_found (s := u) hup hn halign ha hd false)
  case readPlain => exact readEffect_none _ _ hclaim hlost hrc
  case aptRead =>
    show execBar2Request t off none n false s = _
    exact running_next hphase (bar2_reads hoff ha)
  case aptWrite =>
    show execBar2Request t off (some b) n false s = _
    exact running_next hphase (bar2_writes hoff ha)
  case mbOffset =>
    show execMbSetOffset t off s = _
    exact always_next rfl
  case mbRead =>
    show execMbReadRegister t s = _
    exact always_next (mbRead_found hoff hserved hup hd)

end Sys2Proof.Machine
end

section
/-! The access codes of fields (R8), and writes of reserved fields (R9). -/
namespace Sys2Proof.Machine

/-! ### Bits of words and fields -/

theorem bit_eq_testBit (w n : Nat) : bit w n = w.testBit n := by
  rw [bit, Nat.shiftRight_eq_div_pow, Nat.testBit_eq_decide_div_mod_eq]
  exact Bool.eq_iff_iff.2 (by simp)

/-- A bit of a field, by its place in the field. -/
theorem testBit_bits (w hi lo b : Nat) (hb : lo ≤ b) (hb' : b ≤ hi) : (bits w hi lo).testBit (b - lo) = bit w b := by
  rw [bit_eq_testBit, bits, Nat.testBit_mod_two_pow, Nat.testBit_shiftRight, Nat.add_sub_of_le hb, decide_eq_true (by omega), Bool.true_and]

/-- A bit inside the field set is the bit of the value set. -/
theorem wbit_setFld_inside (w : Word) (hi lo v b : Nat) (hhi : hi < 64) (hb : lo ≤ b) (hb' : b ≤ hi) :
    wbit (setFld w hi lo v) b = v.testBit (b - lo) := by
  rw [wbit, setFld_toNat w hi lo v hhi (hb.trans hb'), ← testBit_bits _ hi lo b hb hb', bits_setBits, Nat.testBit_mod_two_pow,
    decide_eq_true (by omega), Bool.true_and]

theorem testBit_fld (w : Word) (hi lo b : Nat) (hb : lo ≤ b) (hb' : b ≤ hi) : (fld w hi lo).testBit (b - lo) = wbit w b :=
  testBit_bits w.toNat hi lo b hb hb'

theorem fld_lt (w : Word) (hi lo : Nat) : fld w hi lo < 2 ^ (hi + 1 - lo) :=
  Nat.mod_lt _ (Nat.two_pow_pos _)

/-! ### One field after the other -/

/-- What a write of w over old makes of the bit it finds, by the field's access code. -/
def bitWritten (locked : Bool) (acc : Access) (old new : Bool) : Bool :=
  match acc with
  | .rw => new
  | .rwl => if locked then old else new
  | .w1c => old && !new
  | .w1s => old || new
  | .ro | .wo | .rc => old

/-- The part of fieldsWritten that is one field's. -/
def fieldWritten (s : State) (d : RegDesc) (old w v : Word) (f : RegField) : Word :=
  match f.acc with
  | .rw => setFld v f.hi f.lo (fld w f.hi f.lo)
  | .rwl => if regLocked s d then v else setFld v f.hi f.lo (fld w f.hi f.lo)
  | .w1s => setFld v f.hi f.lo (fld old f.hi f.lo ||| fld w f.hi f.lo)
  | .w1c => setFld v f.hi f.lo (fld old f.hi f.lo &&& (2 ^ (f.hi + 1 - f.lo) - 1 - fld w f.hi f.lo))
  | .ro | .wo | .rc => v

theorem fieldsWritten_eq_foldl (s : State) (d : RegDesc) (old w : Word) :
    fieldsWritten s d old w = d.fields.foldl (fieldWritten s d old w) old := rfl

section
variable (s : State) (d : RegDesc) (old w v : Word) {f : RegField} {b : Nat}

/-- Bits beside the field stay. -/
theorem wbit_fieldWritten_outside (hhi : f.hi < 64) (hl : f.lo ≤ f.hi) (hb : b < f.lo ∨ f.hi < b) :
    wbit (fieldWritten s d old w v f) b = wbit v b := by
  have hset (x : Nat) : wbit (setFld v f.hi f.lo x) b = wbit v b := wbit_setFld_other v f.hi f.lo x b hhi hl hb
  unfold fieldWritten
  cases f.acc with
  | rw => exact hset _
  | rwl =>
    cases regLocked s d with
    | true => rfl
    | false => exact hset _
  | w1s => exact hset _
  | w1c => exact hset _
  | ro => rfl
  | wo => rfl
  | rc => rfl

/-- Bits of the field are written by its access code. -/
theorem wbit_fieldWritten_inside (hhi : f.hi < 64) (hb : f.lo ≤ b) (hb' : b ≤ f.hi) (hv : wbit v b = wbit old b) :
    wbit (fieldWritten s d old w v f) b = bitWritten (regLocked s d) f.acc (wbit old b) (wbit w b) := by
  have hset (x : Nat) : wbit (setFld v f.hi f.lo x) b = x.testBit (b - f.lo) := wbit_setFld_inside v f.hi f.lo x b hhi hb hb'
  unfold fieldWritten bitWritten
  cases f.acc with
  | rw => exact (hset _).trans (testBit_fld w f.hi f.lo b hb hb')
  | rwl =>
    cases regLocked s d with
    | true => exact hv
    | false => exact (hset _).trans (testBit_fld w f.hi f.lo b hb hb')
  | w1s => exact (hset _).trans (by rw [Nat.testBit_or, testBit_fld old _ _ b hb hb', testBit_fld w _ _ b hb hb'])
  | w1c =>
    refine (hset _).trans ?_
    rw [Nat.testBit_and, Nat.sub_sub, Nat.add_comm 1, Nat.testBit_two_pow_sub_succ (fld_lt w f.hi f.lo), testBit_fld old _ _ b hb hb',
      testBit_fld w _ _ b hb hb', decide_eq_true (by omega), Bool.true_and]
  | ro => exact hv
  | wo => exact hv
  | rc => exact hv

/-- Fields that all lie beside a bit leave it. -/
theorem wbit_foldl_outside (fields : List RegField) (v : Word) (hf : ∀ f ∈ fields, f.hi < 64 ∧ f.lo ≤ f.hi ∧ (b < f.lo ∨ f.hi < b)) :
    wbit (fields.foldl (fieldWritten s d old w) v) b = wbit v b := by
  induction fields generalizing v with
  | nil => rfl
  | cons f fs ih =>
    obtain ⟨⟨hhi, hl, hb⟩, hfs⟩ := List.forall_mem_cons.1 hf
    rw [List.foldl_cons, ih _ hfs, wbit_fieldWritten_outside s d old w v hhi hl hb]

/-- Of fields that lie apart, the one that holds a bit decides it. -/
theorem wbit_foldl_inside (fields : List RegField) (v : Word) (hf : ∀ f ∈ fields, f.lo ≤ f.hi ∧ f.hi < 64)
    (hapart : fields.Pairwise fun f g => f.hi < g.lo ∨ g.hi < f.lo) (hmem : f ∈ fields) (hb : f.lo ≤ b) (hb' : b ≤ f.hi)
    (hv : wbit v b = wbit old b) :
    wbit (fields.foldl (fieldWritten s d old w) v) b = bitWritten (regLocked s d) f.acc (wbit old b) (wbit w b) := by
  induction fields generalizing v with
  | nil => exact absurd hmem List.not_mem_nil
  | cons g gs ih =>
    obtain ⟨⟨hl, hhi⟩, hgs⟩ := List.forall_mem_cons.1 hf
    obtain ⟨hg, hapart'⟩ := List.pairwise_cons.1 hapart
    rw [List.foldl_cons]
    rcases List.mem_cons.1 hmem with rfl | hmem'
    · rw [wbit_foldl_outside s d old w gs _ fun x hx => ⟨(hgs x hx).2, (hgs x hx).1, by have := hg x hx; omega⟩]
      exact wbit_fieldWritten_inside s d old w v hhi hb hb' hv
    · refine ih _ hgs hapart' hmem' ?_
      have := hg f hmem'
      rw [wbit_fieldWritten_outside s d old w v hhi hl (by omega), hv]

end

/-- The fields of every register are runs of bits of its word, and lie apart. -/
theorem allRegs_fields_apart : ∀ d ∈ allRegs, (∀ f ∈ d.fields, f.lo ≤ f.hi ∧ f.hi < 64) ∧
    d.fields.Pairwise (fun f g => f.hi < g.lo ∨ g.hi < f.lo) := by decide +kernel

/-- Settles O14: a bit belongs to one field, whose access code decides it. -/
theorem fieldAccess : Obligations.FieldAccess := by
  unfold Obligations.FieldAccess
  intro s d f old w b hd hmem hb hb'
  obtain ⟨hf, hapart⟩ := allRegs_fields_apart d hd
  rw [fieldsWritten_eq_foldl, wbit_foldl_inside s d old w d.fields old hf hapart hmem hb hb' rfl]
  cases f.acc <;> rfl

/-! ### A write of a reserved field -/

/-- What a reserved write records: the register file and the interrupt controller. -/
theorem rsvdWrite_eq (s : State) : ∃ (g : NTable Word) (x : IntrS), rsvdWrite s = { s with regs := g, intr := x } := by
  obtain ⟨x, hx⟩ := sampleLevel_eq (wrReg s rGlErr 0 0 (word ((rdReg s rGlErr 0 0).toNat ||| 2 ^ 0))) irqGlErr
  exact ⟨_, x, hx⟩

theorem rbit_rsvdWrite (s : State) : rbit (rsvdWrite s) rGlErr 0 0 = true := by
  unfold rsvdWrite setErr rbit
  rw [rdReg_congr (sampleLevel_regs _ _), rdReg_wrReg, wbit, bit_eq_testBit, BitVec.toNat_ofNat, Nat.testBit_mod_two_pow, Nat.testBit_or]
  simp

/-- A word with a bit outside the defined fields is no write of the register. -/
theorem writeReg_reserved (s : State) (d : RegDesc) (i k : Nat) (w : Word) (lo core : Bool) (hrsvd : w.toNat &&& definedMask d ≠ w.toNat) :
    writeReg s d i k w lo core = rsvdWrite s := by
  have hzero : w ≠ 0 := by
    rintro rfl
    exact hrsvd (Nat.zero_and _)
  exact (ite_congr rfl (fun _ => if_neg hzero) fun _ => if_pos hrsvd).trans (ite_self (rsvdWrite s))

/-- Settles O15: the bus finds the register, and the write is refused as reserved. -/
theorem reservedFieldWrite : Obligations.ReservedFieldWrite := by
  unfold Obligations.ReservedFieldWrite
  intro s t a n v core d i k hphase u keep w hn halign ha hd hrsvd
  have hup : u.gl.phase = 2 := (congrArg (·.phase) (tick_gl s t)).trans hphase
  obtain ⟨g, x, hr⟩ := rsvdWrite_eq u
  refine ⟨g, x, ?_⟩
  rw [← hr]
  refine ⟨?_, rbit_rsvdWrite u, fun e j l hother => rdReg_rsvdWrite_ne u e j l hother⟩
  rw [exec_registerWrite, busWrite_found (s := u) hup hn halign ha hd v core, writeReg_reserved u d i k w _ core hrsvd]

end Sys2Proof.Machine
end

section
/-! Writes through an aperture (R383, R384), and what an access to memory leaves alone. -/
namespace Sys2Proof.Machine

/-- A state is another one but for registers, the record of sharing and the global record. -/
def OnlyMeters (s r : State) : Prop := ∃ g m gl, r = { s with regs := g, mt := m, gl := gl }

namespace OnlyMeters

theorem refl (s : State) : OnlyMeters s s := ⟨s.regs, s.mt, s.gl, rfl⟩

theorem trans {s r u : State} (h : OnlyMeters s r) (h' : OnlyMeters r u) : OnlyMeters s u := by
  obtain ⟨_, _, _, rfl⟩ := h
  obtain ⟨g, m, gl, rfl⟩ := h'
  exact ⟨g, m, gl, rfl⟩

theorem wrReg (s : State) (d : RegDesc) (i k : Nat) (w : Word) : OnlyMeters s (wrReg s d i k w) := ⟨_, s.mt, s.gl, rfl⟩

theorem wf (s : State) (d : RegDesc) (i hi lo v : Nat) : OnlyMeters s (wf s d i hi lo v) := wrReg s d i 0 _

theorem modMt (s : State) (f : ShareS → ShareS) : OnlyMeters s (modMt s f) := ⟨s.regs, _, s.gl, rfl⟩

theorem modSleep (s : State) (f : SleepS → SleepS) : OnlyMeters s (modSleep s f) := ⟨s.regs, s.mt, _, rfl⟩

end OnlyMeters

/-! ### Accesses to stacks and SRAM -/

theorem stackWake_onlyMeters (s : State) (k : Nat) : OnlyMeters s (stackWake s k) := by
  simp only [stackWake]
  split
  · exact (OnlyMeters.modMt s _).trans (.wf _ _ _ _ _ _)
  · exact .modMt s _

theorem stackAccess_onlyMeters (s : State) (c a n : Nat) : OnlyMeters s (stackAccess s c a n) := by
  simp only [stackAccess]
  split
  · exact ((OnlyMeters.wrReg s _ _ _ _).trans (.wrReg _ _ _ _ _)).trans (stackWake_onlyMeters _ _)
  · exact .refl s

theorem bankWake_onlyMeters (s : State) (b : Nat) : OnlyMeters s (bankWake s b) := by
  simp only [bankWake]
  split
  · exact (OnlyMeters.modMt s _).trans (.modSleep _ _)
  · exact .modMt s _

theorem sramAccess_onlyMeters (s : State) (a n : Nat) : OnlyMeters s (sramAccess s a n) := by
  simp only [sramAccess]
  split
  · exact foldl_related bankWake .refl (fun _ _ _ => .trans) bankWake_onlyMeters _ s
  · exact .refl s

/-- A span touched wakes what holds it and is counted; it changes no byte. -/
theorem touchSpan_onlyMeters (s : State) (c : Nat) (x : Nat × Nat) : OnlyMeters s (touchSpan s c x) := by
  unfold touchSpan
  split
  · exact .refl s
  · split
    · exact stackAccess_onlyMeters s c x.1 x.2
    · exact sramAccess_onlyMeters s x.1 x.2
    · exact .refl s

/-- Bytes written with their poison cleared: memory and the list of poisoned lines. -/
theorem writeClear_eq (s : State) (a : Nat) (b : List Byte) :
    ∃ p, writeClear s a b = { s with mem := writeBytes s.mem a b, pg := { s.pg with poison := p } } := ⟨_, rfl⟩

/-! ### The write -/

/-- A write through the aperture that takes it: the bytes, their poison, meters and registers, and nothing else. -/
theorem bar2_write_eq {s : State} {off n a : Nat} {b : List Byte} (hoff : off < 0x200000000) (ha : aptFor s off b.length true = some a) :
    ∃ p, OnlyMeters { s with
        mem := writeBytes s.mem (aptTarget s a + (off - aptBase s a * 0x10000)) b, pg := { s.pg with poison := p } }
      (bar2 s off (some b) n false) := by
  obtain ⟨p, hp⟩ := writeClear_eq s (aptTarget s a + (off - aptBase s a * 0x10000)) b
  refine ⟨p, ?_⟩
  rw [← hp, bar2_writes hoff ha]
  have htouch := touchSpan_onlyMeters (writeClear s (aptTarget s a + (off - aptBase s a * 0x10000)) b) (rf s rSpApt2 a 10 3)
    (aptTarget s a + (off - aptBase s a * 0x10000), b.length)
  split
  · exact htouch.trans (.wf _ _ _ _ _ _)
  · exact htouch

/-- Settles O22: the memory written is read back, every other byte stays, and a miss only reports. -/
theorem apertureWrite : Obligations.ApertureWrite := by
  unfold Obligations.ApertureWrite
  intro s t off n b hphase hcanon hoff u
  refine ⟨fun a ha => ?hit, fun ha => ?miss⟩
  case hit =>
    intro at_
    have hwf : memWf s.mem = true := (Bool.and_eq_true_iff.1 hcanon).1
    obtain ⟨p, g, m, gl, hr⟩ := bar2_write_eq (n := n) hoff ha
    refine ⟨bar2 u off (some b) n false, running_runs s t (fun u => bar2 u off (some b) n false) hphase, ?_⟩
    rw [hr]
    have hmem : u.mem = s.mem := tick_mem s t
    refine ⟨?_, fun x hx => ?_, ?_, congrArg (·.frames) (tick_pg s t), congrArg (·.seqs) (tick_pg s t), tick_st s t, tick_ce s t, tick_host s t⟩
    · show readBytes (writeBytes u.mem at_ b) at_ b.length = b
      rw [hmem, readBytes_writeBytes b s.mem at_ hwf]
    · show readByte (writeBytes u.mem at_ b) x = readByte s.mem x
      rw [hmem, readByte_writeBytes_out b s.mem at_ x hx hwf]
    · show memWf (writeBytes u.mem at_ b) = true
      rw [hmem]
      exact memWf_writeBytes b s.mem at_ hwf
  case miss =>
    show execBar2Request t off (some b) n false s = _
    refine running_next hphase ?_
    simp only [bar2, show aptFor (tick s t) off b.length true = none from ha]
    exact (if_neg Bool.false_ne_true).trans (if_neg (Nat.not_le.2 hoff))

end Sys2Proof.Machine
end

section
/-! Sequence commands (R16, R47, R53, R61, R166–R169, R271, R354), where their checks pass. -/
namespace Sys2Proof.Machine

/-- A command of a sequence that this controller owns, by what its opcode makes of the sequence's record. -/
theorem latched_next {op : Nat} {c : Cmd} {s r : State} {x : Seq} (hop : op ≠ 0x5A) (hop' : op ≠ 0x5C) (h : passes op c s)
    (hrun : opRun op c s = runOp op noRange (latched op) c s)
    (hown : ownedHere (taken op c s) (withOpcode c op) (fld (withOpcode c op).w1 31 0) x)
    (hact : actSeq op s.host.cmdCtr (withOpcode c op) x (taken op c s) = r) : hosted op c s = .next (after s r) :=
  hosted_next h hrun ((latched_taken hop hop' hown).trans hact)

section
variable {id : Nat} {k : Cmd} {s : State}

/-- A sequence whose parameters pass their checks, and whose reserve there is. -/
theorem opSeqCreate_checked {rs : List Reserve} {t : State}
    (hgeo : geometryCheck (createGeo k).layers (createGeo k).kvHeads (createGeo k).hpp (createGeo k).headDim (createGeo k).format = none)
    (hctx : cCtx k ≠ 0) (hspill : fld k.w1 54 53 ≠ 3) (hpartner : partnerOk s k = true)
    (himage : wbit k.w1 60 = true → imageReady s (cCtx k) (fld k.w2 7 0) = true)
    (hadapter : wbit k.w1 61 = true → (adapterNow s (cCtx k) (fld k.w2 23 8)).isSome = true) (hroom : descCount s < 262144)
    (htake : takeReserve s (cCtx k) 0 (cells (createGeo k)) = some (rs, t)) : opSeqCreate id k s =
    createBegin t id (createRec t k (((adapterNow s (cCtx k) (fld k.w2 23 8)).map (·.2.version)).getD 0) rs) := by
  have hgood : ¬(cCtx k = 0 ∨ fld k.w1 54 53 = 3 ∨ partnerOk s k = false ∨
      (wbit k.w1 60 = true ∧ imageReady s (cCtx k) (fld k.w2 7 0) = false) ∨
      (wbit k.w1 61 = true ∧ (adapterNow s (cCtx k) (fld k.w2 23 8)).isNone = true)) := by
    rintro (h | h | h | ⟨h, h'⟩ | ⟨h, h'⟩)
    · exact hctx h
    · exact hspill h
    · exact Bool.eq_false_iff.1 h hpartner
    · exact Bool.eq_false_iff.1 h' (himage h)
    · rw [Option.isNone_iff_eq_none.1 h'] at hadapter
      exact Bool.false_ne_true (hadapter h)
  simp only [opSeqCreate, hgeo, htake]
  exact (if_neg hgood).trans (if_neg (Nat.not_le.2 hroom))

section
variable {x : Seq}

theorem actFork_live (hst : x.st = .runnable ∨ (x.st = .paused ∧ x.pauseCause ≤ 1)) (hlen : fld k.w2 22 0 ≠ 0)
    (hlen' : fld k.w2 22 0 ≤ x.kvLength) (hspill : fld k.w3 1 0 ≠ 3) : actSeq 0x12 id k x s =
    defer (waitFor s id .boundary) (.sequence (fld k.w1 31 0)) (.fork id) := by
  have hlive : (x.st == .runnable || (x.st == .paused && decide (x.pauseCause ≤ 1))) = true := by
    rcases hst with h | ⟨h, h'⟩
    · rw [h]; rfl
    · rw [h, decide_eq_true h']; rfl
  have hgood : decide (fld k.w2 22 0 = 0 ∨ x.kvLength < fld k.w2 22 0 ∨ fld k.w3 1 0 = 3) = false :=
    decide_eq_false (not_or.2 ⟨hlen, not_or.2 ⟨Nat.not_lt.2 hlen', hspill⟩⟩)
  refine (if_neg (by decide)).trans ((if_pos rfl).trans (if_neg ?_))
  rw [hlive, hgood]
  decide

theorem actPause_live (hask : x.pauseAsk = false) (hst : x.st = .runnable ∨ x.st = .starved) : actPause id k x s =
    let q := fld k.w1 31 0
    defer (updSeq (pend s id (.pause q)) q fun y =>
      { y with pauseAsk := true, ttlAsked := if fld k.w2 16 0 = 0 then defaultTtl s x.ctx else fld k.w2 16 0 }) (.sequence q) (.pause q) := by
  refine (if_neg ?_).trans (if_pos hst)
  rw [hask]
  rcases hst with h | h <;> rw [h] <;> decide

theorem actResume_paused {t : State} (hst : x.st = .paused) (hcause : x.pauseCause = 0 ∨ x.pauseCause = 2)
    (hfill : fillReserve s (fld k.w1 31 0) = some t) (hroom : jrRoom (pend t id (.resume (fld k.w1 31 0))) = true) :
    actResume id k x s = resumeGo (pend t id (.resume (fld k.w1 31 0))) (fld k.w1 31 0) := by
  have hbegin : resumeBegin s (fld k.w1 31 0) id = resumeGo (pend t id (.resume (fld k.w1 31 0))) (fld k.w1 31 0) := by
    simp only [resumeBegin, hfill]
    exact if_pos hroom
  refine (if_neg (not_not.2 hst)).trans ((if_neg ?_).trans ((if_neg ?_).trans hbegin))
  · omega
  · omega

theorem actHint_paused (hst : x.st = .paused) (hsum : x.summarised = 0) (hnone : thas s.pg.reports (fld k.w1 31 0) = false) :
    actHint id k x s = finishOk (prefetchAsk s (fld k.w1 31 0) 2 x.expiry) id := by
  refine (if_neg ?_).trans ((if_neg (not_not.2 hst)).trans (if_neg ?_))
  · rw [hst]
    decide
  · exact not_or.2 ⟨not_not.2 hsum, Bool.eq_false_iff.1 hnone⟩

theorem actCancel_live (hlive : seqLive x = true) (hst : x.st ≠ .offered) :
    actCancel id k x s = defer (finishOk s id) (.sequence (fld k.w1 31 0)) (.cancelSeq (fld k.w1 31 0)) :=
  (if_neg fun h => Bool.eq_false_iff.1 h hlive).trans (if_neg hst)

theorem opSeqQuery_known (hx : seqOf s (fld k.w1 31 0) = some x) (hctx : x.ctx = cCtx k) : opSeqQuery id k s =
    finish (cmdWrite s k 2 (seqBytes (fld k.w1 31 0) x)) id sOk 0 (sstateCode x.st + b2n x.lossy * 2 ^ 4) 0 := by
  simp only [opSeqQuery, hx, Option.some_or]
  exact if_neg (not_not.2 hctx)

end

end

/-- Settles O28: each command by its own lemma, of a sequence that the controller owns. -/
theorem sequenceCommandsComplete : Obligations.SequenceCommandsComplete := by
  unfold Obligations.SequenceCommandsComplete whenPassed
  intro s c
  refine ⟨fun h rs t => ?create, fun h x b => ?append, fun h x => ?fork, fun h x => ?pause, fun h x t => ?resume, fun h x => ?hint,
    fun h x => ?cancel, fun h x => ?free, fun h x => ?query⟩
  case create =>
    intro g a hgeo hctx hspill hpartner himage hadapter hroom htake
    exact hosted_next h rfl (opSeqCreate_checked hgeo hctx hspill hpartner himage hadapter hroom htake)
  case append =>
    intro q n toks coming hown hst hb hn htoks hroom
    refine latched_next (by decide) (by decide) h rfl hown ?_
    have htok (i : Nat) (hi : i < n) : leAt b (4 * i) 4 ≤ 262143 := htoks _ (List.mem_map.2 ⟨i, List.mem_range.2 hi, rfl⟩)
    exact (actAppend_checked _ _ _ _ b hst hb hn htok).trans (if_neg (Nat.not_lt.2 hroom))
  case fork =>
    intro q hown hst hlen hlen' hspill
    exact latched_next (by decide) (by decide) h rfl hown (actFork_live hst hlen hlen' hspill)
  case pause =>
    intro q hown httl hask hst
    refine hosted_next_range h rfl (if_neg (Nat.not_lt.2 httl)) ?_
    exact (latched_taken (by decide) (by decide) hown).trans (actPause_live hask hst)
  case resume =>
    intro q hown hst hcause hfill hroom
    exact latched_next (by decide) (by decide) h rfl hown (actResume_paused hst hcause hfill hroom)
  case hint =>
    intro q hown hst hsum hnone
    exact latched_next (by decide) (by decide) h rfl hown (actHint_paused hst hsum hnone)
  case cancel =>
    intro q hown hlive hst
    exact latched_next (by decide) (by decide) h rfl hown (actCancel_live hlive hst)
  case free =>
    intro q hown hended
    exact latched_next (by decide) (by decide) h rfl hown (if_neg (Bool.eq_false_iff.1 hended))
  case query =>
    intro q hx hctx
    exact hosted_next h rfl (opSeqQuery_known hx hctx)

end Sys2Proof.Machine
end

section
/-! Plan and step commands (R344, R351, R352), where their checks pass. -/
namespace Sys2Proof.Machine

section
variable {id : Nat} {k : Cmd} {s : State} {p : Plan} {b : List Byte}

/-- A plan that passes its checks and finds a free number and its frames. -/
theorem opPlanLoad_checked {i : Nat} {fs : List Nat} {t u : State} (hb : cmdBytes s k 1 (fld k.w2 31 0) k.buf = some b)
    (hform : planForm b (fld k.w2 31 0) (planOf (cCtx k) b []) = true) (hformats : planFormats (planOf (cCtx k) b []) = true)
    (hshapes : planShapes s (cCtx k) (planOf (cCtx k) b []) = true) (hmay : mayTake s (cCtx k) (cdiv (fld k.w2 31 0) frameBytes) = true)
    (hfree : cdiv (fld k.w2 31 0) frameBytes ≤ freeFrames s)
    (hacc : ∀ g ∈ (planOf (cCtx k) b []).stages, ∀ d ∈ stageTiles g, d.accKib ≤ rf s rMtAlloc (cCtx k) 52 44)
    (hshare : ∀ j, j < 4 → exceeds (planFrac (planOf (cCtx k) b []) j) (weight s j (cCtx k))
      (weightSum s j (cCtx k) (weight s j (cCtx k))) = false)
    (hi : pick s (fun i => !thas s.st.plans i) 0 4096 = (some i, t))
    (hfs : takeFrames t .system (cCtx k) .plan i (cdiv (fld k.w2 31 0) frameBytes) = some (fs, u)) :
    opPlanLoad id k s = finish (modSt (fillFrames u fs b) fun x => { x with
      plans := tput x.plans i { planOf (cCtx k) b [] with frames := fs } }) id sOk 0 i 0 := by
  have hbeyond : ((planOf (cCtx k) b []).stages.any fun g => (stageTiles g).any fun d =>
      decide (rf s rMtAlloc (cCtx k) 52 44 < d.accKib)) = false := by
    simp only [List.any_eq_false, List.any_eq_true, decide_eq_true_eq, not_exists, not_and, Nat.not_lt]
    exact hacc
  have hfrac : ((List.range 4).any fun j =>
      exceeds (planFrac (planOf (cCtx k) b []) j) (weight s j (cCtx k)) (weightSum s j (cCtx k) (weight s j (cCtx k)))) = false := by
    simp only [List.any_eq_false, List.mem_range, Bool.not_eq_true]
    exact hshare
  simp only [opPlanLoad, hb, hform, hformats, hshapes, hmay, hbeyond, hfrac, hi, hfs, Bool.true_eq_false, Bool.false_eq_true, if_false, false_or]
  exact if_neg (Nat.not_lt.2 hfree)

theorem opPlanUnload_loaded (hp : tget s.st.plans (fld k.w1 11 0) = some p) (hctx : p.ctx = cCtx k) (hlive : p.unloading = false) :
    opPlanUnload id k s = planIdle (pend (modSt s fun t => { t with plans := tput t.plans (fld k.w1 11 0) { p with unloading := true } })
      id (.planIdle (fld k.w1 11 0))) := by
  simp only [opPlanUnload, hp]
  exact if_neg (not_or.2 ⟨not_not.2 hctx, Bool.eq_false_iff.1 hlive⟩)

/-- The record of slot i of a step submitted with entries b. -/
def submittedSlot (b : List Byte) (i : Nat) : SlotRun :=
  let e := slice b (128 * i) 128
  ⟨leAt e 0 4, 0, bit (leAt e 4 1) 0, false, e.drop 64, sOk, 0, 0, [], false, 0, 0, 0, 0, [], 0, false, [], 0, 0, [], 0,
    ⟨false, 0, false, 0, 0, 0, 0, 0⟩⟩

/-- The record of a step of plan i with n slots, submitted with entries b. -/
def submittedStep (id i ctx n : Nat) (b : List Byte) : Step :=
  ⟨id, i, ctx, false, 0, 0, (List.range n).map (submittedSlot b), [], 0, 0, false, false, []⟩

/-- A step whose entries pass their checks is queued under the next step number. -/
theorem opStepSubmit_checked (hp : tget s.st.plans (fld k.w1 11 0) = some p) (hctx : p.ctx = cCtx k) (hlive : p.unloading = false)
    (hrec : cKind k 3 = 1 → inAlloc s (cCtx k) k.w3.toNat (96 * p.slots) = true) (hb : cmdBytes s k 2 (128 * p.slots) k.buf = some b)
    (hent : ∀ j, j < p.slots → bits (w64At (slice b (128 * j) 128) 0) 63 33 = 0 ∧ ∀ v ∈ slice (slice b (128 * j) 128) 8 56, v = 0) :
    opStepSubmit id k s = waitFor (modSt s fun t => { t with
      stepCtr := (s.st.stepCtr + 1) % 2 ^ 32
      steps := tput t.steps ((s.st.stepCtr + 1) % 2 ^ 32) (submittedStep id (fld k.w1 11 0) (cCtx k) p.slots b) }) id
      (.step ((s.st.stepCtr + 1) % 2 ^ 32)) := by
  have hgood : ¬(p.ctx ≠ cCtx k ∨ p.unloading = true ∨ (cKind k 3 = 1 ∧ inAlloc s (cCtx k) k.w3.toNat (96 * p.slots) = false)) :=
    not_or.2 ⟨not_not.2 hctx, not_or.2 ⟨Bool.eq_false_iff.1 hlive, fun h => Bool.eq_false_iff.1 h.2 (hrec h.1)⟩⟩
  have hclear : ¬((List.range p.slots).any fun i => bits (w64At (slice b (128 * i) 128) 0) 63 33 != 0 ||
      (slice (slice b (128 * i) 128) 8 56).any (· != 0)) = true := by
    intro h
    obtain ⟨j, hj, hbad⟩ := List.any_eq_true.1 h
    obtain ⟨hword, hrest⟩ := hent j (List.mem_range.1 hj)
    rw [hword, bne_self_eq_false, Bool.false_or] at hbad
    obtain ⟨v, hv, hne⟩ := List.any_eq_true.1 hbad
    exact bne_iff_ne.1 hne (hrest v hv)
  simp only [opStepSubmit, hp, hb]
  exact (if_neg hgood).trans ((if_neg hclear).trans rfl)

end

/-- Settles O29: each command by its own lemma; a step submitted changes the table of steps at its own number only. -/
theorem planAndStepCommandsComplete : Obligations.PlanAndStepCommandsComplete := by
  unfold Obligations.PlanAndStepCommandsComplete whenPassed
  intro s c
  refine ⟨fun h b i fs t u => ?load, fun h p => ?unload, fun h p b => ?submit⟩
  case load =>
    intro n p nf hb hform hformats hshapes hmay hfree hacc hshare hi hfs
    exact hosted_next h rfl (opPlanLoad_checked hb hform hformats hshapes hmay hfree hacc hshare hi hfs)
  case unload =>
    intro i hp hctx hlive
    exact hosted_next h rfl (opPlanUnload_loaded hp hctx hlive)
  case submit =>
    intro i ent n hp hctx hlive hrec hb hent
    refine ⟨_, hosted_next h rfl (opStepSubmit_checked hp hctx hlive hrec hb hent),
      ⟨submittedStep s.host.cmdCtr i (cCtx (withOpcode c 0x32)) p.slots b, tget_tput_self _ _ _, rfl, rfl, rfl, rfl, ?_⟩, ?_, rfl, rfl, rfl⟩
    · exact List.map_map
    · exact fun m hm => tget_tput_ne _ _ _ _ hm

end Sys2Proof.Machine
end

section
/-! Image, adapter and grammar commands (R125, R136, R139–R142), where their checks pass. -/
namespace Sys2Proof.Machine

section
variable {id : Nat} {k : Cmd} {s : State} {b : List Byte}

/-- An image that passes its checks, with its frames and backup slots taken, starts to copy. -/
theorem opImgLoad_checked {i : Nat} {fs slots : List Nat} {t u : State} (hb : k.buf = some b) (himage : imageCheck (slice b 0 256) = none)
    (hseqs : fld k.w2 15 0 ≠ 0) (htokens : fld k.w2 38 16 ≤ maxLength) (hplace : fld k.w2 40 39 ≠ 3)
    (hstack : imageStack (slice b 0 256) (fld k.w2 15 0) (fld k.w2 38 16) ≤ framesAlloc s (cCtx k) - framesUsed s (cCtx k))
    (hsram : w64At (slice b 0 256) 0x30 ≤ rf s rMtAlloc (cCtx k) 43 25 * 1024 - sramInUse s (cCtx k))
    (hi : tfree s.st.images 0 256 = some i) (hlt : i < 256)
    (hfs : takeFrames s .system (cCtx k) .image i (imageFrames (slice b 0 256)) = some (fs, t))
    (hslots : backupSlots t (cCtx k) (fld k.w2 40 39) (imageFrames (slice b 0 256)) = some (slots, u)) :
    opImgLoad id k s = (jrStart (pend (modSt u fun x =>
      { x with images := tput x.images i (imageRec id k (slice b 0 256) fs slots) }) id (.image i)) jrImage i 0 (.image i)).2 := by
  simp only [opImgLoad, hb, himage, hi, hfs, hslots, if_neg (Nat.not_le.2 hlt)]
  exact (if_neg (not_or.2 ⟨hseqs, not_or.2 ⟨Nat.not_lt.2 htokens, hplace⟩⟩)).trans
    ((if_neg (Nat.not_lt.2 hstack)).trans (if_neg (Nat.not_lt.2 hsram)))

/-- An adapter that passes its checks, with its run, frames and backup slots taken, waits for its copy. -/
theorem adapterLoad_checked {replace : Bool} {i run : Nat} {fs slots : List Nat} {t u v w : State} (hb : k.buf = some b)
    (hplace : fld k.w2 1 0 ≠ 3) (hcheck : adapterCheck s (cCtx k) replace (slice b 0 64) = none)
    (hi : pick s (fun i => !thas s.st.adapters i) 0 4096 = (some i, t))
    (hrun : adapterRun t (bit (w64At (slice b 0 64) 0) 53) (cdiv (w64At (slice b 0 64) 8) frameBytes) = (some run, u))
    (hmay : mayTake u (cCtx k) (cdiv (w64At (slice b 0 64) 8) frameBytes) = true)
    (hfree : cdiv (w64At (slice b 0 64) 8) frameBytes ≤ freeFrames u)
    (hfs : takeFrames u .system (cCtx k) .adapter i (cdiv (w64At (slice b 0 64) 8) frameBytes) = some (fs, v))
    (hslots : backupSlots v (cCtx k) (fld k.w2 1 0) (cdiv (w64At (slice b 0 64) 8) frameBytes) = some (slots, w)) :
    adapterLoad id k replace s = pend (modSt w fun x =>
      { x with adapters := tput x.adapters i (adapterRec id k replace (slice b 0 64) run fs slots) }) id (.adapter i) := by
  simp only [adapterLoad, hb, if_neg hplace, hcheck, hi, hrun, hmay, hfs, hslots, Bool.true_eq_false, false_or]
  exact if_neg (Nat.not_lt.2 hfree)

/-- The adapters of context c named a that are still to be loaded or switched to are released once that is done. -/
def unloadMarked (c a : Nat) (kv : Nat × Adapter) : Nat × Adapter :=
  if kv.2.ctx = c ∧ kv.2.id = a ∧ (kv.2.cmd ≠ 0 ∨ kv.2.pendingSwitch = true) then (kv.1, { kv.2 with unloadAfter := true }) else kv

/-- A switch to a version of adapter a of context c is due. -/
def switchDue (s : State) (c a : Nat) : Bool :=
  s.st.adapters.any fun kv => kv.2.ctx == c && kv.2.id == a && kv.2.pendingSwitch

theorem opAdpUnload_known (h : thas s.st.current (cCtx k * 2 ^ 16 + fld k.w1 15 0) = true ∨ adapterMoving s (cCtx k) (fld k.w1 15 0) = true) :
    opAdpUnload id k s =
      match (if switchDue s (cCtx k) (fld k.w1 15 0) then none else tget s.st.current (cCtx k * 2 ^ 16 + fld k.w1 15 0)) with
      | some n => finishOk (adapterRelease (modSt s fun t => { t with
          adapters := t.adapters.map (unloadMarked (cCtx k) (fld k.w1 15 0)), current := tdel t.current (cCtx k * 2 ^ 16 + fld k.w1 15 0) }) n) id
      | none => finishOk (modSt s fun t => { t with adapters := t.adapters.map (unloadMarked (cCtx k) (fld k.w1 15 0)) }) id :=
  if_neg (Bool.not_eq_false _ ▸ Bool.or_eq_true_iff.2 h)

/-- The current version of an adapter with no switch due is released at once. -/
theorem opAdpUnload_current {n : Nat} (hn : tget s.st.current (cCtx k * 2 ^ 16 + fld k.w1 15 0) = some n)
    (hdue : switchDue s (cCtx k) (fld k.w1 15 0) = false) : opAdpUnload id k s = finishOk (adapterRelease (modSt s fun t => { t with
      adapters := t.adapters.map (unloadMarked (cCtx k) (fld k.w1 15 0)), current := tdel t.current (cCtx k * 2 ^ 16 + fld k.w1 15 0) }) n) id := by
  rw [opAdpUnload_known (.inl (by rw [thas, hn, Option.isSome_some])), hdue, if_neg Bool.false_ne_true, hn]

/-- With a switch due, or with no current version, the versions are only marked. -/
theorem opAdpUnload_waits (h : thas s.st.current (cCtx k * 2 ^ 16 + fld k.w1 15 0) = true ∨ adapterMoving s (cCtx k) (fld k.w1 15 0) = true)
    (hwait : switchDue s (cCtx k) (fld k.w1 15 0) = true ∨ tget s.st.current (cCtx k * 2 ^ 16 + fld k.w1 15 0) = none) :
    opAdpUnload id k s = finishOk (modSt s fun t => { t with adapters := t.adapters.map (unloadMarked (cCtx k) (fld k.w1 15 0)) }) id := by
  have hnone : (if switchDue s (cCtx k) (fld k.w1 15 0) then none else tget s.st.current (cCtx k * 2 ^ 16 + fld k.w1 15 0)) = none := by
    rcases hwait with hdue | hcur
    · exact if_pos hdue
    · rw [hcur, ite_self]
  rw [opAdpUnload_known h, hnone]

/-- A grammar that passes its checks, that no other context has and no live sequence names, takes the place of the one before. -/
theorem opGrammarLoad_checked {fs : List Nat} {t : State} (hb : cmdBytes s k 1 (fld k.w2 31 0) k.buf = some b) (hlen : b.length = fld k.w2 31 0)
    (hn : fld k.w2 31 0 ≠ 0) (hgram : gramOk b = true) (hother : ∀ kv ∈ s.st.grammars, kv.1 % 64 = fld k.w2 37 32 → kv.2.ctx = cCtx k)
    (hnamed : ∀ kv ∈ s.pg.seqs, seqLive kv.2 = true → kv.2.choice.grammarValid = true → kv.2.choice.grammarId ≠ fld k.w2 37 32)
    (hmay : mayTake s (cCtx k) (cdiv (fld k.w2 31 0) frameBytes) = true) (hfree : cdiv (fld k.w2 31 0) frameBytes ≤ freeFrames s)
    (hfs : takeFrames s .system (cCtx k) .grammar (cCtx k * 64 + fld k.w2 37 32) (cdiv (fld k.w2 31 0) frameBytes) = some (fs, t)) :
    opGrammarLoad id k s = finishOk (modSt (fillFrames (grammarFree t (cCtx k * 64 + fld k.w2 37 32)) fs b) fun x =>
      { x with grammars := tput x.grammars (cCtx k * 64 + fld k.w2 37 32) ⟨cCtx k, b, fs⟩ }) id := by
  have hmine : (s.st.grammars.any fun kv => kv.1 % 64 == fld k.w2 37 32 && kv.2.ctx != cCtx k) = false := by
    simp only [List.any_eq_false, Bool.and_eq_true, beq_iff_eq, bne_iff_ne, not_and, not_not]
    exact hother
  have hfree' : (s.pg.seqs.any fun kv => seqLive kv.2 && kv.2.choice.grammarValid && kv.2.choice.grammarId == fld k.w2 37 32) = false := by
    simp only [List.any_eq_false, Bool.and_eq_true, beq_iff_eq, not_and, and_imp]
    exact hnamed
  simp only [opGrammarLoad, hb, hmine, hfree', hgram, hmay, hfs, Bool.true_eq_false, Bool.false_eq_true, if_false, false_or, or_false]
  exact (if_neg hn).trans ((if_neg (not_not.2 hlen)).trans (if_neg (Nat.not_lt.2 hfree)))

end

/-- Settles O30: each load and unload by its own lemma. -/
theorem loadCommandsComplete : Obligations.LoadCommandsComplete := by
  unfold Obligations.LoadCommandsComplete whenPassed
  intro s c
  refine ⟨fun hp b i fs slots t u => ?imgLoad, fun hp im => ?imgUnload, fun replace hp b i run fs slots t u v w => ?adpLoad, fun hp => ?adpUnload,
    fun hp b fs t => ?grammar⟩
  case imgLoad =>
    intro h seqs tokens hb himage hseqs htokens hplace hstack hsram hi hlt hfs hslots
    exact hosted_next hp rfl (opImgLoad_checked hb himage hseqs htokens hplace hstack hsram hi hlt hfs hslots)
  case imgUnload =>
    intro i him hctx hst hn
    rw [exec_imgUnload_passed c s hp, opImgUnload_unnamed _ _ _ im him hctx hst]
    · rfl
    · rwa [hctx, ← imageNamed_iff, Bool.not_eq_true]
  case adpLoad =>
    intro h nf hb hplace hcheck hi hrun hmay hfree hfs hslots
    cases replace
    all_goals exact hosted_next hp rfl (adapterLoad_checked hb hplace hcheck hi hrun hmay hfree hfs hslots)
  case adpUnload =>
    exact ⟨fun n hn hdue => hosted_next hp rfl (opAdpUnload_current hn hdue), fun h hwait => hosted_next hp rfl (opAdpUnload_waits h hwait)⟩
  case grammar =>
    intro n g key nf hb hlen hn hgram hother hnamed hmay hfree hfs
    exact hosted_next hp rfl (opGrammarLoad_checked hb hlen hn hgram hother hnamed hmay hfree hfs)

end Sys2Proof.Machine
end

section
/-! Queue-pair and window commands (R235–R238, R249, R250), where their checks pass. -/
namespace Sys2Proof.Machine

/-! ### Queue pairs -/

section
variable {id : Nat} {k : Cmd} {s : State} {q : Qp}

/-- A queue pair whose rings pass their checks, with a free number and an engine. -/
theorem opQpCreate_checked {n x : Nat} {t u : State} (hsq : 4 ≤ fld k.w4 4 0) (hsq' : fld k.w4 4 0 ≤ 16) (hcq : 4 ≤ fld k.w4 9 5)
    (hcq' : fld k.w4 9 5 ≤ 16) (hslot : 8 ≤ fld k.w4 19 15) (hslot' : fld k.w4 19 15 ≤ 16) (hengine : fld k.w4 21 20 ≠ 3)
    (hrx : k.w3 ≠ 0 → 4 ≤ fld k.w4 14 10 ∧ fld k.w4 14 10 ≤ 16 ∧
      ringOk s (cCtx k) (cKind k 3) k.w3.toNat (2 ^ (fld k.w4 14 10 + fld k.w4 19 15)) = true)
    (hrx' : k.w3 = 0 → fld k.w4 14 10 = 0) (hsqOk : ringOk s (cCtx k) (cKind k 1) k.w1.toNat (64 * 2 ^ fld k.w4 4 0) = true)
    (hcqOk : ringOk s (cCtx k) (cKind k 2) k.w2.toNat (32 * 2 ^ fld k.w4 9 5) = true)
    (hn : pick s (fun n => !thas s.fab.qps n) 512 65024 = (some n, t)) (hx : chooseXe t (fld k.w4 21 20) = (some x, u)) :
    opQpCreate id k s = finish (setQp u n { blankQp (cCtx k) x with
      sq := (cKind k 1, k.w1.toNat), cq := (cKind k 2, k.w2.toNat), rx := (cKind k 3, k.w3.toNat), sqLog := fld k.w4 4 0,
      cqLog := fld k.w4 9 5, rxLog := fld k.w4 14 10, slotLog := fld k.w4 19 15,
      rxCtr := if wbit k.w4 22 then some (fld k.w4 26 23) else none, lastPkt := tget u.fab.qpLast n }) id sOk 0 n 0 := by
  have hring : ¬((k.w3 != 0) = true ∧ (fld k.w4 14 10 < 4 ∨ fld k.w4 14 10 > 16)) := by
    rintro ⟨hw, hbad⟩
    obtain ⟨hlo, hhi, -⟩ := hrx (bne_iff_ne.1 hw)
    omega
  have hnone : ¬((k.w3 != 0) = false ∧ fld k.w4 14 10 ≠ 0) := fun h => h.2 (hrx' (by simpa using h.1))
  have hplace : ¬((k.w3 != 0) = true ∧ ringOk s (cCtx k) (cKind k 3) k.w3.toNat (2 ^ (fld k.w4 14 10 + fld k.w4 19 15)) = false) :=
    fun h => Bool.eq_false_iff.1 h.2 (hrx (bne_iff_ne.1 h.1)).2.2
  simp only [opQpCreate, hn, hx]
  refine if_neg (not_or.2 ⟨Nat.not_lt.2 hsq, not_or.2 ⟨Nat.not_lt.2 hsq', not_or.2 ⟨Nat.not_lt.2 hcq, not_or.2 ⟨Nat.not_lt.2 hcq',
    not_or.2 ⟨hring, not_or.2 ⟨hnone, not_or.2 ⟨Nat.not_lt.2 hslot, not_or.2 ⟨Nat.not_lt.2 hslot', not_or.2 ⟨hengine, not_or.2 ⟨?_,
      not_or.2 ⟨?_, hplace⟩⟩⟩⟩⟩⟩⟩⟩⟩⟩⟩)
  · exact ne_false_of_eq_true hsqOk
  · exact ne_false_of_eq_true hcqOk

section
variable (hq : cmdQp s k (fld k.w1 15 0) = some q)
include hq

theorem opQpConnect_reset (hst : q.st = 0) (hnone : q.connect = none) (hok : connectOk k = true) : opQpConnect id k s =
    let t := setQp s (fld k.w1 15 0) { q with
      connect := some id, connArgs := (fld k.w2 19 0, fld k.w2 35 20, fld k.w2 38 36),
      connSet := (fld k.w3 9 0, fld k.w3 12 10, fld k.w3 21 13) }
    if guardOver t q then connectNow t (fld k.w1 15 0) else pend t id (.connect (fld k.w1 15 0)) := by
  have hgood : ¬(q.st ≠ 0 ∨ q.connect.isSome = true ∨ connectOk k = false) := by simp [hst, hnone, hok]
  simp only [opQpConnect, hq]
  exact if_neg hgood

variable (h2 : k.w2 = 0) (h3 : k.w3 = 0)
include h2 h3

theorem opQpDrain_connected (hst : q.st = 1) : opQpDrain id k s = qpDrain (finishOk s id) (fld k.w1 15 0) := by
  simp only [opQpDrain, hq]
  exact if_pos ⟨hst, h2, h3⟩

theorem opQpError_running (hst : q.st = 1 ∨ q.st = 2) : opQpError id k s = qpError (finishOk s id) (fld k.w1 15 0) sOk := by
  simp only [opQpError, hq]
  exact if_pos ⟨hst, h2, h3⟩

theorem opQpReset_error (hst : q.st = 3) : opQpReset id k s = finishOk (qpReset s (fld k.w1 15 0)) id := by
  simp only [opQpReset, hq]
  exact if_pos ⟨hst, h2, h3⟩

end

/-- The ACTION of a QP_MODIFY entry chooses its operation. -/
theorem fld_action (c : Cmd) (a op : Nat) (ha : a < 4) : fld (withOpcode (withAction c a) op).w1 17 16 = a :=
  (fld_setFld c.w1 17 16 a (by decide) (by decide)).trans (Nat.mod_eq_of_lt ha)

end

/-- Settles O31: each command by its own lemma; QP_MODIFY is chosen by its ACTION. -/
theorem queuePairCommandsComplete : Obligations.QueuePairCommandsComplete := by
  unfold Obligations.QueuePairCommandsComplete whenPassed
  intro s c
  refine ⟨fun h n x t u => ?create, fun h q => ?connect, fun h q => ?drain, fun h q => ?error, fun h q => ?reset, fun h q => ?destroy⟩
  case create =>
    intro w rx hsq hsq' hcq hcq' hslot hslot' hengine hrx hrx' hsqOk hcqOk hn hx
    exact hosted_next h rfl (opQpCreate_checked hsq hsq' hcq hcq' hslot hslot' hengine hrx hrx' hsqOk hcqOk hn hx)
  case connect =>
    intro n t hq hst hnone hok
    refine hosted_next h rfl ?_
    rw [opQpModify, fld_action c 0 0x51 (by decide)]
    exact opQpConnect_reset hq hst hnone hok
  case drain =>
    intro n hq hst h2 h3
    refine hosted_next h rfl ?_
    rw [opQpModify, fld_action c 1 0x51 (by decide)]
    exact opQpDrain_connected hq h2 h3 hst
  case error =>
    intro n hq hst h2 h3
    refine hosted_next h rfl ?_
    rw [opQpModify, fld_action c 2 0x51 (by decide)]
    exact opQpError_running hq h2 h3 hst
  case reset =>
    intro n hq hst h2 h3
    refine hosted_next h rfl ?_
    rw [opQpModify, fld_action c 3 0x51 (by decide)]
    exact opQpReset_error hq h2 h3 hst
  case destroy =>
    intro n t u hq
    have hfound : cmdQp (taken 0x52 c s) (withOpcode c 0x52) (fld (withOpcode c 0x52).w1 15 0) = some q := hq
    refine hosted_next h rfl ?_
    simp only [opQpDestroy, hfound]
    rfl

/-! ### Windows -/

section
variable {id : Nat} {k : Cmd} {s : State} {i : Nat}

/-- A window over memory that the context may name answers its key. -/
theorem opWindowCreate_checked {w : Win} {t : State} (hlo : 64 ≤ k.w2.toNat) (hhi : k.w2.toNat ≤ 2 ^ 32) (halign : k.w1.toNat % 64 = 0)
    (hok : localOk s (cCtx k) k.w1.toNat k.w2.toNat = true) (hqp : wbit k.w3 3 = true → (cmdQp s k (fld k.w3 19 4)).isSome = true)
    (hi : winAlloc s ⟨true, cCtx k, k.w1.toNat, k.w2.toNat, wbit k.w3 0, wbit k.w3 1, wbit k.w3 2,
      if wbit k.w3 3 then some (fld k.w3 19 4) else none, if wbit k.w3 20 then some (fld k.w3 24 21) else none, 0, [], none, []⟩ = (some i, t))
    (hw : winOf t i = some w) : opWindowCreate id k s = finish t id sOk 0 (winKey i w) 0 := by
  have hnone : ¬(wbit k.w3 3 = true ∧ (cmdQp s k (fld k.w3 19 4)).isNone = true) := fun h => by
    have := hqp h.1
    simp_all
  simp only [opWindowCreate, hi, hw]
  exact if_neg (not_or.2 ⟨Nat.not_lt.2 hlo, not_or.2 ⟨Nat.not_lt.2 hhi, not_or.2 ⟨not_not.2 halign,
    not_or.2 ⟨ne_false_of_eq_true hok, hnone⟩⟩⟩⟩)

theorem opWindowInvalidate_live (hi : cmdWin s k = some i) : opWindowInvalidate id k s = winInvalidate s i (some id) false := by
  simp only [opWindowInvalidate, hi]

theorem opWindowDestroy_live (hi : cmdWin s k = some i) : opWindowDestroy id k s = winInvalidate s i (some id) true := by
  simp only [opWindowDestroy, hi]

end

/-- Settles O32: each command by its own lemma. -/
theorem windowCommandsComplete : Obligations.WindowCommandsComplete := by
  unfold Obligations.WindowCommandsComplete whenPassed
  intro s c
  refine ⟨fun h i w t => ?create, fun h i hi => hosted_next h rfl (opWindowInvalidate_live hi),
    fun h i hi => hosted_next h rfl (opWindowDestroy_live hi)⟩
  intro len qn hlo hhi halign hok hqp hi hw
  exact hosted_next h rfl (opWindowCreate_checked hlo hhi halign hok hqp hi hw)

end Sys2Proof.Machine
end

section
/-! Region and Latch commands (R207–R213, R271, R277, R282, R354), where their checks pass. -/
namespace Sys2Proof.Machine

section
variable {id : Nat} {k : Cmd} {s : State}

/-- A region over 32 free frames, in a mode this controller can give it. -/
theorem opRegionCreate_checked (halign : k.w1.toNat % 0x200000 = 0) (hframe : k.w1.toNat / frameBytes < numFrames) (hmode : fld k.w2 21 20 ≠ 3)
    (hquad : fld k.w2 21 20 = 2 → rbit s rFlQuadStatus 0 0 = true) (hctx : cCtx k ≠ 0) (hmay : mayTake s (cCtx k) 32 = true)
    (hfree : ∀ i, i < 32 → isFree s (k.w1.toNat / frameBytes + i) = true) (hcoherent : fld k.w2 21 20 = 2 → coherentCount s < 512) :
    opRegionCreate id k s = regionNew id k s (if fld k.w2 19 0 = 0 then self s else fld k.w2 19 0) (fld k.w2 21 20) := by
  have hall : ¬((List.range 32).any fun i => !isFree s (k.w1.toNat / frameBytes + i)) = true := by
    simpa using hfree
  simp only [opRegionCreate]
  refine (if_neg (not_or.2 ⟨not_not.2 halign, not_or.2 ⟨Nat.not_le.2 hframe, not_or.2 ⟨hmode, not_or.2 ⟨fun h => ?_, hctx⟩⟩⟩⟩)).trans
    ((if_neg (ne_false_of_eq_true hmay)).trans ((if_neg hall).trans (if_neg fun h => ?_)))
  · exact Bool.eq_false_iff.1 h.2 (hquad h.1)
  · exact Nat.not_lt.2 h.2 (hcoherent h.1)

/-- With no line of the region cached, its home applies the change at once. -/
theorem regionModRun_uncached {a : Nat} {destroy : Bool} {mode : Nat} (h : (cachedLines s (a % 2 ^ 44)).isEmpty = true) :
    (regionModRun s a id destroy mode).1 = true := by
  cases hr : tget s.fab.regions (a % 2 ^ 44) with
  | none => simp only [regionModRun, hr]
  | some r => simp only [regionModRun, hr, h, Bool.true_eq_false, and_false, if_false]

/-- The home's own region, its record agreeing with the command. -/
theorem opRegionModify_own (hhome : k.w1.toNat / 2 ^ 44 = self s)
    (hcheck : regionModCheck s (self s) (cCtx k) k.w1.toNat (fld k.w2 63 32) (wbit k.w2 0) (fld k.w2 2 1) = none)
    (hlines : (cachedLines s (k.w1.toNat % 2 ^ 44)).isEmpty = true) :
    opRegionModify id k s = regionModDone (regionModRun s k.w1.toNat id (wbit k.w2 0) (fld k.w2 2 1)).2 id := by
  simp only [opRegionModify, hcheck, regionModRun_uncached hlines, if_true]
  exact if_pos hhome

/-- What the command's home answers for the object it names is its own record. -/
theorem latched_atHome {op : Nat} (hhome : knownHome s (objOf op k) = some (self s)) :
    latched op id k s = latchAnswered s id (self s) (ownRecord s (objOf op k)) := by
  simp only [latched, hhome, if_true]

theorem homeAnswer_status (o : Obj) (v : Lv) : (homeAnswer o v).status = sOk := rfl
theorem homeAnswer_obj (o : Obj) (v : Lv) : (homeAnswer o v).obj = o := rfl
theorem homeAnswer_owner (o : Obj) (v : Lv) : (homeAnswer o v).owner = v.owner := rfl
theorem homeAnswer_epoch (o : Obj) (v : Lv) : (homeAnswer o v).epoch = v.epoch := rfl

theorem ownRecord_found {o : Obj} {v : Lv} (h : lvOf s o = some v) : ownRecord s o = homeAnswer o v := by
  simp only [ownRecord, h]

/-- LATCH_QUERY of an object whose home this controller is. -/
theorem opLatchQuery_home {o : OpenCmd} {v : Lv} (hhome : knownHome s (cmdObj k) = some (self s)) (hv : lvOf s (cmdObj k) = some v)
    (ho : openCmd s id = some o) (hop : o.opcode = 0x5A) :
    opLatchQuery id k s = finish s id sOk 0 (v.owner + v.st * 2 ^ 20 + v.epoch * 2 ^ 32) (self s) := by
  have hobj : objOf 0x5A k = cmdObj k := if_pos (.inl rfl)
  rw [opLatchQuery, latched_atHome (by rw [hobj]; exact hhome), hobj, ownRecord_found hv]
  simp only [latchAnswered, ho, homeAnswer_status]
  exact (if_neg (not_not.2 rfl)).trans (if_pos hop)

/-- The cell manager sends an assignment to the object's home. -/
theorem opLatchAssign_manager {h : Nat} (hmgr : isMgr s = true)
    (hhome : (if (cmdObj k).region then some ((cmdObj k).id / 2 ^ 44) else (tget s.ce.ledger (cmdObj k).id).map (·.home)) = some h) :
    opLatchAssign id k s = askL (pend s id (.latch 0)) h
      { lmsg mLatchAssign (cmdObj k) (fld k.w3 31 0) with receiver := fld k.w2 20 1 } (.assign id) := by
  simp only [opLatchAssign, hhome]
  exact if_neg (ne_false_of_eq_true hmgr)

/-! ### Offers -/

theorem cmdObj_sequence (h : wbit k.w2 0 = false) : cmdObj k = ⟨false, k.w1.toNat % 2 ^ 32⟩ :=
  if_neg (Bool.eq_false_iff.1 h)

theorem actOffer_sequence {epoch : Nat} {x : Seq} (hobj : wbit k.w2 0 = false) (hto : fld k.w2 20 1 ≠ self s)
    (hepoch : fld k.w3 31 0 = epoch) (hx : seqOf s (k.w1.toNat % 2 ^ 32) = some x) (hst : x.st = .runnable ∨ x.st = .paused) :
    actOffer id k s epoch = defer (pend s id (.offer (k.w1.toNat % 2 ^ 32))) (.sequence (k.w1.toNat % 2 ^ 32)) (.hingeOffer id) := by
  simp only [actOffer, cmdObj_sequence hobj, hx]
  exact (if_neg hto).trans ((if_neg (not_not.2 hepoch)).trans (if_pos hst))

theorem actOffer_region {epoch : Nat} (hobj : (cmdObj k).region = true) (hto : fld k.w2 20 1 ≠ self s) (hepoch : fld k.w3 31 0 = epoch) :
    actOffer id k s epoch = defer (pend s id (.offer (cmdObj k).id)) .device (.hingeOffer id) :=
  (if_neg hto).trans ((if_neg (not_not.2 hepoch)).trans (if_pos hobj))

variable {o : OpenCmd}

/-- HINGE_OFFER of a sequence that its home, this controller, runs as its owner. -/
theorem opHingeOffer_sequence {x : Seq} (ho : openCmd s id = some o) (hop : o.opcode = 0x5C) (hcmd : o.cmd = k)
    (hobj : wbit k.w2 0 = false) (hown : ownedHere s k (k.w1.toNat % 2 ^ 32) x) (hto : fld k.w2 20 1 ≠ self s)
    (hepoch : fld k.w3 31 0 = x.epoch) (hst : x.st = .runnable ∨ x.st = .paused) :
    opHingeOffer id k s = defer (pend s id (.offer (k.w1.toNat % 2 ^ 32))) (.sequence (k.w1.toNat % 2 ^ 32)) (.hingeOffer id) := by
  obtain ⟨hx, hhome, hctx, h, hh, howner, hepochs⟩ := hown
  have hob : objOf 0x5C k = ⟨false, k.w1.toNat % 2 ^ 32⟩ := (if_pos (.inr rfl)).trans (cmdObj_sequence hobj)
  have hknown : knownHome s (objOf 0x5C k) = some (self s) := by simp only [hob, knownHome, hx, hhome, Bool.false_eq_true, if_false]
  rw [opHingeOffer, latched_atHome hknown, hob, ownRecord_found (v := ⟨h.ctx, h.owner, h.st, h.prefill, h.epoch, h.offeredTo, h.assigning,
    h.offerTime, h.hingeId, h.done, h.expired⟩) (by simp only [lvOf, hh, Bool.false_eq_true, if_false, Option.map_some])]
  simp only [latchAnswered, ho, homeAnswer_status, homeAnswer_obj, homeAnswer_owner, homeAnswer_epoch, hx, hop, hcmd]
  have hsame : ¬(h.owner ≠ self s ∨ h.epoch ≠ x.epoch) := not_or.2 ⟨not_not.2 howner, not_not.2 hepochs⟩
  exact (if_neg (not_not.2 rfl)).trans ((if_neg (by decide)).trans ((if_neg Bool.false_ne_true).trans ((if_neg (not_not.2 hctx)).trans
    ((if_neg hsame).trans ((if_pos trivial).trans (actOffer_sequence hobj hto hepoch hx hst))))))

/-- HINGE_OFFER of a region whose home this controller is, and which its record names the owner of. -/
theorem opHingeOffer_region {v : Lv} {g : OwnReg} (ho : openCmd s id = some o) (hop : o.opcode = 0x5C) (hcmd : o.cmd = k)
    (hobj : (cmdObj k).region = true) (hhome : (cmdObj k).id / 2 ^ 44 = self s) (hv : lvOf s (cmdObj k) = some v) (howner : v.owner = self s)
    (hg : tget s.ce.regs (cmdObj k).id = some g) (hctx : g.ctx = cCtx k) (hepochs : v.epoch = g.epoch) (hto : fld k.w2 20 1 ≠ self s)
    (hepoch : fld k.w3 31 0 = g.epoch) : opHingeOffer id k s = defer (pend s id (.offer (cmdObj k).id)) .device (.hingeOffer id) := by
  have hob : objOf 0x5C k = cmdObj k := if_pos (.inr rfl)
  have hknown : knownHome s (objOf 0x5C k) = some (self s) := by rw [hob, knownHome, if_pos hobj, hhome]
  rw [opHingeOffer, latched_atHome hknown, hob, ownRecord_found hv]
  simp only [latchAnswered, ho, homeAnswer_status, homeAnswer_obj, homeAnswer_owner, homeAnswer_epoch, hg, hop, hcmd]
  have hsame : ¬(v.owner ≠ self s ∨ v.epoch ≠ g.epoch) := not_or.2 ⟨not_not.2 howner, not_not.2 hepochs⟩
  exact (if_neg (not_not.2 rfl)).trans ((if_neg (by decide)).trans ((if_pos hobj).trans ((if_neg (not_not.2 hctx)).trans
    ((if_neg hsame).trans (actOffer_region hobj hto hepoch)))))

end

/-- Settles O33: each command by its own lemma; the entry of REGION_MODIFY says in bit 0 of its second word whether it destroys. -/
theorem regionAndLatchCommandsComplete : Obligations.RegionAndLatchCommandsComplete := by
  unfold Obligations.RegionAndLatchCommandsComplete whenPassed
  intro s c
  refine ⟨fun h => ?create, fun h => ?modify, fun h => ?destroy, fun h v hhome hv => ?query, fun h x => ?assign, fun h x => ?offerSequence,
    fun h v g => ?offerRegion⟩
  case create =>
    exact fun halign hframe hmode hquad hctx hmay hfree hcoherent =>
      hosted_next h rfl (opRegionCreate_checked halign hframe hmode hquad hctx hmay hfree hcoherent)
  case modify =>
    intro hhome hkeep hcheck hlines
    refine hosted_next h rfl ?_
    exact (opRegionModify_own hhome (by rw [hkeep]; exact hcheck) hlines).trans (by rw [hkeep])
  case destroy =>
    intro hhome hcheck hlines
    have hdestroy : wbit (withOpcode { c with w2 := setFld c.w2 0 0 1 } 0x59).w2 0 = true :=
      wbit_setFld_inside c.w2 0 0 1 0 (by decide) (by decide) (by decide)
    refine (show _ = hosted 0x59 { c with w2 := setFld c.w2 0 0 1 } s from by cases c; rfl).trans (hosted_next h rfl ?_)
    exact (opRegionModify_own hhome (by rw [hdestroy]; exact hcheck) hlines).trans (by rw [hdestroy])
  case query => exact hosted_next h rfl (opLatchQuery_home hhome hv (openCmd_taken _ _ _) rfl)
  case assign => exact fun hmgr hhome => hosted_next h rfl (opLatchAssign_manager hmgr hhome)
  case offerSequence =>
    intro q hobj hown hto hepoch hst
    exact hosted_next h rfl (opHingeOffer_sequence (openCmd_taken _ _ _) rfl rfl hobj hown hto hepoch hst)
  case offerRegion =>
    intro o hobj hhome hv howner hg hctx hepochs hto hepoch
    exact hosted_next h rfl (opHingeOffer_region (openCmd_taken _ _ _) rfl rfl hobj hhome hv howner hg hctx hepochs hto hepoch)

end Sys2Proof.Machine
end

section
/-! Admin and diagnostic commands (R4, R345, R354–R358, R423, R429, R434, R438), where their checks pass. -/
namespace Sys2Proof.Machine

section
variable {id : Nat} {k : Cmd} {s : State}

theorem opIdentify_checked (h : cKind k 1 = 1 → inAlloc s (cCtx k) k.w1.toNat 4096 = true) :
    opIdentify id k s = finishOk (cmdWrite s k 1 (identifyBlock s)) id :=
  if_neg fun hbad => Bool.eq_false_iff.1 hbad.2 (h hbad.1)

theorem opSetRole_closed (hrole : fld k.w1 1 0 ≠ 3) (h : shutter s = 0) :
    opSetRole id k s = finishOk (wf s rGlMode 0 3 2 (fld k.w1 1 0)) id :=
  (if_neg hrole).trans (if_neg (not_not.2 h))

/-- A transaction begins where there is a number for it and its ring has none open. -/
theorem opTxnBegin_free {t : Nat} (hopen : txnsOpen s < 8) (hring : ∀ kv ∈ s.host.txns, kv.2.ring ≠ k.ring)
    (ht : tfree s.host.txns 1 255 = some t) : opTxnBegin id k s = finish (modHost s fun h =>
      { h with txns := tput h.txns t ⟨k.ring, s.now, h.changeCtr, [], false, 0⟩, txnEnds := tdel h.txnEnds t }) id sOk 0 t 0 := by
  have hnone : ¬(s.host.txns.any fun kv => kv.2.ring == k.ring) = true := by simpa using hring
  simp only [opTxnBegin, ht]
  exact (if_neg (Nat.not_le.2 hopen)).trans (if_neg hnone)

section
variable {x : Txn} (hx : tget s.host.txns (cTxn k) = some x) (hring : x.ring = k.ring) (hopen : x.committing = false)
include hx hring hopen

theorem opTxnCommit_open : opTxnCommit id k s = defer (pend (modHost s fun h =>
    { h with txns := tput h.txns (cTxn k) { x with committing := true, commitId := id } }) id .boundary) .device (.commit (cTxn k)) := by
  simp only [opTxnCommit, hx]
  exact if_neg (not_or.2 ⟨not_not.2 hring, Bool.eq_false_iff.1 hopen⟩)

theorem opTxnAbort_open : opTxnAbort id k s = finishOk (modHost s fun h =>
    { h with txns := tdel h.txns (cTxn k), txnEnds := tput h.txnEnds (cTxn k) ⟨k.ring, 2⟩ }) id := by
  simp only [opTxnAbort, hx]
  exact if_neg (not_or.2 ⟨not_not.2 hring, Bool.eq_false_iff.1 hopen⟩)

end

/-- A close of an open Shutter begins, with its deadline. -/
theorem shutterClose_open {ms : Nat} (h : shutter s = 2) : shutterClose s ms (some id) =
    modClose (wf (wf (wf (pend s id .shutter) rGlStatus 0 2 1 1) rGlShutter 0 39 21 0) rGlShutter 0 58 40 0)
      fun _ => ⟨2, s.now + ms * 1000000, false, [id], 0, 0, [], [], [], 0, 0⟩ := by
  have hpend : shutter (pend s id .shutter) = 2 := (shutter_pend s id .shutter).trans h
  simp only [shutterClose, List.foldl_cons, List.foldl_nil, hpend, h]
  rfl

theorem opShutterOpen_checked (h : shutter s = 0) (hcheck : openCheck (pend s id .shutter) = none) :
    opShutterOpen id k s = shutterOpened (pend s id .shutter) id := by
  simp only [opShutterOpen, hcheck, h]
  rfl

theorem opDiagFrameRead_checked (h : fld k.w1 24 0 < numFrames) : opDiagFrameRead id k s =
    let f := fld k.w1 24 0
    let pay := if (frame s f).st = .free then List.replicate frameBytes 0 else payload s f
    let u := if canLease s f then unlease (lease s f) f else s
    finishOk (cmdWrite u k 2 (pay ++ trailerBytes (trailer u f))) id :=
  if_neg (Nat.not_le.2 h)

end

/-- Settles O34: each command by its own lemma, or by what its operation is. -/
theorem adminCommandsComplete : Obligations.AdminCommandsComplete := by
  unfold Obligations.AdminCommandsComplete whenPassed
  intro s c
  refine ⟨fun h hin => hosted_next h rfl (opIdentify_checked hin), fun h hrole hsh => hosted_next h rfl (opSetRole_closed hrole hsh),
    fun h => hosted_next h rfl rfl, fun h t hopen hring ht => hosted_next h rfl (opTxnBegin_free hopen hring ht),
    fun h x hx hring hopen => hosted_next h rfl (opTxnCommit_open hx hring hopen),
    fun h x hx hring hopen => hosted_next h rfl (opTxnAbort_open hx hring hopen), fun h hms hsh => ?close,
    fun h hsh hcheck => hosted_next h rfl (opShutterOpen_checked hsh hcheck), fun h => hosted_next h rfl rfl, fun h => hosted_next h rfl rfl,
    fun h => hosted_next h rfl rfl, fun h => ?frameRead⟩
  case close => exact hosted_next h rfl ((opShutterClose_of_le _ _ _ hms).trans (shutterClose_open hsh))
  case frameRead => exact fun hf => hosted_next h rfl (opDiagFrameRead_checked hf)

/-! ### Sharing and power -/

section
variable {id : Nat} {k : Cmd} {s : State}

theorem opSetShare_fits (h : shareFits s k = true) :
    opSetShare id k s = defer (finishOk s id) (.context (fld k.w1 7 0)) (.setShare k) :=
  if_neg (ne_false_of_eq_true h)

theorem opCtxCreate_checked {p : (Nat × Nat) × (Nat × Nat)} (hleave : ctxLeaving s (fld k.w1 7 0) = false) (hx : fld k.w1 7 0 ≠ 0)
    (hst : ctxState s (fld k.w1 7 0) ≠ 1) (hp : ctxCheck s (fld k.w1 7 0) k = .inr p) : opCtxCreate id k s =
    finish (ctxRevive (touch (ctxInstall s (fld k.w1 7 0) k p) (3000 + fld k.w1 7 0)) (fld k.w1 7 0)) id sOk 0 p.1.1 0 := by
  have hcreate : ctxCreate id k s =
      finish (ctxRevive (touch (ctxInstall s (fld k.w1 7 0) k p) (3000 + fld k.w1 7 0)) (fld k.w1 7 0)) id sOk 0 p.1.1 0 := by
    simp only [ctxCreate, hp]
    exact if_neg (not_or.2 ⟨hx, hst⟩)
  exact (if_neg (Bool.eq_false_iff.1 hleave)).trans hcreate

theorem opCtxDestroy_active (hleave : ctxLeaving s (fld k.w1 7 0) = false) (hx : fld k.w1 7 0 ≠ 0)
    (hst : ctxState s (fld k.w1 7 0) ≠ 0) (hst' : ctxState s (fld k.w1 7 0) ≠ 2) : opCtxDestroy id k s =
    if ctxInUse s (fld k.w1 7 0) then teardown (pend s id (.teardown (fld k.w1 7 0))) ⟨fld k.w1 7 0, 0x20, 0, 0, 0⟩
    else finishOk (ctxAbsent (ctxRelease s (fld k.w1 7 0)) (fld k.w1 7 0)) id :=
  (if_neg (Bool.eq_false_iff.1 hleave)).trans ((if_neg (not_or.2 ⟨hx, hst⟩)).trans (if_neg hst'))

variable (hwind : windDown s = false)
include hwind

theorem opSprintRequest_running (h : inSprint s = true) :
    opSprintRequest id k s = finishOk (modPower s fun x => { x with maxMs := fld k.w1 31 0, maxFrom := s.now }) id := by
  simp only [opSprintRequest, hwind, h, Bool.false_eq_true, if_false, if_true]

theorem opSprintRequest_granted (h : inSprint s = false) (hcheck : sprintCheck s = none) : opSprintRequest id k s = sprintReady
    (modPower (pend s id .sprint) fun x => { x with asks := x.asks ++ [(id, fld k.w1 31 0)], target := sprMv (pend s id .sprint) }) := by
  simp only [opSprintRequest, hwind, h, hcheck, Bool.false_eq_true, if_false]

end

/-- Settles O35: each command by its own lemma, past the check of its ranges where it has one. -/
theorem sharingAndPowerCommandsComplete : Obligations.SharingAndPowerCommandsComplete := by
  unfold Obligations.SharingAndPowerCommandsComplete whenPassed
  intro s c
  refine ⟨fun h hr => hosted_next_range h rfl hr rfl, fun h hr => hosted_next_range h rfl hr rfl,
    fun h hr hfit => hosted_next_range h rfl hr (opSetShare_fits hfit), fun h hr => hosted_next_range h rfl hr rfl, fun h p => ?create,
    fun h => ?destroy, fun h hwind => ⟨?running, ?granted⟩, fun h => hosted_next h rfl rfl, fun h hr => hosted_next_range h rfl hr rfl⟩
  case create =>
    intro x hleave hx hst hp
    exact hosted_next h rfl (opCtxCreate_checked hleave hx hst hp)
  case destroy => exact fun hleave hx hst hst' => hosted_next h rfl (opCtxDestroy_active hleave hx hst hst')
  case running => exact fun hin => hosted_next h rfl (opSprintRequest_running hwind hin)
  case granted => exact fun hin hcheck => hosted_next h rfl (opSprintRequest_granted hwind hin hcheck)

end Sys2Proof.Machine
end

section
/-! Commands staged in a transaction (R356). -/
namespace Sys2Proof.Machine

section
variable {s : State} {op : Nat} {k : Cmd} {t : Txn} (ht : tget s.host.txns (cTxn k) = some t)
include ht

/-- A transaction of the command's ring with room for it lets it in. -/
theorem txnCheck_room (htrans : transactable op = true) (hring : t.ring = k.ring) (hopen : t.committing = false)
    (hroom : t.staged.length < 64) : txnCheck s op k = none := by
  have hmine : ¬(t.ring != k.ring || t.committing) = true := by simp [hring, hopen]
  simp only [txnCheck, ht, htrans, Bool.not_true, Bool.false_eq_true, if_false, if_neg hmine, if_neg (Nat.not_le.2 hroom), ite_self]

theorem stageCmd_found (id : Nat) : stageCmd s id op k = finish { s with host := { s.host with
    txns := tput s.host.txns (cTxn k) { t with staged := t.staged ++ [(op, k)] } } } id sOk t.staged.length 0 0 := by
  simp only [stageCmd, ht]

end

/-- A command of an opcode that may stand in a transaction, past all its checks, is staged in the one it names. -/
theorem hosted_staged {op : Nat} {range : Cmd → State → Option (Nat × Nat)} {act : Nat → Cmd → State → State}
    {c : Cmd} {s : State} {t : Txn}
    (hop : opRun op c s = runOp op range act c s) (hphase : s.gl.phase = 2) (htrans : transactable op = true)
    (hcheck : checkCmd (taken op c s) op (withOpcode c op) = none) (hin : cTxn (withOpcode c op) ≠ 0)
    (ht : tget (taken op c s).host.txns (cTxn (withOpcode c op)) = some t) (hring : t.ring = (withOpcode c op).ring)
    (hopen : t.committing = false) (hroom : t.staged.length < 64) (hrange : range (withOpcode c op) (taken op c s) = none) :
    hosted op c s = .next (after s (finish { taken op c s with host := { (taken op c s).host with
      txns := tput (taken op c s).host.txns (cTxn (withOpcode c op)) { t with staged := t.staged ++ [(op, withOpcode c op)] } } }
      s.host.cmdCtr sOk t.staged.length 0 0)) := by
  have htake : takeCmd s op (withOpcode c op) .none = (s.host.cmdCtr, taken op c s) := rfl
  have hrun : runOp op range act c s = stageCmd (taken op c s) s.host.cmdCtr op (withOpcode c op) := by
    simp only [runOp, htake, hcheck, txnCheck_room ht htrans hring hopen hroom, hrange]
    exact if_pos ⟨hin, htrans⟩
  rw [hosted_runs op c s hphase, hop, hrun, stageCmd_found ht]

/-- Settles O36: the six opcodes that may stand in a transaction, each with the check of its ranges. -/
theorem stagedCommandsWait : Obligations.StagedCommandsWait := by
  unfold Obligations.StagedCommandsWait
  intro s c op i t k r hi hphase hcheck hin ht hring hopen hroom hshaper hpolicer hshare htier hcap
  simp only [List.mem_cons, Prod.mk.injEq, List.not_mem_nil, or_false] at hi
  rcases hi with ⟨rfl, rfl⟩ | ⟨rfl, rfl⟩ | ⟨rfl, rfl⟩ | ⟨rfl, rfl⟩ | ⟨rfl, rfl⟩ | ⟨rfl, rfl⟩
  · exact hosted_staged (range := noRange) rfl hphase rfl hcheck hin ht hring hopen hroom rfl
  · exact hosted_staged rfl hphase rfl hcheck hin ht hring hopen hroom (hshaper rfl)
  · exact hosted_staged rfl hphase rfl hcheck hin ht hring hopen hroom (hpolicer rfl)
  · exact hosted_staged rfl hphase rfl hcheck hin ht hring hopen hroom (hshare rfl)
  · exact hosted_staged rfl hphase rfl hcheck hin ht hring hopen hroom (htier rfl)
  · exact hosted_staged rfl hphase rfl hcheck hin ht hring hopen hroom (hcap rfl)

end Sys2Proof.Machine
end

section
/-! What commands leave alone: those that only report (R354, R355), and those of roles, transactions, sharing and power (R4, R308,
R326–R332, R356, R358, R408). -/
namespace Sys2Proof.Machine

/-- A state is another one but for the host's own record and interrupts: what replies change. -/
def OnlyReplies (s r : State) : Prop := ∃ h x, r = { s with host := h, intr := x }

namespace OnlyReplies

theorem refl (s : State) : OnlyReplies s s := ⟨s.host, s.intr, rfl⟩

theorem trans {s r u : State} (h : OnlyReplies s r) (h' : OnlyReplies r u) : OnlyReplies s u := by
  obtain ⟨_, _, rfl⟩ := h
  obtain ⟨g, x, rfl⟩ := h'
  exact ⟨g, x, rfl⟩

theorem host (s : State) (h : HostS) : OnlyReplies s { s with host := h } := ⟨h, s.intr, rfl⟩

theorem modHost (s : State) (f : HostS → HostS) : OnlyReplies s (modHost s f) := host s _

theorem taken (op : Nat) (c : Cmd) (s : State) : OnlyReplies s (taken op c s) := ⟨_, s.intr, rfl⟩

theorem finish (s : State) (id st d a b : Nat) : OnlyReplies s (finish s id st d a b) := finish_eq s id st d a b

theorem pend (s : State) (id : Nat) (w : Wait) : OnlyReplies s (pend s id w) := pend_eq s id w

theorem stageCmd (s : State) (id op : Nat) (k : Cmd) : OnlyReplies s (stageCmd s id op k) := by
  unfold Machine.stageCmd
  split
  · exact finish s _ _ _ _ _
  · exact (host s _).trans (finish _ _ _ _ _ _)

theorem defer (s : State) (sc : Scope) (a : BAct) : OnlyReplies s (defer s sc a) := modHost s _

theorem touch (s : State) (n : Nat) : OnlyReplies s (touch s n) := ⟨_, s.intr, rfl⟩

end OnlyReplies

/-- A command either runs what its opcode does, or is refused or staged: then it changes nothing but replies. -/
theorem runOp_cases (op : Nat) (range : Cmd → State → Option (Nat × Nat)) (act : Nat → Cmd → State → State) (c : Cmd) (s : State) :
    OnlyReplies s (runOp op range act c s) ∨ runOp op range act c s = act s.host.cmdCtr (withOpcode c op) (taken op c s) := by
  have htake : takeCmd s op (withOpcode c op) .none = (s.host.cmdCtr, taken op c s) := rfl
  simp only [runOp, htake]
  split
  case h_1 => exact .inl ((OnlyReplies.taken op c s).trans (.finish _ _ _ _ _ _))
  split
  case h_1 => exact .inl ((OnlyReplies.taken op c s).trans (.finish _ _ _ _ _ _))
  split
  case h_1 => exact .inl ((OnlyReplies.taken op c s).trans (.finish _ _ _ _ _ _))
  split
  case isTrue => exact .inl ((OnlyReplies.taken op c s).trans (.stageCmd _ _ _ _))
  case isFalse => exact .inr rfl

/-- What holds of replies, and of what an opcode does once its command is taken, holds of the command. -/
theorem hosted_related {R : State → State → Prop} {op : Nat} (range : Cmd → State → Option (Nat × Nat))
    (act : Nat → Cmd → State → State) {c : Cmd} {s : State} (hphase : s.gl.phase = 2) (hop : opRun op c s = runOp op range act c s)
    (hreply : ∀ r, OnlyReplies s r → R s r) (hact : R s (act s.host.cmdCtr (withOpcode c op) (taken op c s))) :
    ∃ r, hosted op c s = .next (after s r) ∧ R s r := by
  refine ⟨_, hosted_runs op c s hphase, ?_⟩
  rw [hop]
  rcases runOp_cases op range act c s with h | h
  · exact hreply _ h
  · exact h ▸ hact

/-! ### Commands that only report -/

/-- A state is another one but for replies and at most n bytes of memory, at the address in word j of the command where that word is
one of staging SRAM. -/
def OnlyReport (c : Cmd) (j n : Nat) (s r : State) : Prop := ∃ (h : HostS) (x : IntrS) (m : List Host.Cell),
  r = { s with host := h, intr := x, mem := m } ∧ memWf m = true ∧ (cKind c j ≠ 1 ∨ n = 0 → m = s.mem) ∧
  ∀ a : Nat, a < (cWord c j).toNat ∨ (cWord c j).toNat + n ≤ a → readByte m a = readByte s.mem a

section
variable {c : Cmd} {j n : Nat} {s : State}

theorem OnlyReplies.onlyReport {r : State} (hmem : memWf s.mem = true) (h : OnlyReplies s r) : OnlyReport c j n s r := by
  obtain ⟨g, x, rfl⟩ := h
  exact ⟨g, x, s.mem, rfl, hmem, fun _ => rfl, fun _ _ => rfl⟩

theorem OnlyReport.trans_replies {r u : State} (h : OnlyReport c j n s r) (h' : OnlyReplies r u) : OnlyReport c j n s u := by
  obtain ⟨_, _, m, rfl, hm⟩ := h
  obtain ⟨g, x, rfl⟩ := h'
  exact ⟨g, x, m, rfl, hm⟩

/-- A block of at most n bytes goes to the memory the command names, or to the host. -/
theorem cmdWrite_onlyReport {r : State} (hmem : memWf s.mem = true) (h : OnlyReplies s r) (b : List Byte) (hb : b.length ≤ n) (hn : n ≠ 0) :
    OnlyReport c j n s (cmdWrite r c j b) := by
  obtain ⟨g, x, rfl⟩ := h
  unfold cmdWrite
  split
  case isTrue hkind =>
    refine ⟨g, x, writeBytes s.mem (cWord c j).toNat b, rfl, memWf_writeBytes b _ _ hmem, fun hno => ?_, fun a ha => ?_⟩
    · exact absurd hno (not_or.2 ⟨not_not.2 hkind, hn⟩)
    · exact readByte_writeBytes_out b _ _ a (ha.imp_right (by omega)) hmem
  case isFalse => exact ⟨_, x, s.mem, rfl, hmem, fun _ => rfl, fun _ _ => rfl⟩

end

theorem slice_length_zero (b : List Byte) (n : Nat) : (slice b 0 n).length = n := by
  simp only [slice, List.drop_zero, List.length_append, List.length_replicate, List.length_take]
  omega

theorem identifyBlock_length (s : State) : (identifyBlock s).length = 4096 := slice_length_zero _ _

theorem seqBytes_length (q : Nat) (x : Seq) : (seqBytes q x).length = 288 := by
  simp only [seqBytes, descBytes, choiceBytes, List.length_append, List.length_flatMap, toLE_length, List.length_replicate, List.map_cons,
    List.map_nil, List.sum_cons, List.sum_nil, Nat.reduceAdd]

theorem opIdentify_onlyReport {s : State} (c : Cmd) (hmem : memWf s.mem = true) (id : Nat) :
    OnlyReport c 1 4096 s (opIdentify id (withOpcode c 0) (taken 0 c s)) := by
  unfold opIdentify
  split
  · exact OnlyReplies.onlyReport hmem ((OnlyReplies.taken 0 c s).trans (.finish _ _ _ _ _ _))
  · exact (cmdWrite_onlyReport hmem (.taken 0 c s) _ (identifyBlock_length _).le (by decide)).trans_replies (.finish _ _ _ _ _ _)

theorem opSeqQuery_onlyReport {s : State} (c : Cmd) (hmem : memWf s.mem = true) (id : Nat) :
    OnlyReport c 2 288 s (opSeqQuery id (withOpcode c 0x18) (taken 0x18 c s)) := by
  have hreply : ∀ st d a b, OnlyReport c 2 288 s (finish (taken 0x18 c s) id st d a b) :=
    fun st d a b => OnlyReplies.onlyReport hmem ((OnlyReplies.taken 0x18 c s).trans (.finish _ _ _ _ _ _))
  unfold opSeqQuery
  dsimp only
  split
  case h_1 x _ =>
    split
    · exact hreply _ _ _ _
    · exact (cmdWrite_onlyReport hmem (.taken 0x18 c s) _ (seqBytes_length _ x).le (by decide)).trans_replies (.finish _ _ _ _ _ _)
  case h_2 =>
    split
    · exact hreply _ _ _ _
    · exact hreply _ _ _ _

/-- Settles O21: IDENTIFY and SEQ_QUERY write their block and reply; DIAG_ECHO replies only. -/
theorem reportingCommandsFrame : Obligations.ReportingCommandsFrame := by
  unfold Obligations.ReportingCommandsFrame
  intro s c op n j i hphase hcanon hi
  have hmem : memWf s.mem = true := (Bool.and_eq_true_iff.1 hcanon).1
  suffices h : ∃ r, exec i s = .next (after s r) ∧ OnlyReport c j n s r by
    obtain ⟨_, hexec, g, x, m, rfl, hm⟩ := h
    exact ⟨g, x, m, hexec, hm⟩
  have hreply : ∀ r, OnlyReplies s r → OnlyReport c j n s r := fun _ => OnlyReplies.onlyReport hmem
  simp only [List.mem_cons, Prod.mk.injEq, List.not_mem_nil, or_false] at hi
  rcases hi with ⟨rfl, rfl, rfl, rfl⟩ | ⟨rfl, rfl, rfl, rfl⟩ | ⟨rfl, rfl, rfl, rfl⟩
  · exact hosted_related noRange opIdentify hphase rfl hreply (opIdentify_onlyReport c hmem _)
  · exact hosted_related noRange opSeqQuery hphase rfl hreply (opSeqQuery_onlyReport c hmem _)
  · exact hosted_related noRange opDiagEcho hphase rfl hreply (hreply _ ((OnlyReplies.taken 0xE0 c s).trans (.finish _ _ _ _ _ _)))

/-! ### Commands of roles, transactions, sharing and power -/

/-- A state is another one but for registers, the record of sharing, and replies. -/
def OnlySharing (s r : State) : Prop := ∃ h x g m, r = { s with host := h, intr := x, regs := g, mt := m }

theorem OnlyReplies.onlySharing {s r : State} (h : OnlyReplies s r) : OnlySharing s r := by
  obtain ⟨g, x, rfl⟩ := h
  exact ⟨g, x, s.regs, s.mt, rfl⟩

namespace OnlySharing

theorem refl (s : State) : OnlySharing s s := (OnlyReplies.refl s).onlySharing

theorem trans {s r u : State} (h : OnlySharing s r) (h' : OnlySharing r u) : OnlySharing s u := by
  obtain ⟨_, _, _, _, rfl⟩ := h
  obtain ⟨h, x, g, m, rfl⟩ := h'
  exact ⟨h, x, g, m, rfl⟩

theorem trans_replies {s r u : State} (h : OnlySharing s r) (h' : OnlyReplies r u) : OnlySharing s u := h.trans h'.onlySharing

theorem wrReg (s : State) (d : RegDesc) (i k : Nat) (w : Word) : OnlySharing s (wrReg s d i k w) := ⟨s.host, s.intr, _, s.mt, rfl⟩

theorem wf (s : State) (d : RegDesc) (i hi lo v : Nat) : OnlySharing s (wf s d i hi lo v) := wrReg s d i 0 _

theorem modMt (s : State) (f : ShareS → ShareS) : OnlySharing s (modMt s f) := ⟨s.host, s.intr, s.regs, _, rfl⟩

/-- A loop of steps that change nothing more. -/
theorem foldl {α : Type} {step : State → α → State} (hstep : ∀ s a, OnlySharing s (step s a)) (l : List α) (s : State) :
    OnlySharing s (l.foldl step s) :=
  foldl_related step refl (fun _ _ _ => trans) hstep l s

end OnlySharing

section
variable (id : Nat) (k : Cmd) (s : State)

theorem opSetRole_onlySharing : OnlySharing s (opSetRole id k s) := by
  unfold opSetRole
  dsimp only
  split
  · exact (OnlyReplies.finish s _ _ _ _ _).onlySharing
  · split
    · exact (OnlyReplies.finish s _ _ _ _ _).onlySharing
    · exact (OnlySharing.wf s _ _ _ _ _).trans_replies (.finish _ _ _ _ _ _)

theorem opTxnBegin_onlyReplies : OnlyReplies s (opTxnBegin id k s) := by
  unfold opTxnBegin
  split
  · exact .finish s _ _ _ _ _
  · split
    · exact .finish s _ _ _ _ _
    · split
      · exact .finish s _ _ _ _ _
      · exact (OnlyReplies.modHost s _).trans (.finish _ _ _ _ _ _)

theorem opTxnAbort_onlyReplies : OnlyReplies s (opTxnAbort id k s) := by
  unfold opTxnAbort
  split
  · split
    · exact .finish s _ _ _ _ _
    · exact (OnlyReplies.modHost s _).trans (.finish _ _ _ _ _ _)
  · split
    · exact .finish s _ _ _ _ _
    · exact .finish s _ _ _ _ _

theorem shaperApply_onlySharing : OnlySharing s (shaperApply s k) := by
  have hctx : ∀ r x w f n, OnlySharing r (touch (modMt (wrReg r rTsCtx x 0 w) f) n) := fun r x w f n =>
    ((OnlySharing.wrReg r _ _ _ _).trans (.modMt _ _)).trans_replies (.touch _ _)
  have hport : ∀ r p q v w f n, OnlySharing r (touch (modMt (wrReg (wrReg r rTsQuantum p q v) rTsShape p q w) f) n) :=
    fun r p q v w f n => (((OnlySharing.wrReg r _ _ _ _).trans (.wrReg _ _ _ _ _)).trans (.modMt _ _)).trans_replies (.touch _ _)
  unfold shaperApply
  dsimp only
  split
  · split
    · exact (OnlySharing.foldl (fun r p => hport r p _ _ _ _ _) _ s).trans (hctx _ _ _ _ _)
    · exact hctx _ _ _ _ _
  · split
    · exact OnlySharing.foldl (fun r p => hport r p _ _ _ _ _) _ s
    · exact .refl s

theorem policerApply_onlySharing : OnlySharing s (policerApply s k) := by
  unfold policerApply
  refine OnlySharing.foldl (fun r p => ?_) _ s
  dsimp only
  refine OnlySharing.trans_replies (OnlySharing.trans ?_ (.modMt _ _)) (.touch _ _)
  split
  · exact (OnlySharing.wrReg r _ _ _ _).trans (.wrReg _ _ _ _ _)
  · exact ((OnlySharing.wrReg r _ _ _ _).trans (.wrReg _ _ _ _ _)).trans (.wf _ _ _ _ _ _)

theorem opSetShare_onlyReplies : OnlyReplies s (opSetShare id k s) := by
  unfold opSetShare
  split
  · exact .finish s _ _ _ _ _
  · exact (OnlyReplies.finish s _ _ _ _ _).trans (.defer _ _ _)

end

/-- Settles O27: each opcode by its own lemma, over the command as it was taken. -/
theorem adminCommandsFrame : Obligations.AdminCommandsFrame := by
  unfold Obligations.AdminCommandsFrame
  intro s c i hphase hi
  suffices h : ∃ r, exec i s = .next (after s r) ∧ OnlySharing s r by
    obtain ⟨_, hexec, g, x, regs, m, rfl⟩ := h
    exact ⟨g, x, regs, m, hexec⟩
  have hreply : ∀ r, OnlyReplies s r → OnlySharing s r := fun _ => OnlyReplies.onlySharing
  have htaken : ∀ op, OnlySharing s (taken op c s) := fun op => (OnlyReplies.taken op c s).onlySharing
  simp only [List.mem_cons, List.not_mem_nil, or_false] at hi
  rcases hi with rfl | rfl | rfl | rfl | rfl | rfl | rfl | rfl | rfl
  · exact hosted_related noRange opSetRole hphase rfl hreply ((htaken 0x01).trans (opSetRole_onlySharing _ _ _))
  · exact hosted_related noRange opSetMode hphase rfl hreply ((htaken 0x02).trans_replies ((OnlyReplies.defer _ _ _).trans (.finish _ _ _ _ _ _)))
  · exact hosted_related noRange opTxnBegin hphase rfl hreply ((htaken 0x08).trans_replies (opTxnBegin_onlyReplies _ _ _))
  · exact hosted_related noRange opTxnAbort hphase rfl hreply ((htaken 0x0A).trans_replies (opTxnAbort_onlyReplies _ _ _))
  · exact hosted_related shaperCheck opSetShaper hphase rfl hreply
      (((htaken 0x70).trans (shaperApply_onlySharing _ _)).trans_replies (.finish _ _ _ _ _ _))
  · exact hosted_related policerCheck opSetPolicer hphase rfl hreply
      (((htaken 0x71).trans (policerApply_onlySharing _ _)).trans_replies (.finish _ _ _ _ _ _))
  · exact hosted_related shareCheck opSetShare hphase rfl hreply ((htaken 0x72).trans_replies (opSetShare_onlyReplies _ _ _))
  · exact hosted_related tierCheck opSetTierPolicy hphase rfl hreply
      ((htaken 0x73).trans_replies ((OnlyReplies.finish _ _ _ _ _ _).trans (.defer _ _ _)))
  · exact hosted_related capCheck opSetPowerCap hphase rfl hreply
      (((htaken 0x82).trans ((OnlySharing.wf _ _ _ _ _ _).trans_replies (.touch _ _))).trans_replies (.finish _ _ _ _ _ _))

end Sys2Proof.Machine
end
